-- ==== Sys2Proof/Word.lean ====
section
/-! DEFINITION. The word types of the SZ440 and the index types its rules count with (00: R6–R11). -/

namespace Sys2Proof

/-- One byte. -/
abbrev Byte := BitVec 8
/-- A 16-bit field (little-endian on every wire, R10). -/
abbrev W16 := BitVec 16
/-- A 32-bit register value. -/
abbrev W32 := BitVec 32
/-- A 64-bit value: Hourglass time in pinches (R7), object numbers (R197). -/
abbrev W64 := BitVec 64

/-- Decks D0 to D3. -/
abbrev Deck := Fin 4
/-- Contexts 0 to 63 (R151). -/
abbrev Ctx := Fin 64
/-- Packet ports: 0 to 3 are E0 to E3, 4 is port S (R129). -/
abbrev Port := Fin 5
/-- Ehran ports E0 to E3. -/
abbrev EPort := Fin 4
/-- Axes of one deck, in the order CAP, SUP, TKU, POS (R194). -/
abbrev Axis := Fin 4
/-- Slot index within a deck, 0 to 11 (R191). -/
abbrev SlotIx := Fin 12

/-- The value 0 or 1 of a flag. -/
def bit (b : Bool) : Nat := if b then 1 else 0

end Sys2Proof
end

