-- ==== Sys2Proof/Machine/Crc.lean ====
section
/-! DEFINITION. The three checks of the packet and record layers: CRC-8 (05: R121; 13: R329; 04: R111),
CRC-16 (05: R122) and the record CRC-32 (12: R309); and little-endian bytes (00: R10). -/

namespace Sys2Proof.Machine

/-- One bit of a CRC that takes the most significant bit first, with polynomial `poly`. -/
def crcMsbStep {n : Nat} (poly c : BitVec n) : BitVec n := if c.msb then (c <<< 1) ^^^ poly else c <<< 1

/-- `k` steps of `crcMsbStep`. -/
def crcMsbSteps {n : Nat} (poly : BitVec n) : Nat → BitVec n → BitVec n
  | 0, c => c
  | k + 1, c => crcMsbSteps poly k (crcMsbStep poly c)

/-- CRC-8, polynomial 0x07, from a running value (R121). -/
def crc8From (c : Byte) (bs : List Byte) : Byte := bs.foldl (fun c b => crcMsbSteps 0x07#8 8 (c ^^^ b)) c

/-- CRC-8 with initial value 0x00 (R121, R111, R329). -/
def crc8 (bs : List Byte) : Byte := crc8From 0#8 bs

/-- CRC-16, polynomial 0x1021, initial value 0xFFFF (R122). -/
def crc16 (bs : List Byte) : W16 :=
  bs.foldl (fun c b => crcMsbSteps 0x1021#16 8 (c ^^^ ((b.zeroExtend 16 : W16) <<< (8 : Nat)))) 0xFFFF#16

/-- One bit of the reflected CRC-32 (R309). -/
def crc32Step (c : W32) : W32 := if c.getLsbD 0 then (c >>> 1) ^^^ 0xEDB88320#32 else c >>> 1

/-- `k` steps of `crc32Step`. -/
def crc32Steps : Nat → W32 → W32
  | 0, c => c
  | k + 1, c => crc32Steps k (crc32Step c)

/-- The record CRC-32 (R309); the same function checks the transport profile and the patch image. -/
def crc32 (bs : List Byte) : W32 :=
  (bs.foldl (fun c b => crc32Steps 8 (c ^^^ b.zeroExtend 32)) 0xFFFFFFFF#32) ^^^ 0xFFFFFFFF#32

/-- The low `k` bytes of a number, least significant first (R10). -/
def leBytes : Nat → Nat → List Byte
  | 0, _ => []
  | k + 1, x => BitVec.ofNat 8 x :: leBytes k (x / 256)

/-- The number that bytes spell, least significant first (R10). -/
def leNat : List Byte → Nat
  | [] => 0
  | b :: bs => b.toNat + 256 * leNat bs

/-- `k` bytes of `bs` from offset `o`, read little-endian; missing bytes read as 0. -/
def leAt (bs : List Byte) (o k : Nat) : Nat := leNat ((bs.drop o).take k)

/-- The byte at offset `o`; 0 beyond the end. -/
def byteAt (bs : List Byte) (o : Nat) : Byte := (bs[o]?).getD 0#8

end Sys2Proof.Machine
end

