-- ==== Sys2Proof/Machine/Gf.lean ====
section
/-! DEFINITION. Arithmetic over GF(2⁸) with field polynomial 0x11D and α = 0x02 (11: R269; 13 uses the same field). -/

namespace Sys2Proof.Machine

/-- Multiplication by α. -/
def gfDouble (a : Byte) : Byte := if a.msb then (a <<< 1) ^^^ 0x1D#8 else a <<< 1

/-- Product, the low `n` bits of `b` taken from the top. -/
def gfMulGo (a b : Byte) : Nat → Byte → Byte
  | 0, acc => acc
  | n + 1, acc => gfMulGo a b n (gfDouble acc ^^^ (if b.getLsbD n then a else 0#8))

/-- Product in GF(2⁸) (R269). -/
def gfMul (a b : Byte) : Byte := gfMulGo a b 8 0#8

/-- αⁿ. -/
def gfExp : Nat → Byte
  | 0 => 1#8
  | n + 1 => gfDouble (gfExp n)

/-- The first exponent from `p` on, of the `n` that follow, whose power `x` is `a`. -/
def gfLogGo (a : Byte) : Nat → Nat → Byte → Option Nat
  | 0, _, _ => none
  | n + 1, p, x => if x = a then some p else gfLogGo a n (p + 1) (gfDouble x)

/-- The exponent of a non-zero element, 0 to 254; none for 0. -/
def gfLog (a : Byte) : Option Nat := gfLogGo a 255 0 1#8

/-- The inverse of a non-zero element; 0 for 0, which no rule asks for. -/
def gfInv (a : Byte) : Byte :=
  match gfLog a with
  | some p => gfExp ((255 - p) % 255)
  | none => 0#8

/-- Quotient in GF(2⁸). -/
def gfDiv (a b : Byte) : Byte := gfMul a (gfInv b)

/-- The polynomial whose coefficients are listed from x⁰ on, at `x`. -/
def gfEval : List Byte → Byte → Byte
  | [], _ => 0#8
  | c :: cs, x => c ^^^ gfMul x (gfEval cs x)

/-- The sum of two polynomials, coefficient by coefficient. -/
def gfPolyAdd : List Byte → List Byte → List Byte
  | [], q => q
  | p, [] => p
  | a :: p, b :: q => (a ^^^ b) :: gfPolyAdd p q

/-- The product of a polynomial with (x + r). -/
def gfPolyTimesRoot (p : List Byte) (r : Byte) : List Byte :=
  gfPolyAdd (0#8 :: p) (p.map (gfMul r))

/-- The generator with roots α^b, …, α^(b + n − 1), coefficients from x⁰ on. -/
def gfGenerator (b : Nat) : Nat → List Byte
  | 0 => [1#8]
  | n + 1 => gfPolyTimesRoot (gfGenerator b n) (gfExp (b + n))

/-- One step of the division register: bring in the coefficient `d`; `g` is the generator without its leading 1. -/
def rsShift (g : List Byte) (reg : List Byte) (d : Byte) : List Byte :=
  let fb := d ^^^ (reg.getLast?.getD 0#8)
  List.zipWith (fun gi ri => ri ^^^ gfMul fb gi) g (0#8 :: reg.dropLast)

/-- x^k·D(x) mod g(x) for the coefficients of D listed from the highest on; k is the degree of g. -/
def rsRemainder (g : List Byte) (ds : List Byte) : List Byte :=
  ds.foldl (rsShift g.dropLast) (List.replicate g.dropLast.length 0#8)

end Sys2Proof.Machine
end

