-- ==== Sys2Proof/Machine/Rs.lean ====
section
/-! DEFINITION. The Reed–Solomon codes of the recording format: systematic encoder and the decoder for errors and
erasures (13: R318; 14: R365, R371–R373). A codeword is listed c₀ first; c₀ is the highest coefficient. -/

namespace Sys2Proof.Machine

/-- The parity of a message, for `k` roots from α⁰ on: x^k·u(x) mod g(x), highest coefficient first (R318). -/
def rsParity (k : Nat) (u : List Byte) : List Byte := (rsRemainder (gfGenerator 0 k) u).reverse

/-- Message and parity (R318). -/
def rsEncode (k : Nat) (u : List Byte) : List Byte := u ++ rsParity k u

/-- The syndromes c(α⁰), …, c(α^(k − 1)). -/
def rsSyndromes (k : Nat) (c : List Byte) : List Byte := (List.range k).map (fun j => gfEval c.reverse (gfExp j))

/-- Product of polynomials, from x⁰ on. -/
def gfPolyMul : List Byte → List Byte → List Byte
  | [], _ => []
  | a :: p, q => gfPolyAdd (q.map (gfMul a)) (0#8 :: gfPolyMul p q)

/-- The polynomial with its leading zeros dropped. -/
def polyTrim (p : List Byte) : List Byte := (p.reverse.dropWhile (· == 0#8)).reverse

/-- Degree plus one of a polynomial; 0 for the zero polynomial. -/
def polyLen (p : List Byte) : Nat := (polyTrim p).length

/-- Remainder and quotient of `a` by `b`, `b` not zero. -/
def polyDivMod : Nat → List Byte → List Byte → List Byte × List Byte
  | 0, a, _ => (polyTrim a, [])
  | n + 1, a, b =>
    let a := polyTrim a
    let b := polyTrim b
    if a.length < b.length ∨ b = [] then (a, [])
    else
      let q := gfDiv (a.getLast?.getD 0#8) (b.getLast?.getD 0#8)
      let mono := List.replicate (a.length - b.length) 0#8 ++ [q]
      let (r, quo) := polyDivMod n (gfPolyAdd a (gfPolyMul mono b)) b
      (r, gfPolyAdd mono quo)

/-- The extended Euclidean steps of the key equation, until the remainder is short enough: locator and evaluator. -/
def keyEquation : Nat → Nat → List Byte → List Byte → List Byte → List Byte → List Byte × List Byte
  | 0, _, _, r, _, v => (v, r)
  | n + 1, bound, r0, r1, v0, v1 =>
    if polyLen r1 ≤ bound then (v1, r1)
    else
      let (r2, q) := polyDivMod 32 r0 r1
      keyEquation n bound r1 r2 v1 (gfPolyAdd v0 (gfPolyMul q v1))

/-- The formal derivative of a polynomial over GF(2⁸). -/
def polyDeriv (p : List Byte) : List Byte :=
  (List.range (p.length - 1)).map (fun i => if i % 2 = 0 then byteOr p (i + 1) else 0#8)
where
  byteOr (p : List Byte) (i : Nat) : Byte := (p[i]?).getD 0#8

/-- The decoder of a code with `k` check symbols for the erased places `er` (offsets from c₀): the corrected codeword and
the number of symbols in error outside the erasures, when 2t + e ≤ k; none otherwise (R371, R372, R373). -/
def rsDecode (k : Nat) (er : List Nat) (c : List Byte) : Option (List Byte × Nat) :=
  let n := c.length
  let syn := rsSyndromes k c
  let e := er.length
  if e > k then none
  else if syn.all (· == 0#8) then some (c, 0)
  else
    let loc := fun i => gfExp ((n - 1 - i) % 255)
    let gamma := er.foldl (fun p i => gfPolyMul p [1#8, loc i]) [1#8]
    let xi := (gfPolyMul syn gamma).take k
    let xk := List.replicate k 0#8 ++ [1#8]
    let (lam, _) := keyEquation 32 ((k + e) / 2) xk xi [] [1#8]
    let psi := polyTrim (gfPolyMul lam gamma)
    let omega := (gfPolyMul syn psi).take k
    let dpsi := polyDeriv psi
    let roots := (List.range n).filter (fun i => gfEval psi (gfInv (loc i)) == 0#8)
    if roots.length + 1 ≠ psi.length ∨ 2 * (roots.length - e) + e > k then none
    else
      let out := roots.foldl (fun cw i =>
        let x := loc i
        cw.modify i (fun b => b ^^^ gfMul x (gfDiv (gfEval omega (gfInv x)) (gfEval dpsi (gfInv x))))) c
      if (rsSyndromes k out).all (· == 0#8) then
        some (out, ((List.range n).filter (fun i => !er.contains i && decide ((c.getD i 0#8) ≠ (out.getD i 0#8)))).length)
      else none

end Sys2Proof.Machine
end

