-- ==== Sys2Proof/Machine/Krf.lean ====
section
/-! DEFINITION. The Krytindik Recording Format as functions of bytes: dataset layout, the three codes, the DIT, the
label record, pieces, the 8/9 code and the fixed cell patterns (13: R314–R346). -/

namespace Sys2Proof.Machine

/-! ### The dataset -/

/-- Kinds of dataset (Table 13-3). -/
inductive DsKind where
  | data | label | eod
  deriving DecidableEq, Repr

/-- The kind byte of a DIT header (Table 13-3). -/
def DsKind.code : DsKind → Byte
  | .data => 0x01#8
  | .label => 0x02#8
  | .eod => 0x03#8

/-- A DIT entry: a record segment or filemarks (Table 13-4). -/
inductive DitEntry where
  | segment (first last raw poisoned : Bool) (len recLen : Nat)
  | marks (count : Nat)
  deriving DecidableEq, Repr

/-- A dataset as its DIT describes it, with its user bytes (R320–R323). -/
structure Dataset where
  kind     : DsKind
  number   : BitVec 64
  first    : BitVec 64           -- first_object
  gen      : W32
  partition : BitVec 2
  wrap     : BitVec 6
  tracks   : Nat
  entries  : List DitEntry
  user     : List Byte           -- the segments, packed (R322)
  deriving DecidableEq, Repr

/-- The bytes of an entry (Table 13-4). -/
def DitEntry.bytes : DitEntry → List Byte
  | .segment f l r p len recLen =>
    [0x01#8, BitVec.ofNat 8 (bit f + 2 * bit l + 4 * bit r + 8 * bit p)] ++ leBytes 3 len ++ leBytes 3 recLen
  | .marks n => [0x02#8, 0x00#8] ++ leBytes 3 n ++ [0#8, 0#8, 0#8]

/-- Objects that begin in an entry (R323). -/
def DitEntry.begins : DitEntry → Nat
  | .segment f _ _ _ _ _ => bit f
  | .marks n => n

/-- Whether an entry is a segment marked poisoned. -/
def DitEntry.isPoisoned : DitEntry → Bool
  | .segment _ _ _ p _ _ => p
  | .marks _ => false

/-- Whether entry 0 continues a record begun in an earlier dataset (hflags[2]). -/
def Dataset.continues (d : Dataset) : Bool :=
  match d.entries with
  | .segment false _ _ _ _ _ :: _ => true
  | _ => false

/-- User-area bytes of one dataset. -/
def userArea : Nat := 131072
/-- DIT entries a dataset holds (R321). -/
def maxEntries : Nat := 312

/-- The DIT of a dataset, 2,560 bytes (R320, R321). -/
def Dataset.dit (d : Dataset) : List Byte :=
  let used := d.user.length
  let hflags := bit (used < userArea) + 2 * bit (d.entries.any (·.isPoisoned)) + 4 * bit d.continues
  let head := [0x4B#8, 0x52#8, 0x46#8, 0x31#8, d.kind.code, BitVec.ofNat 8 hflags]
    ++ leBytes 2 d.entries.length ++ leBytes 8 d.number.toNat ++ leBytes 8 d.first.toNat ++ leBytes 4 d.gen.toNat
    ++ [d.partition.zeroExtend 8, d.wrap.zeroExtend 8, BitVec.ofNat 8 d.tracks, 0#8]
    ++ leBytes 4 used ++ leBytes 4 (d.entries.map (·.begins)).sum ++ List.replicate 24 0#8
  let es := d.entries.flatMap (·.bytes)
  (head ++ es ++ List.replicate 2496 0#8).take 2560

/-- The payload: the DIT, the user area and its padding, 133,632 bytes (R317, R322). -/
def Dataset.payload (d : Dataset) : List Byte := d.dit ++ (d.user ++ List.replicate (userArea - d.user.length) 0#8)

/-- Row `r` (0–71), columns 0–231, of data sub-dataset `sd` (R317). -/
def payloadRow (p : List Byte) (sd r : Nat) : List Byte := (p.drop (16704 * sd + 232 * r)).take 232

/-- Columns of equally long rows. -/
def columns (n : Nat) (rows : List (List Byte)) : List (List Byte) :=
  (List.range n).map (fun j => rows.map (fun r => byteAt r j))

/-- Rows 0–71, columns 0–231, of sub-datasets 8 and 9: the C3 parity of row `r` (R319). -/
def c3Row (p : List Byte) (sd r : Nat) : List Byte :=
  (columns 232 ((List.range 8).map (fun s => payloadRow p s r))).map (fun col => byteAt (rsParity 2 col) (sd - 8))

/-- Rows 0–71 of any sub-dataset, columns 0–231. -/
def dataRow (p : List Byte) (sd r : Nat) : List Byte := if sd < 8 then payloadRow p sd r else c3Row p sd r

/-- Any row of a sub-dataset, columns 0–231: data, or the C2 parity of its columns (R319). -/
def c2Row (p : List Byte) (sd r : Nat) : List Byte :=
  if r < 72 then dataRow p sd r
  else (columns 232 ((List.range 72).map (dataRow p sd))).map (fun col => byteAt (rsParity 8 col) (r - 72))

/-- The 240 bytes of piece (sd, r): one C1 codeword (R319). -/
def pieceBytes (p : List Byte) (sd r : Nat) : List Byte := rsEncode 8 (c2Row p sd r)

/-! ### Interleave and tape length -/

/-- The track and slot of piece (sd, r) (R335). -/
def piecePlace (n sd r : Nat) : Nat × Nat :=
  let t := (r + sd) % n
  (t, 10 * (r / n) + (sd + 10 * n - t) % 10)

/-- The piece in slot `s` of track `t` (R335). -/
def slotPiece (n t s : Nat) : Nat × Nat :=
  let sd := (s + t) % 10
  (sd, (s / 10) * n + (t + 10 * n - sd) % n)

/-- ceil(a / b). -/
def ceilDiv (a b : Nat) : Nat := (a + b - 1) / b

/-- Cells of a dataset with `r` trailer pieces (R338). -/
def datasetCells (n r : Nat) : Nat := 540 + (800 / n + ceilDiv r n) * 2232

/-- T_ds in cells (R338, Table 13-9). -/
def tdsCells (n : Nat) : Nat := datasetCells n 64

/-! ### Pieces, the 8/9 code and cells -/

/-- The 6 bytes of a piece header (Table 13-5, R329). -/
def pieceHeader (dataset : BitVec 64) (sd rewrite row track : Nat) : List Byte :=
  let b := leBytes 2 dataset.toNat ++ [BitVec.ofNat 8 (sd + 16 * rewrite), BitVec.ofNat 8 row, BitVec.ofNat 8 track]
  b ++ [crc8 b]

/-- The longest run of zeros in the low `n` bits of `w`, with the run `cur` open and the longest `best` so far. -/
def zeroRun (w : Nat) : Nat → Nat → Nat → Nat
  | 0, cur, best => max cur best
  | n + 1, cur, best => if w.testBit n then zeroRun w n 0 (max cur best) else zeroRun w n (cur + 1) best

/-- Admissible 9-bit words (R330). -/
def admissible (w : Nat) : Bool := decide (w / 64 ≠ 0) && decide (w % 8 ≠ 0) && decide (zeroRun w 9 0 0 < 5)

/-- The admissible words in ascending order (R330). -/
def admissibleWords : List Nat := (List.range 512).filter admissible

/-- The word of a byte (R330). -/
def encode89 (b : Byte) : BitVec 9 := BitVec.ofNat 9 ((admissibleWords[b.toNat]?).getD 0)

/-- The place of `w` in a list, counted from `i`. -/
def indexFrom (w : Nat) : List Nat → Nat → Option Nat
  | [], _ => none
  | x :: xs, i => if x = w then some i else indexFrom w xs (i + 1)

/-- The byte of a word; none for a code violation (R331). -/
def decode89 (w : BitVec 9) : Option Byte :=
  match indexFrom w.toNat (admissibleWords.take 256) 0 with
  | some i => some (BitVec.ofNat 8 i)
  | none => none

/-- The cells of a word, bit 8 first (R330). -/
def wordCells (w : BitVec 9) : List Bool := (List.range 9).map (fun i => w.getLsbD (8 - i))

/-- The sync mark (Table 13-7). -/
def syncMark : List Bool :=
  [true, false, false, false, false, false, true, false, false, false, false, false, true, false, true, false, true, true]

/-- Cell `i` of the preamble, the postamble and the erase pattern (Table 13-7). -/
def preambleCell (i : Nat) : Bool := i % 3 = 0
/-- See `preambleCell`. -/
def postambleCell (i : Nat) : Bool := i % 2 = 0
/-- See `preambleCell`. -/
def eraseCell (i : Nat) : Bool := i % 4 < 2

/-- The 2,232 cells of a piece (R328). -/
def pieceCells (header codeword : List Byte) : List Bool :=
  syncMark ++ (header ++ codeword).flatMap (fun b => wordCells (encode89 b))

/-- Cell `m` of track `t` of a dataset's body: preamble, pieces, postamble (R334). -/
def bodyCell (d : Dataset) (t m : Nat) : Bool :=
  let slots := 800 / d.tracks
  if m < 360 then preambleCell m
  else if m < 360 + slots * 2232 then
    let s := (m - 360) / 2232
    let (sd, r) := slotPiece d.tracks t s
    ((pieceCells (pieceHeader d.number sd 0 r t) (pieceBytes d.payload sd r))[(m - 360) % 2232]?).getD false
  else postambleCell (m - 360 - slots * 2232)

/-! ### The read link and the search for pieces (R358–R361) -/

/-- A symbol of the read link: the detected cell and its reliability, 0 to 7 (R358). -/
abbrev Symbol := Bool × Nat

/-- "No information" (R359). -/
def noInfo : Symbol := (false, 0)

/-- Track 4L + j in a frame of lane L: the bits 4j to 4j + 3 in the order received, d, r2, r1, r0 (R358, Table 14-1). -/
def frameSymbol (f : W16) (j : Nat) : Symbol :=
  (f.getLsbD (4 * j), 4 * bit (f.getLsbD (4 * j + 1)) + 2 * bit (f.getLsbD (4 * j + 2)) + bit (f.getLsbD (4 * j + 3)))

/-- The alignment frame, bits 1000 1000 1000 1000; received on an aligned link it counts as no cells (R359, R360). -/
def alignFrame : W16 := 0x1111

/-- A stretch of a track that passes its read head about the place of one piece: the track, the body slot when it lies in a body, and the
frames of the track's lane, from 16 cells before the place where the sync mark is expected. -/
structure Passed where
  track  : Nat
  slot   : Option Nat
  frames : List W16
  deriving DecidableEq, Repr

/-- The symbols of the stretch. -/
def Passed.symbols (p : Passed) : List Symbol := (p.frames.filter (· ≠ alignFrame)).map (fun f => frameSymbol f (p.track % 4))

/-- Cells in which the symbols from `i` on differ from the sync mark. -/
def syncMisses (s : List Symbol) (i : Nat) : Nat :=
  ((List.range 18).filter (fun j => decide ((((s[i + j]?).getD noInfo).1) ≠ (syncMark[j]?).getD false))).length

/-- Where the sync mark is accepted: a locked track takes the first place within ±16 cells of the expected one with at most one cell
wrong, a track that is not locked the first exact match (R361). -/
def Passed.syncAt (p : Passed) (locked : Bool) : Option Nat :=
  let s := p.symbols
  if locked then (List.range 33).find? (fun i => decide (syncMisses s i ≤ 1))
  else (List.range (s.length - 17)).find? (fun i => decide (syncMisses s i = 0))

/-- A piece header as read (Table 13-5). -/
structure Header where
  dataset : W16
  sd      : Nat
  rewrite : Nat
  row     : Nat
  track   : Nat
  deriving DecidableEq, Repr

/-- A header from its six bytes, when they are those of a header: its CRC-8 passes (R329) and it names a piece. -/
def parseHeader (b : List Byte) : Option Header :=
  let h : Header := { dataset := BitVec.ofNat 16 (leAt b 0 2), sd := (byteAt b 2).toNat % 16, rewrite := (byteAt b 2).toNat / 16,
                      row := (byteAt b 3).toNat, track := (byteAt b 4).toNat % 16 }
  if crc8 (b.take 5) = byteAt b 5 ∧ h.sd < 10 ∧ h.row < 80 then some h else none

/-- A piece as found: its place in the code, its header when that passes, and its 240 words, each with whether one of its cells had
reliability 0 or 1 (R361, R371). -/
structure Piece where
  sd     : Nat
  row    : Nat
  header : Option Header
  words  : List (BitVec 9)
  weak   : List Bool
  deriving DecidableEq, Repr

/-- The 9-cell word at symbol `i`, bit 8 first, and whether a cell of it had reliability 0 or 1. -/
def linkWord (s : List Symbol) (i : Nat) : BitVec 9 × Bool :=
  let cells := (List.range 9).map (fun j => (s[i + j]?).getD noInfo)
  (BitVec.ofNat 9 (cells.foldl (fun n c => 2 * n + bit c.1) 0), cells.any (fun c => decide (c.2 ≤ 1)))

/-- The piece that Strainer finds in a stretch while it expects a dataset of n tracks: by its header, or in a body by its slot; none when
no sync mark is accepted, when nothing identifies it, or when its header names another dataset (R361, R329). -/
def Passed.find (p : Passed) (n : Nat) (dataset : BitVec 64) (locked : Bool) : Option Piece :=
  match p.syncAt locked with
  | none => none
  | some i =>
    let s := p.symbols.drop (i + 18)
    let head := (List.range 6).map (fun j => decode89 (linkWord s (9 * j)).1)
    let h := if head.any (·.isNone) then none else parseHeader (head.map (fun b => b.getD 0#8))
    let body := (List.range 240).map (fun j => linkWord s (54 + 9 * j))
    let place : Option (Nat × Nat) := match h, p.slot with
      | some h, _ => if h.dataset = dataset.setWidth 16 then some (h.sd, h.row) else none
      | none, some k => some (slotPiece n p.track k)
      | none, none => none
    place.map (fun x => { sd := x.1, row := x.2, header := h, words := body.map (·.1), weak := body.map (·.2) })

/-! ### Judging and decoding -/

/-- Code violations among the words of a copy (R331). -/
def codeViolations (ws : List (BitVec 9)) : Nat := (ws.filter (fun w => (decode89 w).isNone)).length

/-- The bytes of a copy, an unknown byte as 0x00. -/
def copyBytes (ws : List (BitVec 9)) : List Byte := ws.map (fun w => (decode89 w).getD 0#8)

/-- Verify's test of the 240 words of a found copy: no violation, and C1 errors-only changes at most 2 symbols (R365). -/
def verifyGood (ws : List (BitVec 9)) : Bool :=
  ws.length = 240 && codeViolations ws = 0 &&
    (match rsDecode 8 [] (copyBytes ws) with
     | some (_, t) => decide (t ≤ 2)
     | none => false)

/-- Stage 1 on one copy: its erasures, and the row with the number of symbols C1 changed (R371). -/
def stage1 (c : Piece) : Option (List Byte × Nat) :=
  let bs := copyBytes c.words
  let er := (List.range 240).filter (fun i =>
    (match c.words[i]? with
     | some w => (decode89 w).isNone
     | none => true) || (c.weak[i]?).getD false)
  match rsDecode 8 er bs with
  | some (row, t) => if t ≤ 3 then some (row, ((List.range 240).filter (fun i => bs[i]? != row[i]?)).length) else none
  | none => none

/-- The rows a pass has accepted: (sd, row) with its 240 bytes; the first accepted copy of a piece is kept (R371). -/
abbrev Rows := List ((Nat × Nat) × List Byte)

/-- The row of piece (sd, r), when held. -/
def Rows.find (rs : Rows) (sd r : Nat) : Option (List Byte) :=
  match rs with
  | [] => none
  | (k, b) :: rest => if k = (sd, r) then some b else Rows.find rest sd r

/-- Stage 1 over the copies in arrival order, after the rows already held; with the symbols changed (R371, R374). -/
def collectRows : List Piece → Rows → Nat → Rows × Nat
  | [], rs, n => (rs, n)
  | c :: cs, rs, n =>
    match rs.find c.sd c.row with
    | some _ => collectRows cs rs n
    | none =>
      match stage1 c with
      | some (row, k) => collectRows cs (rs ++ [((c.sd, c.row), row)]) (n + k)
      | none => collectRows cs rs n

/-- Stage 2 on one sub-dataset: its 80 rows of 232 bytes and the number of rows C2 changed; none when a column fails (R372). -/
def stage2 (rs : Rows) (sd : Nat) : Option (List (List Byte) × Nat) :=
  let raw := (List.range 80).map (fun r => rs.find sd r)
  let er := (List.range 80).filter (fun r => ((raw[r]?).getD none).isNone)
  let rows := raw.map (fun o => ((o.getD []) ++ List.replicate 232 0#8).take 232)
  let cols := (columns 232 rows).map (rsDecode 8 er)
  if cols.any (·.isNone) then none
  else
    let fixedCols := cols.map (fun o => (o.getD ([], 0)).1)
    let fixed := columns 80 fixedCols
    some (fixed, ((List.range 80).filter (fun r => er.contains r || rows[r]? != fixed[r]?)).length)

/-- What a decoding pass yields: the payload, or that it failed; rows changed by C2 (in all, and in SD0 to SD7) and
sub-datasets filled by C3 (R372, R373, R375). -/
structure PassResult where
  payload : Option (List Byte)
  c2Rows  : Nat
  c2Data  : Nat
  c3Sds   : Nat
  deriving DecidableEq, Repr

/-- Stages 2 and 3 over the rows held (R372, R373). -/
def decodePass (rs : Rows) : PassResult :=
  let subs := (List.range 10).map (stage2 rs)
  let lost := (List.range 10).filter (fun s => ((subs[s]?).getD none).isNone)
  let c2 := fun k => ((subs.take k).map (fun o => (o.getD ([], 0)).2)).sum
  let lostData := lost.filter (· < 8)
  let row := fun s r => (((((subs[s]?).getD none).getD ([], 0)).1)[r]?).getD (List.replicate 232 0#8)
  if lostData.isEmpty then
    ⟨some ((List.range 8).flatMap (fun s => (List.range 72).flatMap (row s))), c2 10, c2 8, 0⟩
  else if lost.length ≤ 2 then
    let fill := fun r => (columns 232 ((List.range 10).map (fun s => row s r))).map (fun col =>
      ((rsDecode 2 lost col).getD (col, 0)).1)
    let filled := (List.range 72).map fill
    let cell := fun s r => ((filled[r]?).getD []).map (fun col => byteAt col s)
    ⟨some ((List.range 8).flatMap (fun s => (List.range 72).flatMap (cell s))), c2 10, c2 8, lostData.length⟩
  else ⟨none, c2 10, c2 8, 0⟩

/-! ### Reading a DIT -/

/-- An entry from its 8 bytes (Table 13-4); none when its kind or a reserved bit is wrong (R327). -/
def parseEntry (b : List Byte) : Option DitEntry :=
  let f := byteAt b 1
  if byteAt b 0 = 0x01#8 then
    if f.toNat < 16 then
      some (.segment (f.getLsbD 0) (f.getLsbD 1) (f.getLsbD 2) (f.getLsbD 3) (leAt b 2 3) (leAt b 5 3))
    else none
  else if byteAt b 0 = 0x02#8 then
    if f = 0#8 ∧ leAt b 5 3 = 0 then some (.marks (leAt b 2 3)) else none
  else none

/-- Every entry in use, or none (R327). -/
def parseEntries (p : List Byte) : Nat → Nat → Option (List DitEntry)
  | 0, _ => some []
  | n + 1, e =>
    match parseEntry ((p.drop (64 + 8 * e)).take 8), parseEntries p n (e + 1) with
    | some x, some xs => some (x :: xs)
    | _, _ => none

/-- Segment bytes of an entry. -/
def DitEntry.len : DitEntry → Nat
  | .segment _ _ _ _ n _ => n
  | .marks _ => 0

/-- R322's rule for the first and last flags: only the last entry may lack last, only entry 0 may lack first. -/
def flagsOk : Bool → List DitEntry → Bool
  | _, [] => true
  | isFirst, [.segment f _ _ _ _ _] => f || isFirst
  | isFirst, .segment f l _ _ _ _ :: es => (f || isFirst) && l && flagsOk false es
  | _, .marks n :: es => decide (n ≥ 1) && flagsOk false es

/-- The length rules of R327 for a record whose one segment holds it whole. -/
def storedOk : DitEntry → Bool
  | .segment f l r _ n recLen =>
    decide (1 ≤ n ∧ n ≤ userArea ∧ 1 ≤ recLen)
      && (!(f && l) || (if r then decide (n = recLen + 4) else decide (n ≥ 4)))
  | .marks _ => true

/-- A dataset from its payload; none when it is structurally invalid for a tape of `n` tracks in `partition` (R327). -/
def parseDataset (partition : BitVec 2) (n : Nat) (p : List Byte) : Option Dataset :=
  let kind := match (byteAt p 4).toNat with
    | 1 => some DsKind.data
    | 2 => some DsKind.label
    | 3 => some DsKind.eod
    | _ => none
  let count := leAt p 6 2
  let used := leAt p 32 4
  match kind, parseEntries p (min count (maxEntries + 1)) 0 with
  | some k, some es =>
    let sum := (es.map (·.len)).sum
    if p.take 4 = [0x4B#8, 0x52#8, 0x46#8, 0x31#8] ∧ count ≤ maxEntries ∧ used ≤ userArea
        ∧ (byteAt p 5).toNat < 8 ∧ byteAt p 31 = 0#8 ∧ ((p.drop 40).take 24).all (· == 0#8)
        ∧ (byteAt p 28).toNat = partition.toNat ∧ (byteAt p 30).toNat = n
        ∧ (k ≠ .data ∨ (sum = used ∧ flagsOk true es ∧ es.all storedOk)) then
      some { kind := k, number := BitVec.ofNat 64 (leAt p 8 8), first := BitVec.ofNat 64 (leAt p 16 8),
             gen := BitVec.ofNat 32 (leAt p 24 4), partition := partition, wrap := BitVec.ofNat 6 (byteAt p 29).toNat,
             tracks := n, entries := es, user := (p.drop 2560).take used }
    else none
  | _, _ => none

/-! ### The label -/

/-- A map entry of a label (R339). -/
structure MapEntry where
  dataset : BitVec 64
  object  : BitVec 64
  gen     : W32
  wrap    : BitVec 6
  deriving DecidableEq, Repr

/-- A label record (Table 13-10). -/
structure Label where
  tracks     : Nat
  partitions : Nat
  cellLength : Nat
  linePitch  : Nat
  wraps      : List Nat          -- n_p for p = 0 to 3
  partition  : BitVec 2
  stamp      : BitVec 64
  seq        : W32
  isOpen     : Bool
  map        : List MapEntry     -- four entries in partition 0
  deriving DecidableEq, Repr

/-- First wrap of partition p, and its number of wraps. -/
def Label.firstWrap (l : Label) (p : Nat) : Nat := ((l.wraps.take p).foldl (· + ·) 0)
def Label.wrapCount (l : Label) (p : Nat) : Nat := (l.wraps[p]?).getD 0

/-- Wrap w is the last of partition p. -/
def Label.lastWrap (l : Label) (p w : Nat) : Bool := decide (l.firstWrap p + l.wrapCount p ≤ w + 1)

/-- The 136 bytes of a label record (Table 13-10). -/
def Label.bytes (l : Label) : List Byte :=
  [0x4B#8, 0x52#8, 0x46#8, 0x4C#8] ++ leBytes 2 1 ++ [BitVec.ofNat 8 l.tracks, BitVec.ofNat 8 l.partitions]
    ++ leBytes 4 l.cellLength ++ leBytes 4 l.linePitch
    ++ ((l.wraps ++ [0, 0, 0, 0]).take 4).map (BitVec.ofNat 8)
    ++ [l.partition.zeroExtend 8, 0#8, 0#8, 0#8] ++ leBytes 8 l.stamp.toNat ++ leBytes 4 l.seq.toNat
    ++ [BitVec.ofNat 8 (bit l.isOpen), 0#8, 0#8, 0#8]
    ++ ((l.map.flatMap (fun m => leBytes 8 m.dataset.toNat ++ leBytes 8 m.object.toNat ++ leBytes 4 m.gen.toNat
        ++ [m.wrap.zeroExtend 8, 0#8, 0#8, 0#8])) ++ List.replicate 96 0#8).take 96

/-- A label record from its bytes; none when it is not one (R343). -/
def parseLabel (b : List Byte) : Option Label :=
  if b.take 4 = [0x4B#8, 0x52#8, 0x46#8, 0x4C#8] ∧ leAt b 4 2 = 1 then
    some { tracks := leAt b 6 1, partitions := leAt b 7 1, cellLength := leAt b 8 4, linePitch := leAt b 12 4,
           wraps := (List.range 4).map (fun i => leAt b (16 + i) 1), partition := BitVec.ofNat 2 (leAt b 20 1),
           stamp := BitVec.ofNat 64 (leAt b 24 8), seq := BitVec.ofNat 32 (leAt b 32 4),
           isOpen := decide (leAt b 36 1 = 1),
           map := (List.range 4).map (fun p =>
             let o := 40 + 24 * p
             ⟨BitVec.ofNat 64 (leAt b o 8), BitVec.ofNat 64 (leAt b (o + 8) 8), BitVec.ofNat 32 (leAt b (o + 16) 4),
              BitVec.ofNat 6 (leAt b (o + 20) 1)⟩) }
  else none

end Sys2Proof.Machine
end

