-- ==== Sys2Proof/Syntax.lean ====
section
/-! DEFINITION. The commands of the SZ440: one constructor of `Instr` per row of spec/opcode_table.json.

A host opcode's row is "the Cook takes this command": it carries the command's header fields and its payload bytes. An
event row carries what comes from outside the chip at that event (levels, sensor readings, timestamps, damage seen by a read). -/

namespace Sys2Proof

/-- What the header of a taken command says beside its opcode (R119, R120), with the packet port it arrived on. -/
structure CmdHdr where
  ctx  : Ctx
  tag  : W16
  rcrc : Bool
  port : Port
  deriving DecidableEq, Repr

/-- The ordinary write cycles of one host packet that cross between two commands of an Ehran port, each with En_FRM high, and how many
whole packets port data movement moved out of the receive buffer before them (R69, R85). -/
structure WriteRun where
  moved : Nat
  words : List W16
  deriving DecidableEq, Repr

/-- What the SRAM macros return wrong while a command runs: for each storage word concerned, what is added to its symbols (R272). -/
abbrev Damage := List (BitVec 18 × List Byte)

/-- An input that requests at a Funnel site as a round begins: how many deadline units ago it began to, and which of the blocks it
serves have a word waiting, by their place in its rotation (R249, R251, R257). -/
structure Wanting where
  input  : Nat
  ago    : W16
  blocks : List Nat
  deriving DecidableEq, Repr

/-- How a host packet on an Ehran port ends (R74): En_FRM changes level, or the direction changes. -/
inductive PacketEnd where
  | frame
  | direction
  deriving DecidableEq, Repr

/-- What one deck declares to Kettle (R34, Table 2-4, KETTLE_LOAD_Dn of R63). -/
structure DeckLoad where
  loopPeriod : BitVec 12
  tracks     : BitVec 5
  reading    : Bool
  compress   : Bool
  decompress : Bool
  cellRate   : BitVec 9
  deriving DecidableEq, Repr

/-- A load declaration (R34): a deck's, or a packet port's rate. -/
inductive Declaration where
  | deck (d : Deck) (l : DeckLoad)
  | port (p : Port) (rate : BitVec 6)
  deriving DecidableEq, Repr

/-- What the scan step of LOAD reads from the tape: the decoded label datasets A and B (none: not readable), whether any sync
mark was found, and, for each partition, the datasets that the recovery search meets from the hint on, in tape order, each with
whether it is complete; the list ends where no sync mark follows (R343, R344). -/
structure ScanFound where
  labelA  : Option Machine.Dataset
  labelB  : Option Machine.Dataset
  signal  : Bool
  parts   : List (List (Machine.Dataset × Bool))
  deriving DecidableEq, Repr

/-- The SZ440's commands. The comment above each group names the file of spec/ that owns it. -/
inductive Instr where
  -- 06, 07: session opcodes
  | ctxOpen (h : CmdHdr) (p : List Byte)
  | ctxClose (h : CmdHdr) (p : List Byte)
  | ctxReset (h : CmdHdr) (p : List Byte)
  | eventsFetch (h : CmdHdr) (p : List Byte)
  | statusPeek (h : CmdHdr) (p : List Byte)
  | queueConfig (h : CmdHdr) (p : List Byte)
  | quotaQuery (h : CmdHdr) (p : List Byte)
  | timeRead (h : CmdHdr) (p : List Byte)
  -- 07: deck, loop and motion opcodes
  | deckLock (h : CmdHdr) (p : List Byte)
  | deckUnlock (h : CmdHdr) (p : List Byte)
  | deckAdopt (h : CmdHdr) (p : List Byte)
  | load (h : CmdHdr) (p : List Byte)
  | unload (h : CmdHdr) (p : List Byte)
  | home (h : CmdHdr) (p : List Byte)
  | deckStop (h : CmdHdr) (p : List Byte)
  | deckStatus (h : CmdHdr) (p : List Byte)
  | loopOpen (h : CmdHdr) (p : List Byte)
  | loopClose (h : CmdHdr) (p : List Byte)
  | loopWrite (h : CmdHdr) (p : List Byte)
  | loopRead (h : CmdHdr) (p : List Byte)
  | autotune (h : CmdHdr) (p : List Byte)
  | autotuneResult (h : CmdHdr) (p : List Byte)
  | tripClear (h : CmdHdr) (p : List Byte)
  | speedPolicy (h : CmdHdr) (p : List Byte)
  -- 08: record and positioning opcodes
  | writeRecord (h : CmdHdr) (p : List Byte)
  | writeData (h : CmdHdr) (p : List Byte)
  | writeFilemark (h : CmdHdr) (p : List Byte)
  | flush (h : CmdHdr) (p : List Byte)
  | readRecord (h : CmdHdr) (p : List Byte)
  | readMore (h : CmdHdr) (p : List Byte)
  | locate (h : CmdHdr) (p : List Byte)
  | space (h : CmdHdr) (p : List Byte)
  | rewind (h : CmdHdr) (p : List Byte)
  | positionRead (h : CmdHdr) (p : List Byte)
  | eraseFromHere (h : CmdHdr) (p : List Byte)
  | formatTape (h : CmdHdr) (p : List Byte)
  | verify (h : CmdHdr) (p : List Byte)
  | compressionSet (h : CmdHdr) (p : List Byte)
  | profileLoad (h : CmdHdr) (p : List Byte)
  -- 03: the Ehran ports
  | ehranPacketEnd (p : EPort) (run : WriteRun) (how : PacketEnd)
  | ehranReplyRead (p : EPort) (transfers : Nat)
  | replyStage (p : Port) (slots : List Nat) (damage : Damage)
  | strayTransfer (p : EPort) (frm : Bool) (word : W16)
  | earlyRelease (p : EPort) (frm : Bool) (word : W16) (completed : Bool)
  | directionGlitch (p : EPort) (frm : Bool) (word : W16)
  | selectGlitch (p : EPort) (frm : Bool) (word : W16)
  | turnaround (p : EPort) (toHost : Bool)
  | portReselect (p : EPort) (frm toHost : Bool)
  | paceRelease (p : EPort) (word : W16)
  | portConfigAdopt (p : EPort)
  | portDisable (p : EPort) (run : WriteRun)
  -- 04: port S, I2C, JTAG
  | spiPacketIn (moved : Nat) (body : List Byte) (oddBits next : Bool)
  | spiPacketOut (moved shifted : Nat) (next : Bool)
  | doorPeek (next : Bool)
  | spiFragment (next : Bool)
  | spiBadFraming (framing : Byte) (next : Bool)
  | spiConfigAdopt
  | i2cWrite (addr : BitVec 7) (parts : List (List Byte))
  | i2cRead (addr : BitVec 7) (parts : List (List Byte)) (taken : Nat)
  | i2cPecWrite (addr : BitVec 7) (parts : List (List Byte))
  | i2cPecRead (addr : BitVec 7) (parts : List (List Byte)) (taken : Nat)
  | i2cTimeout (addr : BitVec 7) (parts : List (List Byte)) (taken : Option Nat)
  | extest (update : Option (List Bool))
  | idcode
  | samplePreload (pattern : List Bool)
  | delaycalRead
  | macroIsolate (value : Byte)
  | bypass (ir : BitVec 5)
  | testLogicReset
  -- 05, 01: events, notices and queues
  | eventDelivery
  | queueEntryPlaced (queue : Nat)
  | cookNotice (d : Option Deck)
  | deckWorkRequest (d : Deck)
  -- 06: leases, orphans, close
  | leaseWarning (d : Deck)
  | leaseExpiry (d : Deck)
  | orphanDrainEnd (d : Deck)
  | adoptWindowExpiry (d : Deck)
  | ctxCloseStaged (c : Ctx)
  -- 09: Ladle and Pass Q
  | allocCells (engine requester owner n : Nat) (critical : Bool)
  | extend (engine requester address n : Nat) (critical : Bool)
  | allocBlock (engine requester owner : Nat) (critical : Bool)
  | hand (engine requester address holder : Nat) (critical : Bool)
  | release (engine requester address : Nat)
  | drainCriticalGrant
  | bankJoin
  | qcommitCommit
  | qcommitRevert
  -- 10: Funnel
  | funnelRound (site : Fin 18) (wanting : List Wanting)
  | funnelUnitDone (site : Fin 18) (waiting : List Nat)
  | parkedRegrant (site : Fin 18) (waiting : List Nat)
  | funnelFreeze (value : W32)
  | funnelClear (value : W32)
  | funnelCsel (value : W32)
  -- 11: buffer SRAM, merge buffers, the Cook cache, Colander
  | wordRead (input : Fin 12) (w : BitVec 18) (err : List Byte)
  | wordWrite (input : Fin 12) (w : BitVec 18) (data : List Byte)
  | readModifyWrite (input : Fin 12) (w : BitVec 18) (mask : W16) (data : List Byte) (err : List Byte)
  | mergeWrite (buf : Fin 9) (ctx : Option Ctx) (w : BitVec 18) (mask : W16) (data : List Byte) (damage : Damage)
  | cookStore (w : BitVec 18) (mask : W16) (data : List Byte) (damage : Damage)
  | writebackAck
  | scrubInitPass
  | scrubPassStart
  | scrubRead (err : List Byte)
  | scrubNow
  | scrubEnable (on : Bool)
  | sramClearCounts
  -- 12: Whisk
  | compressRecord (d : Deck) (slot : Option Nat) (damage : Damage)
  | decompressRecord (d : Deck) (bad : List Nat)
  -- 17: encoder inputs
  | encoderEdge (d : Deck) (enc : Fin 3) (a b : Bool) (fine : BitVec 11)
  | encoderErrorFault (d : Deck) (enc : Fin 3)
  | indexEdge (d : Deck) (fine : BitVec 11)
  -- 14: Roller and Strainer
  | datasetStart (d : Deck) (fine : BitVec 11)
  | lateFrame (d : Deck) (fine : BitVec 11)
  | pieceJudge (d : Deck) (sd row copy : Nat) (frames : List W16)
  | trailerPlace (d : Deck)
  | datasetRead (d : Deck) (dataset : W64) (passed : List Machine.Passed)
  | rereadPass (d : Deck)
  | readLinkAlign (d : Deck)
  | readLinkAlignLoss (d : Deck)
  -- 15: the speed matcher
  | speedRetarget (d : Deck)
  | stallTimeout (d : Deck)
  | runOutBrake (d : Deck)
  | underrun (d : Deck)
  | deckRestart (d : Deck)
  | readBufferStall (d : Deck)
  -- 16: Simmer
  | sampleInstant (d : Deck) (chip0 chip1 : W64) (fine : BitVec 11)
  | sampleOverrun (d : Deck) (slots : List SlotIx)
  | autotuneTimeout (d : Deck) (k : SlotIx)
  -- 17: Griddle, trips, limits, presence
  | sensorInvalidFault (d : Deck)
  | pwmPeriodStart (d : Deck) (fine : BitVec 11)
  | trip (d : Deck) (a : Axis) (fine : BitVec 11)
  | limitEdge (d : Deck) (hi active : Bool) (fine : BitVec 11) (before after : Int) (into : Nat)
  | limitWindowEnd (d : Deck) (hi : Bool)
  | presenceChange (d : Deck) (door level : Bool) (fine : BitVec 11)
  | tapeMarkerEdge (d : Deck) (rising : Bool) (fine : BitVec 11)
  -- 18: deck sequences
  | deckLeaveDormant (d : Deck)
  | loadStepEnd (d : Deck) (found : ScanFound)
  | homeStepEnd (d : Deck) (position : Int)
  | stepTimeout (d : Deck)
  | tensionFault (d : Deck)
  | faultStopRest (d : Deck)
  | stopComplete (d : Deck)
  | unloadStepEnd (d : Deck)
  | wrapTurn (d : Deck)
  -- 19, 02: power-up
  | powerOn (vin : BitVec 10)
  | trimRead (ma : BitVec 3)
  | hgrefClassify (is20 : Bool)
  | startupPhaseBegin
  | strapSample (bootmode : BitVec 2) (simple : Bool)
  | freeListBuild
  | cookBoot
  | decksControllable
  | uvloFall
  | warningArm (vin : BitVec 10)
  | powerFailWarning (vin vinSeal : BitVec 10) (gapUs : W32)
  | brownoutRestart (vin : BitVec 10) (bootmode : BitVec 2) (simple : Bool)
  | resetAssert
  | resetRelease (bootmode : BitVec 2) (simple : Bool)
  | vioBankChange (bank : Fin 6) (good : Bool)
  -- 19: domains and supply registers
  | domainAutoOff (n : Fin 148)
  | domainWake (n : Fin 148)
  | deckHold (value : BitVec 4)
  | sramOff (value : BitVec 4)
  | pwrPfwWrite (value : W32)
  | pwrClearLow
  -- 02: the timebase and Kettle
  | referenceLoss
  | referenceRestore (is20 : Bool)
  | lineCalibration
  | lineCalDone (set : Fin 5) (elements : BitVec 13)
  | tbCalNow
  | tbClearLoss
  | tbTrimWrite (value : W32)
  | tbTimeLoRead
  | kettleEvaluate (times : List (BitVec 24))
  | loadDeclaration (l : Declaration)
  | declarationTimeout
  | kettleStepSettled
  | overrun (site : Nat)
  | kettleClearCounts
  -- 20: traps, faults, movers
  | cookTrap (cause : Nat) (pc : W32) (job : Option (Ctx × W16))
  | cookDoubleFault (cause : Nat) (pc : W32)
  | cookSupervisionTimeout
  | cookRestart
  | engineFault (unit : Fin 148) (detail : W32)
  | tongsDescriptor (channel : Fin 32) (job : Option (Ctx × W16)) (descriptor : BitVec 18) (words : List (BitVec 18 × BitVec 18)) (damage : Damage)
  -- 21: management
  | tempSample (readings : List (BitVec 12)) (bad : Byte)
  | tempClearPeak
  | logWinRead (damaged : Bool)
  | logPop (seq : W32)
  | logSlotClear (unit : Byte) (which : BitVec 2)
  | logRelease (unit : Byte)
  | cookRelease
  | cookRestartRequest
  | cookHalt
  | cookPatchDataAccess (write : Option W32)
  | emergencyHold (hold coast : BitVec 4)
  | mirTimeLoRead (d : Deck)
  | rolPosLoRead (d : Deck)
  | pwrTWarnLoRead
  | rolClearCounts (d : Deck)
  | strClearCounts (d : Deck)
  | mioClearCounts (d : Deck)
  | ladleClearLow
  | registerWrite (address : W16) (value : W32)
  -- 02, 19, 03, 17, 14: ticks and further events
  | coarseTick
  | v3aUp
  | alwaysOnReady
  | deckDomainsOn
  | portDeselect (p : EPort) (run : WriteRun)
  | tripInputRelease (d : Deck) (a : Axis) (fine : BitVec 11)
  | trackLock (d : Deck) (t : Fin 16) (skew : W16)
  | trackUnlock (d : Deck) (t : Fin 16) (dropped : Bool)
  | cellBoundary (d : Deck) (fine : BitVec 11)
  deriving DecidableEq, Repr

end Sys2Proof
end

