-- ==== Sys2Proof/Config.lean ====
section
/-! DEFINITION. Free values: what the spec leaves open or an implementation fixes. None of them has a body. -/

namespace Sys2Proof.Config

/-- Pinches that the n-th tick of the internal ring advances the Hourglass by, before HGREF is classified and in FREE_RUN
(R47, R52 give the ring's tolerance only). Log entry 1. -/
opaque ringTick : Nat → Nat

/-- The unique serial number of the part (R507: "Per part"). -/
opaque serial : BitVec 64

/-- Where the Cook's microcode stands when it is halted from outside: bit 14 chooses patch RAM, bits [13:0] are the word (R514). -/
opaque microPc : Nat → BitVec 15

/-- The hottest reading, and its sensor in the upper bits, while all eight sensors fail their checks (R508, R509 state none). -/
opaque noSensor : Nat → BitVec 15

/-- Number of the object at the start of a dataset that a LOCATE could not read, with the dataset before it not in hand (R214; log entry 81). -/
opaque objectAt : Nat → BitVec 64

end Sys2Proof.Config
end

