-- ==== Sys2Proof/Machine/SramCode.lean ====
section
/-! DEFINITION. The storage word of the buffer SRAM: fold, encoder and decoder (11: R267–R281). -/

namespace Sys2Proof.Machine

/-- Words in the buffer (R267). -/
def sramWords : Nat := 262144

/-- rotl(B, n) of R270. -/
def rotl8 (b : Byte) (n : Nat) : Byte := b.rotateLeft n

/-- The virtual address symbol V of word W (R270). -/
def sramFold (w : BitVec 18) : Byte :=
  let b : Byte := w.extractLsb' 8 8
  let low : Byte := w.extractLsb' 0 8
  low ^^^ b ^^^ rotl8 b 1 ^^^ rotl8 b 2
    ^^^ (if w.getLsbD 16 then 0x0B#8 else 0#8) ^^^ (if w.getLsbD 17 then 0xB0#8 else 0#8)

/-- The generator x³ + 0x07·x² + 0x0E·x + 0x08 of R269, from x⁰ on. -/
def sramGenerator : List Byte := [0x08#8, 0x0E#8, 0x07#8, 0x01#8]

/-- The check symbols c0, c1, c2 of 16 data bytes at word W (R271). -/
def sramCheck (w : BitVec 18) (data : List Byte) : List Byte :=
  rsRemainder sramGenerator (sramFold w :: data.reverse)

/-- The 19 symbols M0 to M18 of a clean word (R271, Table 11-1). -/
def sramEncode (w : BitVec 18) (data : List Byte) : List Byte := sramCheck w data ++ data

/-- The 19 symbols of a poisoned word: 0x02, 0x03, 0x01 added to the check symbols (R275). -/
def sramEncodePoison (w : BitVec 18) (data : List Byte) : List Byte :=
  gfPolyAdd (sramEncode w data) [0x02#8, 0x03#8, 0x01#8]

/-- What the decoder says of a word (R272). -/
inductive WordResult where
  | clean | corrected | poisoned | address | uncorrectable
  deriving DecidableEq, Repr

/-- A decoded word: its result, its symbols after correction and the position located (SRAM_LAST_ERR). -/
structure Decoded where
  result : WordResult
  syms   : List Byte
  pos    : Option Nat
  deriving DecidableEq, Repr

/-- The 16 data bytes of the decoded word. -/
def Decoded.data (d : Decoded) : List Byte := d.syms.drop 3

/-- ADDRESS, UNCORRECTABLE and POISONED are delivered as poison (R273, R278). -/
def Decoded.isPoison (d : Decoded) : Bool :=
  match d.result with
  | .clean | .corrected => false
  | _ => true

/-- The syndromes S0, S1, S2 of the 19 stored symbols with V folded in (R272). -/
def sramSyndromes (w : BitVec 18) (syms : List Byte) : Byte × Byte × Byte :=
  let cw := syms ++ [sramFold w]
  (gfEval cw 1#8, gfEval cw (gfExp 1), gfEval cw (gfExp 2))

/-- The position that "single(T)" of R272 names, 0 to 19; none when T does not pass. -/
def sramSingle (t0 t1 t2 : Byte) : Option Nat :=
  if t0 ≠ 0#8 ∧ gfMul t1 t1 = gfMul t0 t2 then
    match gfLog (gfDiv t1 t0) with
    | some p => if p ≤ 19 then some p else none
    | none => none
  else none

/-- Adds `y` to the symbol at position `p`. -/
def symAdd (syms : List Byte) (p : Nat) (y : Byte) : List Byte := syms.modify p (fun b => b ^^^ y)

/-- The poison constant σ (R275). -/
def poisonSigma : Byte := 0x1E#8

/-- The decoder with no macro erased (R272). -/
def sramDecodePlain (w : BitVec 18) (syms : List Byte) : Decoded :=
  let (s0, s1, s2) := sramSyndromes w syms
  if s0 = 0#8 ∧ s1 = 0#8 ∧ s2 = 0#8 then ⟨.clean, syms, none⟩
  else match sramSingle s0 s1 s2 with
    | some p => if p = 19 then ⟨.address, syms, some 19⟩ else ⟨.corrected, symAdd syms p s0, some p⟩
    | none =>
      if s0 = 0#8 ∧ s1 = 0#8 ∧ s2 = poisonSigma then ⟨.poisoned, syms, none⟩
      else match sramSingle s0 s1 (s2 ^^^ poisonSigma) with
        | some p => if p = 19 then ⟨.address, syms, some 19⟩ else ⟨.poisoned, symAdd syms p s0, some p⟩
        | none => ⟨.uncorrectable, syms, none⟩

/-- The decoder with macro `m` erased (R280). -/
def sramDecodeErased (m : Nat) (w : BitVec 18) (syms : List Byte) : Decoded :=
  let (s0, s1, s2) := sramSyndromes w syms
  let xm := gfExp m
  let t1 := s1 ^^^ gfMul xm s0
  let t2 := s2 ^^^ gfMul xm s1
  if t1 = 0#8 ∧ t2 = 0#8 then ⟨.clean, symAdd syms m s0, none⟩
  else if t1 = 0#8 ∧ t2 = poisonSigma then ⟨.poisoned, symAdd syms m s0, none⟩
  else if t1 = 0#8 then ⟨.uncorrectable, syms, none⟩
  else
    let x := gfDiv t2 t1
    match gfLog x with
    | none => ⟨.uncorrectable, syms, none⟩
    | some p =>
      if p = 19 then ⟨.address, syms, some 19⟩
      else if p ≤ 18 ∧ p ≠ m then
        let y := gfDiv t1 (x ^^^ xm)
        ⟨.corrected, symAdd (symAdd syms p y) m (s0 ^^^ y), some p⟩
      else ⟨.uncorrectable, syms, none⟩

/-- The decoder for the erasure in force (R272, R279, R280). -/
def sramDecode (erased : Option Nat) (w : BitVec 18) (syms : List Byte) : Decoded :=
  match erased with
  | none => sramDecodePlain w syms
  | some m => sramDecodeErased m w syms

/-! ### The macros as memory: entry W of macro Mi is the cell at address 32·W + i (Table 11-1) -/

/-- What a cell that nothing has written reads as: the symbol of the all-zero codeword of its own word (R289).
DESIGN CHOICE before the start-up pass, log entry 5. -/
def sramBlank (a : Nat) : Byte :=
  let v := sramFold (BitVec.ofNat 18 (a / 32))
  match a % 32 with
  | 0 => gfMul v 0xCB#8
  | 1 => gfMul v 0xCE#8
  | 2 => gfMul v 0x04#8
  | _ => 0#8

/-- The byte at address `a`. -/
def memGet : List (Nat × Byte) → Nat → Byte
  | [], a => sramBlank a
  | (k, b) :: m, a => if k = a then b else memGet m a

/-- Puts `b` at address `a` in a list sorted by address; an entry equal to the blank value is not listed. -/
def memSet : List (Nat × Byte) → Nat → Byte → List (Nat × Byte)
  | [], a, b => if b = sramBlank a then [] else [(a, b)]
  | (k, c) :: m, a, b =>
    if a < k then (if b = sramBlank a then (k, c) :: m else (a, b) :: (k, c) :: m)
    else if a = k then (if b = sramBlank a then m else (a, b) :: m)
    else (k, c) :: memSet m a b

/-- The 19 symbols of word `w`. -/
def memWord (m : List (Nat × Byte)) (w : BitVec 18) : List Byte :=
  (List.range 19).map (fun i => memGet m (32 * w.toNat + i))

/-- Writes symbols from address `a` on. -/
def memPut : List (Nat × Byte) → Nat → List Byte → List (Nat × Byte)
  | m, _, [] => m
  | m, a, b :: bs => memPut (memSet m a b) (a + 1) bs

/-- Stores the 19 symbols of word `w`. -/
def memPutWord (m : List (Nat × Byte)) (w : BitVec 18) (syms : List Byte) : List (Nat × Byte) :=
  memPut m (32 * w.toNat) (syms.take 19)

/-- Addresses from `lo` on, strictly rising, none listed at its blank value. -/
def memSorted : Nat → List (Nat × Byte) → Bool
  | _, [] => true
  | lo, (k, b) :: m => decide (lo ≤ k) && decide (b ≠ sramBlank k) && memSorted (k + 1) m

/-- The canonical form of the buffer memory. -/
def memWf (m : List (Nat × Byte)) : Bool := memSorted 0 m

end Sys2Proof.Machine
end

