-- ==== Sys2Proof/Machine/Whisk.lean ====
section
/-! DEFINITION. Whisk's two codecs as functions of bytes: the encoder, the decoder and their treatment of
poisoned words (12: R299–R311). -/

namespace Sys2Proof.Machine

/-! ### Where a byte lies -/

/-- The word of its chain that holds byte `b` of a chain's payload: a cell has 16 words and its payload starts at offset 8 (R228). -/
def chainWord (b : Nat) : Nat := (b / 248) * 16 + (8 + b % 248) / 16

/-- The first byte of a chain's payload that lies in the same word as byte `b`. -/
def wordStart (b : Nat) : Nat := b - min (b % 248) ((8 + b % 248) % 16)

/-- The bytes that lie in one of the words `words` of their chain. -/
def inWords (words : List Nat) (b : Nat) : Bool := words.contains (chainWord b)

/-- Whether one of the `k` bytes from `b` on is a byte of a poisoned word; `bad` tells which bytes are. -/
def spanBad (bad : Nat → Bool) (b k : Nat) : Bool := (List.range k).any (fun i => bad (b + i))

/-! ### The encoder -/

/-- The hash of three bytes (R306). -/
def whiskHash (b0 b1 b2 : Byte) : Nat := ((b0.toNat <<< 4) ^^^ (b1.toNat <<< 2)) ^^^ b2.toNat

/-- The hash of position `r`; none when r + 2 ≥ N (R306). -/
def hashAt (rec : List Byte) (r : Nat) : Option Nat :=
  match rec.drop r with
  | b0 :: b1 :: b2 :: _ => some (whiskHash b0 b1 b2)
  | _ => none

/-- matchlen of R307 on the bytes from q and from p, at most `n`. -/
def matchLen : Nat → List Byte → List Byte → Nat
  | n + 1, a :: as, b :: bs => if a = b then matchLen n as bs + 1 else 0
  | _, _, _ => 0

/-- One item of the token stream (R301): its bytes, whether it is a match, and whether making it read a poisoned byte (R310). -/
structure WhiskItem where
  isMatch : Bool
  bytes   : List Byte
  bad     : Bool
  deriving DecidableEq, Repr

/-- The shortest token of a match (Tables 12-1 and 12-2, R308). -/
def matchToken (d len : Nat) : List Byte :=
  if len ≤ 5 then leBytes 2 ((d - 1) + 16384 * (len - 3))
  else leBytes 2 ((d - 1) + 16384 * 3) ++ [BitVec.ofNat 8 (len - 6)]

/-- The table of inserted positions, newest first, each with its hash: walking the entries of one hash walks the
chain of R306 and R307 from the nearest candidate on. -/
abbrev HashTable := List (Nat × Nat)

/-- The candidates of position `p`: at most four, nearest first, none farther than 16,384 (R307). -/
def candidates (t : HashTable) (h p : Nat) : List Nat :=
  (((t.filter (fun e => e.1 == h)).map (·.2)).take 4).takeWhile (fun q => p - q ≤ 16384)

/-- The longest match among the candidates, the nearer one at a tie, as (length, offset) (R307). -/
def bestMatch (rec : List Byte) (p : Nat) (qs : List Nat) : Nat × Nat :=
  qs.foldl (fun best q =>
    let l := matchLen 261 (rec.drop q) (rec.drop p)
    if l > best.1 then (l, p - q) else best) (0, 0)

/-- Whether trying candidate `q` at `p` reads a poisoned byte: the equal bytes and the first unequal pair (R310). -/
def candidateBad (bad : Nat → Bool) (rec : List Byte) (p q : Nat) : Bool :=
  let l := matchLen 261 (rec.drop q) (rec.drop p)
  let n := if l < 261 ∧ p + l < rec.length then l + 1 else l
  spanBad bad q n || spanBad bad p n

/-- Inserts the `n` positions from `p` on that have a hash (R306). -/
def insertHashes (rec : List Byte) : Nat → Nat → HashTable → HashTable
  | 0, _, t => t
  | n + 1, p, t =>
    insertHashes rec n (p + 1) (match hashAt rec p with
      | some h => (h, p) :: t
      | none => t)

/-- The items the encoder emits from position `p` on (R307). -/
def whiskItems (bad : Nat → Bool) (rec : List Byte) : Nat → Nat → HashTable → List WhiskItem
  | 0, _, _ => []
  | fuel + 1, p, t =>
    match rec.drop p with
    | [] => []
    | b :: _ =>
      let qs := match hashAt rec p with
        | some h => candidates t h p
        | none => []
      let hashBad := (hashAt rec p).isSome && spanBad bad p 3
      let cmpBad := qs.any (candidateBad bad rec p)
      let (len, d) := bestMatch rec p qs
      if len ≥ 3 then
        ⟨true, matchToken d len, hashBad || cmpBad⟩ :: whiskItems bad rec fuel (p + len) (insertHashes rec len p t)
      else
        ⟨false, [b], hashBad || cmpBad || bad p⟩ :: whiskItems bad rec fuel (p + 1) (insertHashes rec 1 p t)

/-- The control byte of a group (R301). -/
def controlByte : List WhiskItem → Nat → Byte
  | [], _ => 0#8
  | i :: is, j => (if i.isMatch then 1#8 <<< j else 0#8) ||| controlByte is (j + 1)

/-- The groups of a stream (R301, R308). -/
def whiskGroups : Nat → List WhiskItem → List (List WhiskItem)
  | 0, _ => []
  | _, [] => []
  | fuel + 1, is => is.take 8 :: whiskGroups fuel (is.drop 8)

/-- The bytes of one group. -/
def groupBytes (g : List WhiskItem) : List Byte := controlByte g 0 :: g.flatMap (·.bytes)

/-- The stream of a record: its body (R301–R308). -/
def whiskBody (rec : List Byte) : List Byte :=
  let items := whiskItems (fun _ => false) rec rec.length 0 []
  (whiskGroups items.length items).flatMap groupBytes

/-- The offset of the first byte of the body that is derived from a poisoned byte: the control byte of the first group
with such an item (R310). -/
def bodyPoisonFrom : List (List WhiskItem) → Nat → Option Nat
  | [], _ => none
  | g :: gs, o => if g.any (·.bad) then some o else bodyPoisonFrom gs (o + (groupBytes g).length)

/-- A record in its stored form (R299, R300, R310). -/
structure Stored where
  raw        : Bool
  bytes      : List Byte          -- body and trailer
  poisonFrom : Option Nat         -- first stored byte that is poisoned; its word and all later ones are
  deriving DecidableEq, Repr

/-- The stored form of a record whose bytes `bad` come from poisoned words; `compress` when the deck's setting and the ticket allow it. -/
def whiskStore (compress : Bool) (bad : Nat → Bool) (rec : List Byte) : Stored :=
  let trailer := leBytes 4 (crc32 rec).toNat
  let items := whiskItems bad rec rec.length 0 []
  let groups := whiskGroups items.length items
  let body := groups.flatMap groupBytes
  if compress ∧ body.length < rec.length then
    ⟨false, body ++ trailer, bodyPoisonFrom groups 0⟩
  else
    ⟨true, rec ++ trailer, (List.range rec.length).find? bad⟩

/-! ### The decoder -/

/-- How a decoding run ends: all N bytes produced, a malformation of Table 12-3, or a poisoned word (R305, R311). -/
inductive WhiskEnd where
  | complete
  | malformed (kind : Fin 6)
  | poison
  deriving DecidableEq, Repr

/-- Appends `len` copies from `d` back to an output held newest byte first (R302). -/
def copyMatch (d : Nat) : Nat → List Byte → List Byte
  | 0, out => out
  | n + 1, out => copyMatch d n ((out[d - 1]?).getD 0#8 :: out)

/-- The decoding procedure of R304 over a body whose bytes `bad` lie in poisoned words; `ctl` is the present control byte and
item number; `out` is held newest byte first. -/
def whiskRun (bad : Nat → Bool) (n : Nat) :
    Nat → List Byte → Nat → Option (Byte × Nat) → Nat → List Byte → List Byte × WhiskEnd
  | 0, _, _, _, _, out => (out, .malformed 1)
  | fuel + 1, body, i, none, o, out =>
    if o ≥ n then (out, if body.isEmpty then .complete else .malformed 2)
    else match body with
      | [] => (out, .malformed 1)
      | f :: rest => if bad i then (out, .poison) else whiskRun bad n fuel rest (i + 1) (some (f, 0)) o out
  | fuel + 1, body, i, some (f, j), o, out =>
    if j ≥ 8 ∨ o ≥ n then
      if o ≥ n ∧ f >>> j ≠ 0#8 then (out, .malformed 3) else whiskRun bad n fuel body i none o out
    else if f.getLsbD j = false then
      match body with
      | [] => (out, .malformed 1)
      | b :: rest =>
        if bad i then (out, .poison) else whiskRun bad n fuel rest (i + 1) (some (f, j + 1)) (o + 1) (b :: out)
    else
      match body with
      | b0 :: b1 :: rest =>
        let t := b0.toNat + 256 * b1.toNat
        let d := t % 16384 + 1
        if spanBad bad i 2 then (out, .poison)
        else if t / 16384 = 3 then
          match rest with
          | [] => (out, .malformed 1)
          | b2 :: rest' =>
            let len := b2.toNat + 6
            if bad (i + 2) then (out, .poison)
            else if d > o then (out, .malformed 4)
            else if len > n - o then (out, .malformed 5)
            else whiskRun bad n fuel rest' (i + 3) (some (f, j + 1)) (o + len) (copyMatch d len out)
        else
          let len := t / 16384 + 3
          if d > o then (out, .malformed 4)
          else if len > n - o then (out, .malformed 5)
          else whiskRun bad n fuel rest (i + 2) (some (f, j + 1)) (o + len) (copyMatch d len out)
      | _ => (out, .malformed 1)

/-- How an extracted record leaves the decompress engine (R305, R309, R311). -/
inductive DecompEnd where
  | good | crcFail | malformed (kind : Fin 6) | poison
  deriving DecidableEq, Repr

/-- A record out of the decompress engine, as far as its stored form is here: its N bytes, how many of them stand, its ending, and the
first output byte from whose word on the output words are poisoned. -/
structure Expanded where
  bytes      : List Byte
  made       : Nat
  ending     : DecompEnd
  poisonFrom : Option Nat
  deriving DecidableEq, Repr

/-- Some of the first `n` output bytes lie in a poisoned output word (R311). -/
def Expanded.poisonBefore (x : Expanded) (n : Nat) : Bool := match x.poisonFrom with
  | some q => decide (wordStart q < n)
  | none => false

/-- `bs` followed by 0x00 up to `n` bytes (R305, R311). -/
def zeroFill (n : Nat) (bs : List Byte) : List Byte := (bs ++ List.replicate (n - bs.length) 0#8).take n

/-- Expands or copies the stored form of a record of `n` bytes, of which `stored` is here, the whole of it or its beginning; `marked` when
a DIT segment of it is marked poisoned, `bad` the bytes that lie in poisoned words (R304, R305, R309, R311, R212). Of a beginning the
last four bytes may be the trailer: they wait. -/
def whiskExpand (raw marked whole : Bool) (bad : Nat → Bool) (n : Nat) (stored : List Byte) : Expanded :=
  let c := stored.length - 4
  let body := stored.take c
  let last : Expanded → Expanded := fun x =>
    if ¬ whole then x
    else if spanBad bad c 4 then { x with ending := .poison, poisonFrom := some (n - 1) }
    else if marked ∨ (crc32 x.bytes).toNat = leNat (stored.drop c) then x
    else { x with ending := .crcFail }
  if raw then
    let out := zeroFill n body
    match (List.range (min n c)).find? bad with
    | some o => { bytes := out, made := min n c, ending := .poison, poisonFrom := some o }
    | none => last { bytes := out, made := min n c, ending := .good, poisonFrom := none }
  else
    let (rev, e) := whiskRun bad n (2 * c + 2 * n + 2) body 0 none 0 []
    let made := rev.reverse
    let out := zeroFill n made
    match e with
    | .malformed k =>
      if k = 1 ∧ ¬ whole then { bytes := out, made := made.length, ending := .good, poisonFrom := none }
      else { bytes := out, made := n, ending := .malformed k, poisonFrom := if marked then some (min made.length (n - 1)) else none }
    | .poison => { bytes := out, made := n, ending := .poison, poisonFrom := some (min made.length (n - 1)) }
    | .complete => last { bytes := out, made := n, ending := .good, poisonFrom := none }

end Sys2Proof.Machine
end

