-- ==== Sys2Proof/Machine/State.lean ====
section
/-! DEFINITION. The state of the SZ440 as plain data: every register, queue, buffer, counter, mode and pin level the spec names,
beside the queue of waiting commands; its faults and refusals; and the state after reset. -/

namespace Sys2Proof.Machine

/-! ### Faults and refusals -/

/-- The faults of a step. The spec stops the chip nowhere with an error that is not itself an effect on its state (an error flag, a
log entry, a refusal by completion), and every storage word 0 to 262,143 exists (R267): no meaning faults. -/
inductive Fault where
  /-- Raised by no meaning; `Host.Outcome` needs a fault type with a name. Safe. -/
  | impossible
  deriving DecidableEq, Repr

/-- The refusals of a step. -/
inductive Refusal where
  /-- Raised by `exec` for a row of the opcode table that has no meaning yet. Safe: the machine stops. -/
  | notModelled (mnemonic : String)
  deriving DecidableEq, Repr

/-! ### Completion status, opcodes, commands (05, 07, 08) -/

/-- Completion class in [11:8] and detail in [7:0] of a status field (R130). -/
abbrev Stat := BitVec 12

/-- The host opcodes (Tables 7-1 and 8-1). -/
inductive Op where
  | ctxOpen | ctxClose | ctxReset | eventsFetch | statusPeek | queueConfig | quotaQuery | timeRead
  | deckLock | deckUnlock | deckAdopt | load | unload | home | deckStop | deckStatus
  | loopOpen | loopClose | loopWrite | loopRead | autotune | autotuneResult | tripClear | speedPolicy
  | writeRecord | writeData | writeFilemark | flush | readRecord | readMore | locate | space | rewind
  | positionRead | eraseFromHere | formatTape | verify | compressionSet | profileLoad
  deriving DecidableEq, Repr

/-- A command as admitted: opcode, header fields and payload (R119, R127). -/
structure Cmd where
  op      : Op
  ctx     : Ctx
  tag     : W16
  rcrc    : Bool
  port    : Port
  payload : List Byte
  deriving DecidableEq, Repr

/-! ### Timebase (02: R46–R54, R64) -/

/-- TB_STATUS.ref_state (R64). -/
inductive RefState where
  | absent | acquiring | locked | freeRun
  deriving DecidableEq, Repr

/-- One set of delay lines: the central pair or a deck's lines (R49, R54, R116; TB_CAL_Dn of R64). -/
structure Lines where
  elements   : BitVec 13          -- N of the lines in service
  next       : Option (BitVec 13) -- N of the shadow that goes into service at the next coarse tick (R49)
  valid      : Bool
  shadowBusy : Bool
  again      : Bool               -- a voltage step asks for a calibration after the running one (R49)
  calCount   : W16
  deriving DecidableEq, Repr

/-- The Hourglass counter, its health monitor and the TB_ registers (R47–R54, R64). -/
structure Timebase where
  time      : W64          -- the coarse count: Hourglass time in pinches at the last coarse tick
  fine      : BitVec 11          -- pinches of the present instant beyond that tick, as the delay lines resolve them (R41, R50)
  running   : Bool               -- the counter has been started (R18, R475)
  trimAcc   : Nat                -- fractional accumulator of TB_TRIM, in 10⁻⁸ pinch (R48)
  timeLatch : W32          -- TB_TIME_HI (R51)
  refState  : RefState
  ref20     : Bool
  wasFree   : Bool               -- FREE_RUN has been left and LOCKED is not yet reached (R146)
  lossCount : BitVec 8
  lossTime  : W64
  trim      : W16
  trimsRead : Bool               -- the fuse trims have been read (R46)
  central   : Lines
  decks     : Vector Lines 4
  deriving DecidableEq, Repr

/-! ### Kettle (02: R34, R55–R63) -/


/-- A raise declaration that awaits confirmation, with the host command that made it (R60). -/
structure Raise where
  decl : Declaration
  cmd  : Option Cmd
  deriving DecidableEq, Repr

/-- Kettle's registers and its control procedure's variables (R55–R63). -/
structure Kettle where
  modeReq    : BitVec 2
  hold       : Bool
  vminCode   : BitVec 7
  vmaxCode   : BitVec 7
  vcore      : BitVec 7
  settling   : Bool
  atCeiling  : Bool
  slack      : W16
  slackSite  : BitVec 8
  decks      : Vector DeckLoad 4
  ports      : Vector (BitVec 6) 5
  recal      : Bool              -- the recalibration after a step is running (R58)
  raising    : List Raise        -- raise declarations awaiting confirmation, oldest first (R60)
  calm       : Nat
  due        : Option Bool       -- a procedural step that waits for a calibration to finish, true upward (R58, R65)
  raisedAt   : Option W64        -- Hourglass time of the last emergency raise (R59)
  overruns   : W16
  overSite   : BitVec 8
  raises     : W16
  siteTimes  : List (BitVec 24)  -- last measured slot times of the sites, in ps (R57)
  deriving DecidableEq, Repr

/-! ### Replies, packets and events (03, 05) -/

/-- Where a presented reply comes from (R79). -/
inductive TxSource where
  | wire | staged | idle
  deriving DecidableEq, Repr

/-- A reply before its attention nibble is written (R124, R126, R133). -/
structure Reply where
  type    : Byte
  ctx     : Byte
  tag     : W16
  stat    : Stat
  payload : List Byte
  trailer : Bool
  time    : W64            -- when it entered its queue (R147)
  fetch   : Option Nat     -- an EVENTS_FETCH completion: records wanted, taken when it is staged (R143)
  deriving DecidableEq, Repr

/-- A reply that is being presented: its bytes are fixed from its first transfer (R81, R133). -/
structure TxReply where
  source : TxSource
  bytes  : List Byte
  done   : Nat                   -- bytes already taken by the host
  deriving DecidableEq, Repr

/-- What a port of either kind holds for its replies (R79, R80, R84, R100). -/
structure ReplyOut where
  wire    : List Reply           -- waiting wire replies and Sieve refusals, at most 4
  staged  : List Reply           -- the reply buffer, at most 2
  cur     : Option TxReply       -- the reply partly read
  last    : List Byte            -- the bytes the host took in the latest read (pins; the model's own)
  deriving DecidableEq, Repr

/-- The PCHK_ registers of one packet port (R129). -/
structure Sieve where
  admitted : W32
  refuse : W32
  hdrcrc : W32
  paycrc : W32
  init : W32
  busy : W32
  last : W32
  noslot : W32
  deriving DecidableEq, Repr

/-- The bus of an Ehran port after one edge of a cycle: the levels of En_STB#, En_ACK#, En_FRM and En_D (Tables 3-2 and 3-3). -/
structure BusStep where
  stb : Bool
  ack : Bool
  frm : Bool
  d   : W16
  deriving DecidableEq, Repr

/-- One Ehran port: pins as the host drives them, receive side, active setting and EHR_ registers (R66–R91). En_STB# and En_ACK# are
high between commands: a command holds whole cycles. -/
structure EhranPort where
  sel        : Bool              -- En_SEL# is low now
  dirPin     : Bool              -- En_DIR now
  frm        : Bool              -- the level at which the host last drove En_FRM
  dir        : Bool              -- the direction that counts: true from device to host
  armed      : Bool              -- En_FRM has been seen low since the last packet (R74)
  wave       : List BusStep      -- the edges of the cycles last run (pins; the model's own)
  enabled    : Bool
  width16    : Bool
  cfgPending : Bool
  declRefused : Bool
  rxOpen     : Bool
  rx         : List Byte         -- bytes of the open host packet, within its expected length
  rxLong     : Bool              -- a transfer has arrived beyond the expected length
  rxHeld     : Nat               -- whole host packets that still fill places of the receive buffer (R85)
  out        : ReplyOut
  xferIn : W32
  xferOut : W32
  pktIn : W32
  pktOut : W32
  idleOut : W32
  runt : W32
  long : W32
  stray : W32
  early : W32
  dirGlitch : W32
  selGlitch : W32
  pace : W32
  wireLost : W32
  lastViol : BitVec 4
  deriving DecidableEq, Repr

/-- Port S: active setting, receive and reply side, SPI_ registers (R94–R105). -/
structure SpiPort where
  enabled    : Bool
  quad       : Bool
  cfgPending : Bool
  declRefused : Bool
  rxHeld     : Nat               -- whole host packets that still fill places of the receive buffer (R100)
  cs         : Option Bool       -- S_CS# is low, with rx_room as taken at its fall (R102)
  door       : Byte              -- the door byte last shifted (pins; the model's own)
  out        : ReplyOut
  xactIn : W32
  xactOut : W32
  idleOut : W32
  cnt     : Vector W32 7         -- kinds 1 to 7 (Table 4-4)
  wireLost : W32
  lastViol : BitVec 4
  deriving DecidableEq, Repr

/-- The receive buffer has room for one packet (R96, R100). -/
def SpiPort.room (v : SpiPort) : Bool := decide (v.rxHeld < 2)

/-- The I2C management port (R106–R113). -/
structure I2cPort where
  ready    : Bool                -- acknowledges its address (R107)
  ptr      : W16
  pecEn    : Bool                -- I2C_CFG.pec_en as written
  pecOn    : Bool                -- I2C_STATUS.pec_active
  pecErr   : Bool
  addr     : BitVec 7
  acked    : Bool                -- the last byte of the latest transaction was acknowledged (pins; the model's own)
  out      : List Byte           -- bytes of the latest read (pins; the model's own)
  xact : W32
  pec : W32
  form : W32
  timeout : W32
  overread : W32
  deriving DecidableEq, Repr

/-- The test access port (R114–R117). -/
structure Jtag where
  ready     : Bool
  ir        : BitVec 5           -- the instruction register, as of Update-IR (Table 4-7)
  irOut     : BitVec 5           -- what Capture-IR captured last (the bits TDO shifts out)
  boundary  : List Bool          -- the pattern held in the boundary register
  extest    : Bool               -- the boundary register holds the pads (R115)
  isoOn     : Bool
  isoMacro  : BitVec 5
  isoRefused : Bool
  dr        : BitVec 80          -- the last captured data register (the bits TDO shifts out)
  deriving DecidableEq, Repr

/-- An event record (R138). -/
structure EventRec where
  code   : Byte
  count  : Byte
  object : W16
  arg    : W32
  time   : W64
  deriving DecidableEq, Repr

/-- An EVT queue with its loss record (R142). -/
structure EvtQueue where
  recs      : List EventRec
  depth     : Nat
  lost      : W16
  lostClass : BitVec 3           -- highest class lost since the last fetch
  deriving DecidableEq, Repr

/-! ### Contexts and their queues (06) -/

/-- Context states (Table 6-1). -/
inductive CtxState where
  | closed | open | resetting | closing
  deriving DecidableEq, Repr

/-- A command the Cook has started and not completed (R176, R207). -/
structure Executing where
  op   : Op
  tag  : W16
  rcrc : Bool
  deck : Option Deck
  deriving DecidableEq, Repr

/-- A record handed to a deck: its bytes and what it needs until it is durable (R204–R209). -/
structure Rec where
  object   : W64
  length   : Nat
  parts    : List Nat            -- bytes of each WRITE_DATA accepted: each begins in cells of its own
  raw      : Bool                -- stored without compression
  durable  : Bool                -- the final WRITE_DATA waits for durability
  tag      : W16           -- tag of the command that completed the record
  rcrc     : Bool
  poisoned : Bool
  silent   : Bool                -- its last WRITE_DATA ended with no reply at a Cook restart (R498)
  chain    : List Nat            -- the cells that hold its bytes
  deriving DecidableEq, Repr

/-- An open write ticket (R204). -/
structure Ticket where
  deck   : Deck
  number : W16
  record : Rec
  reserved : Nat                 -- cells reserved for Whisk's output (R490)
  deriving DecidableEq, Repr

/-- One context (R151–R162). -/
structure Context where
  state    : CtxState
  port     : Port                -- the binding; meaningless while CLOSED
  cmd      : List Cmd
  cmdAt    : List W64             -- Hourglass times at which admission placed the commands of `cmd` (R257)
  cmdDepth : Nat
  heldReset : Option Cmd         -- a CTX_RESET held beside the queue (R160)
  rpl      : List Reply
  rplDepth : Nat
  evt      : EvtQueue
  wdata    : Vector (List Rec) 4
  wDepth   : Vector Nat 4
  rdata    : Vector (List Reply) 4
  rDepth   : Vector Nat 4
  spare    : Option (Fin 11)     -- the queue the spare extends (R162)
  spareDepth : Nat
  executing : List Executing
  ticket   : Option Ticket
  waitingOpen : List Cmd         -- CTX_OPENs taken while CLOSING, oldest first (R155)
  cellQuota  : BitVec 15         -- as last adopted from Pass Q
  blockQuota : BitVec 7
  storage    : List (Nat × Nat)    -- head cell of the storage of each queue, by its offset 0 to 11 (R158, R159)
  deriving DecidableEq, Repr

/-! ### Deck locks (06: R163–R171) -/

/-- Lock states (Table 6-6). -/
inductive LockState where
  | free
  | held (c : Ctx)
  | draining (c : Ctx)
  | window (c : Ctx)
  deriving DecidableEq, Repr

/-- What DECK_ADOPT reports of the drain (R170, Table 7-6). -/
structure DrainReport where
  byLease     : Bool
  marker      : Bool
  noMove      : Bool
  discarded   : W16
  written     : W16
  waiting     : W16
  lastDurable : W32
  deriving DecidableEq, Repr

/-- One deck's lock with its settings and lease (R164, R167). -/
structure DeckLock where
  state   : LockState
  lease   : W16            -- ms; 0 = none
  keep    : Bool
  window  : Byte                 -- s
  leaseAt : W64            -- Hourglass time at which the running lease started
  warned  : Bool                 -- LEASE_WARNING posted in this run of the lease
  report  : DrainReport
  deriving DecidableEq, Repr

/-! ### Transport profile (08: R220, Tables 8-8 and 8-9) -/

/-- The fields of a transport profile. -/
structure Profile where
  linePitch : Nat
  capLines : Nat
  reelLines : Nat
  maxTracks : Nat
  maxWraps : Nat
  cellRateMax : Nat
  cellMin : Nat
  cellMax : Nat
  rwOffset : Nat
  speedMin : Nat
  speedMax : Nat
  accel : Nat
  wrapLength : Nat
  ewDistance : Nat
  wrapPitch : Nat
  homeSpeed : Nat
  tensionSet : Nat
  tensionTol : Nat
  currentLimit : List Nat
  loopPeriod : Nat
  backhitch : Nat
  tThread : Nat
  tTension : Nat
  tCalibrate : Nat
  tHome : Nat
  tUnload : Nat
  pwmPeriod : Nat
  deadTime : Nat
  minPulse : Nat
  deriving DecidableEq, Repr

/-- SPEED_POLICY's fields (R195). -/
structure SpeedPolicy where
  fixed   : Bool
  stallMs : Nat
  floor   : Nat
  ceiling : Nat
  fixedAt : Nat
  deriving DecidableEq, Repr


/-! ### Pass Q: the two generations (01: R26–R29; 03, 04, 09, 10, 11, 21) -/

/-- A retirement entry (R293): kind 0 empty, 1 cell, 2 block, 3 bank. -/
structure RetEntry where
  kind  : BitVec 2
  index : BitVec 14
  deriving DecidableEq, Repr

/-- Rank and hold of one Funnel site (FUNNEL_CFG_s and FUNNEL_WIN_s of R264). -/
structure SiteCfg where
  deadline  : Bool
  park      : Bool
  burst     : Byte
  aging     : W16
  threshold : BitVec 7
  window    : Byte
  quota     : Byte
  deriving DecidableEq, Repr

/-- A port's staged setting (EHR_CFG of R90, SPI_CFG of R105): enable, width (16-bit or quad) and declared rate. -/
structure PortCfg where
  enable   : Bool
  wide     : Bool
  declRate : BitVec 6
  deriving DecidableEq, Repr

/-- One generation of Pass Q (R27, R243, R262, R293, R86, R103, R506). -/
structure Generation where
  cellBanks  : BitVec 5
  cellQuota  : Vector (BitVec 15) 64
  blockQuota : Vector (BitVec 7) 64
  sites      : Vector SiteCfg 3
  ofsBank    : Vector W16 12
  ofsPort    : Vector W16 64
  ofsMove    : Vector W16 32
  ports      : Vector PortCfg 5
  eraseMacro : BitVec 5
  eraseOn    : Bool
  retire     : Vector RetEntry 64
  patchCfg   : W32                 -- COOK_PATCH_CFG: enable in [0], version in [31:16]
  patchCrc   : W32
  patchWords : List W32            -- the patch image, word 0 first; words beyond the list are 0
  hooks      : Vector W32 32       -- COOK_HOOK_0 to 31
  deriving DecidableEq, Repr

/-- Pass Q: the staged and the active generation and LADLE_QCOMMIT's reports (R27, R243). -/
structure PassQ where
  staged  : Generation
  active  : Generation
  gen     : Byte
  refused : Bool
  deriving DecidableEq, Repr

/-! ### Ladle (09) -/

/-- An allocated chain: its cells in chain order, head first, its named owner and its holders in hand order (R226, R230). Its
headers are what `cellHeader` computes (R228); more than one holder takes an entry of the sharing table (R239). -/
structure Chain where
  cells   : List Nat
  owner   : Nat
  holders : List Nat
  deriving DecidableEq, Repr

/-- A block's state in the side table (R231). -/
inductive BlockState where
  | outside | free | held | retired
  deriving DecidableEq, Repr

/-- A side-table entry (R231). -/
structure BlockEntry where
  state   : BlockState
  holders : List Nat               -- in hand order
  owner   : Nat
  deriving DecidableEq, Repr

/-- A drain-critical allocation waiting for a unit (R234). -/
structure DrainWait where
  requester : Nat
  owner     : Nat
  n         : Nat                  -- cells wanted; 0 for a block
  address   : Option Nat           -- the chain that an EXTEND names
  deriving DecidableEq, Repr

/-- Ladle: its pools, its stores and the LADLE_ registers (R224–R247). -/
structure Ladle where
  built      : Bool                -- the free lists have been built (R233)
  chains     : List Chain          -- allocated chains
  blocks     : Vector BlockEntry 64
  freeCells  : List Nat            -- the cell free list, head first
  freeBlocks : List Nat
  retired    : List Nat            -- cells that passed to owner 126 (R29)
  reserved   : Nat                 -- cells reserved for Whisk output (R490), on the free list until they are drawn
  cellBanks  : Nat                 -- banks now in the cell pool (LADLE_PART_STATUS)
  headBanks  : Nat                 -- banks that have been in the cell pool since the lists were built: their cells' first words hold headers
  leaving    : Option Nat          -- the bank that is leaving its pool (R242)
  waiting    : List DrainWait
  lowCells   : BitVec 15
  lowBlocks  : BitVec 7
  shareFull  : W16
  badptr : W32
  notHolder : W32
  pantry : W32
  sweep : W32
  deriving DecidableEq, Repr

/-! ### Funnel (10) -/

/-- The counters of one input (R263). -/
structure InputCounters where
  grants : W32
  lost   : W32
  waitR  : W32
  waitUs : W32
  deriving DecidableEq, Repr

/-- A pending request at a site (R251, R257, R258). -/
structure Request where
  input    : Nat
  blocks   : List Nat               -- the blocks of the input with a word waiting, by their place in its rotation (R249)
  raised   : W64                   -- Hourglass time at which it was raised
  deadline : W32                   -- d_eff, deadline units
  lostR    : Nat                   -- rounds lost since it was raised
  deriving DecidableEq, Repr

/-- One site instance: 0 to 15 are the F-BANK instances, 16 is F-PORT, 17 is F-MOVE (R248). -/
structure Site where
  requests : List Request
  owner    : Nat                   -- input of the active or last grant
  granted  : Bool
  inUse    : Bool                  -- the owner has started the present unit of its grant (R252)
  block    : Nat                   -- the block of the owner that the present unit serves, by its place in the rotation (R249)
  turns    : List (Nat × Nat)      -- the block that each input has served last (R249)
  units    : Nat                   -- units used in the active grant
  burst    : Nat                   -- burst_limit the grant began with (R262)
  parked   : Bool
  used     : Nat                   -- grants made in the present window (R255)
  counts   : List (Nat × Nat)      -- grants of each quota input in the window
  cfg      : SiteCfg               -- as last adopted (R262)
  ofs      : List W16              -- offsets as last adopted (R257, R262)
  frozen   : Bool
  deriving DecidableEq, Repr

/-- Funnel: the 18 site instances and the FUNNEL_ registers (R260–R265). -/
structure Funnel where
  sites   : Vector Site 18
  bankCnt : Vector InputCounters 12
  portCnt : Vector InputCounters 64
  moveCnt : Vector InputCounters 32
  cselIn  : BitVec 7
  cselSite : BitVec 2
  cselBank : BitVec 4
  snap    : InputCounters
  deriving DecidableEq, Repr

/-! ### Buffer SRAM, Colander, merge buffers and the Cook cache (11) -/

/-- The buffer memory, its error counters and Colander (R267–R296). -/
structure Sram where
  mem       : List Host.Cell       -- symbol i of word W at address 32·W + i, canonical form (memWf)
  isolated  : Option (Fin 19)      -- JTAG MACRO-ISOLATE (R117, R279)
  erased    : Option (Fin 19)      -- the erasure in force (R279)
  declared  : Option (Fin 19)      -- the management declaration that last took effect (R279)
  erasePending : Bool
  initDone  : Bool
  scrubbing : Bool
  periodMs  : W16
  scrubEn   : Bool
  pos       : BitVec 18
  passes : W32
  late : W32
  corr : W32
  uncorr : W32
  addr : W32
  poison : W32
  fixed : W32
  lastErr   : W32
  threshold : W16
  macros    : Vector W32 19
  banks     : Vector W32 16
  passHits  : Vector Nat 19        -- corrections located in each macro in this pass (R292)
  suspected : List Nat             -- macros that MACRO_SUSPECT has named in this pass (R292)
  passLate  : Bool                 -- the running pass has outrun its period (R290)
  deriving DecidableEq, Repr

/-- A merge-buffer entry (R282): word address, 16 data bytes and valid mask. -/
structure MergeEntry where
  word : BitVec 18
  data : List Byte
  mask : W16
  ctx  : Option Ctx                -- the context the bytes belong to (R503)
  deriving DecidableEq, Repr

/-- One cached word with its poison bit (R286). -/
structure CacheWord where
  data   : List Byte
  poison : Bool
  deriving DecidableEq, Repr

/-- A Cook cache line: the line number W >> 1, its two words, dirty bits (R286). -/
structure CacheLine where
  line  : BitVec 17
  lo    : CacheWord
  hi    : CacheWord
  dirty : Bool
  deriving DecidableEq, Repr

/-- The Cook line cache (each set most recently used first) and its write-back buffer (R286–R288). -/
structure Cache where
  sets : Vector (List CacheLine) 32
  wb   : List CacheLine
  deriving DecidableEq, Repr

/-! ### Tape, Roller and Strainer of one deck (13, 14) -/

/-- What LOAD found on the tape (Table 7-6, R343). -/
inductive Media where
  | blank | krf | unreadable
  deriving DecidableEq, Repr

/-- A record in its stored form: in the cells Whisk wrote it to, or, once Roller has copied it, as the bytes of the dataset buffers, each
with whether its word is poisoned (R299, R310, R363, R276). -/
structure StoredRec where
  ctx     : Ctx
  object  : W64
  length  : Nat                   -- record bytes, N
  raw     : Bool
  size    : Nat                   -- stored bytes: body and trailer
  marked  : Bool                  -- Whisk read a poisoned word of it (R310)
  durable : Bool
  tag     : W16
  rcrc    : Bool
  chain   : List Nat              -- its cells
  bytes   : List (Byte × Bool)    -- once copied
  deriving DecidableEq, Repr

/-- A record or filemarks handed to staging and not yet in a dataset (pipeline queue j = 0, R363). -/
inductive Staged where
  | stored (r : StoredRec)
  | marks (ctx : Ctx) (object : W64) (count : Nat) (durable : Bool) (tag : W16) (rcrc : Bool)
  deriving DecidableEq, Repr

/-- A read order of the Cook to Strainer (pipeline queue j = 4, R363): one dataset, or every dataset that passes, for a LOCATE by object. -/
inductive ReadOrder where
  | read (n : W64)
  | ahead (n : W64)               -- the one after the dataset in hand, for the objects that it voids (R325)
  | scan
  deriving DecidableEq, Repr

/-- A segment of a record that Strainer has extracted for Whisk (pipeline queue j = 5, R322, R363). -/
structure Extract where
  object : W64
  raw    : Bool
  recLen : Nat
  first  : Bool
  last   : Bool
  marked : Bool                   -- its DIT entry carries the poisoned flag
  ds     : W64                    -- its dataset
  bytes  : List Byte
  deriving DecidableEq, Repr

/-- The record being read, as Whisk decompress holds it: its stored form as far as its segments have come (R211, R304). -/
structure ReadRec where
  object : W64
  length : Nat                    -- N
  raw    : Bool
  marked : Bool
  bytes  : List Byte
  whole  : Bool                   -- its last segment is here
  ds     : W64                    -- the dataset of the latest segment
  deriving DecidableEq, Repr

/-- What a reader knows of the dataset after the one in hand (R325, R326). -/
inductive Ahead where
  | unknown
  | lost                          -- it was read and did not decode
  | known (ds : Dataset)
  deriving DecidableEq, Repr

/-- A dataset buffer of Roller with the state of its pieces (R364–R369). -/
structure DsBuf where
  ds       : Dataset
  started  : Bool                 -- its preamble has begun
  p0       : Int                  -- position of the preamble (R350)
  bad      : List (Nat × Nat)     -- pieces with a BAD judgement and not settled, in the order of the latest one
  waiting  : List ((Nat × Nat) × Nat)  -- copies not yet judged, in the order written: piece, and 0 for the body's or its copy number
  settled  : List (Nat × Nat)     -- pieces settled, latest first
  copies   : List (List (Nat × Nat))   -- the trailer places written: the pieces of each, track 0 first (R367)
  trailer  : Nat                  -- trailer pieces written
  inTrailer : Bool
  skips    : Nat
  rewrites : Nat
  everBad  : List (Nat × Nat)     -- pieces judged BAD at least once (R368)
  blocks   : List Nat             -- the Ladle blocks of the buffer
  deriving DecidableEq, Repr

/-- A read track of Strainer (R361, R362). -/
structure Track where
  locked : Bool
  misses : Nat
  skew   : W16
  dropped : Bool
  deriving DecidableEq, Repr

/-- Roller's registers and state (R350–R370, R376). -/
structure Roller where
  gate     : Bool
  skipping : Bool
  eodFailed : Bool
  open_    : Option Dataset       -- the dataset being assembled
  placed   : Nat                  -- stored bytes of the head of staging already in a dataset
  next     : W64                  -- number the next dataset takes
  openBlocks : List Nat
  buffers  : List DsBuf           -- closed datasets, oldest first: waiting, being written, unverified
  cellLen  : Nat                  -- ROL_CELL
  boundary : Nat                  -- next cell boundary m
  lastCell : W64                  -- instant of the last boundary (R355)
  spoiled  : List (Nat × Nat)     -- pieces of the body, or of the trailer place, spoiled by late frames (R356)
  stopAt   : Option Nat           -- the cell boundary that ends the piece in progress, when writing stops there (R357)
  tail     : Option DsBuf         -- the dataset last written, of which copies may still go out or pass the read head (R365, R367)
  nextP0   : Option Int           -- where the next dataset's preamble starts, when a rule fixes it (R316, R367, R369, R387, R341)
  eraseFrom : Option Int          -- where the erase stretch of an underrun began, E (R387)
  wl       : W16                  -- cells of the last burst (pins)
  posLatch : W32                  -- ROL_POS_HI
  posTime  : W64                  -- the Hourglass time at which the latched position holds (R25; the model's own)
  datasets : W32
  rewrites : W32
  precaution : W32
  skips : W32
  failed : W32
  overrun : W32
  deriving DecidableEq, Repr

/-- Strainer's registers and state (R360–R376). -/
structure Strainer where
  aligned  : Bool
  pass     : BitVec 3
  rows     : Rows                 -- rows accepted in the present dataset read (R374)
  reading  : Bool
  stalled  : Bool                 -- no dataset buffer was free at the end of a dataset (R383)
  dataset  : W32
  tracks   : Vector Track 16
  skewSel  : BitVec 4
  blocks   : List Nat             -- the Ladle blocks of the second buffer that it holds while it reads (R364)
  judged : W32
  bad : W32
  notFound : W32
  codeViol : W32
  c1 : W32
  c2rows : W32
  c3sds : W32
  reread : W32
  unrecovered : W32
  alignLoss : W32
  deriving DecidableEq, Repr

/-- The speed matcher of one deck (15). -/
structure Matcher where
  policy   : SpeedPolicy
  next     : Option SpeedPolicy   -- takes effect at the next dataset boundary (R195)
  target   : Nat                  -- DECK_STATUS.speed, 0.01 % of speed_max
  runOut   : Option Nat           -- the target held before a run-out (R386)
  lastEvent : Option Nat          -- last value posted in SPEED_CHANGED since LOAD (R381)
  lo       : Nat
  hi       : Nat
  stallOn  : Bool                 -- the stall timer runs (R385)
  underrun : Bool                 -- stopped, or stopping, after an underrun (R387)
  restAt   : Option W64           -- first acceptance since rest (R389)
  fills    : List Nat             -- pipeline queue 6: boundary entries, each the staging fill (R380)
  stored   : Nat                  -- stored bytes entered since then
  deriving DecidableEq, Repr

/-- The tape as the deck knows it: label in force, ends of data and the present position (08, 13). -/
structure TapeInfo where
  media     : Option Media        -- none: no tape loaded
  label     : Option Label        -- the label in force
  lflag     : Bool                -- lflags[0] of the LOAD reply
  eodDs     : Vector W64 4        -- per partition: number of the dataset at EOD
  eodObj    : Vector W64 4
  eodWrap   : Vector (BitVec 6) 4
  gen       : Vector W32 4
  incomplete : Vector Bool 4      -- an incomplete dataset stands beyond EOD (R345)
  partition : BitVec 2
  wrap      : BitVec 6
  dataset   : W64                 -- dataset holding the next object; at EOD the next to be written (Table 8-7)
  object    : W64                 -- next object number
  offset    : Nat                 -- bytes delivered of the present record
  mid       : Bool                -- mid-record (R198)
  ewPosted  : Bool
  beyondEw  : Bool
  marker    : Bool                -- the end-of-data marker is pending (R202)
  tickets   : W16                 -- last ticket number (R204)
  durDs     : Option W64          -- last durable dataset
  durObj    : W64                 -- number of the object after the last durable one
  ds        : Option Dataset      -- the dataset in Strainer's hand
  ahead     : Ahead               -- the one after it
  declared  : Option Bool         -- the load declared since LOAD or the last lock's end: a write's (true) or a read's (R203, R489)
  walk      : Option W64          -- dataset wanted for the present object; none while it is the position's
  current   : Option ReadRec      -- the record being read
  deriving DecidableEq, Repr

/-! ### Simmer (16) -/

/-- Slot states (Table 16-3). -/
inductive SlotState where
  | closed | open | tuning
  deriving DecidableEq, Repr

/-- at_state of Table 7-8. -/
inductive AtState where
  | none | running | done | failed | applied
  deriving DecidableEq, Repr

/-- The auto-tune of a slot: its request, its measurement and its result (R409–R411). -/
structure Tune where
  state    : AtState
  cycles   : Nat                  -- c
  swing    : Int
  band     : Int
  wasOpen  : Bool                 -- the state to return to
  ref0     : Int                  -- r before the tune (R410)
  relay    : Bool
  samples  : Nat                  -- samples since the tune began
  rises    : Nat                  -- changes from LOW to HIGH seen
  begin_   : Nat                  -- n_begin
  eMax     : Int
  eMin     : Int
  measured : Nat                  -- relay cycles completed
  amplitude : Nat
  period   : Nat
  propH    : Nat
  propKi   : Nat
  propTrim : Nat
  deriving DecidableEq, Repr

/-- One loop slot: coefficients, state and values (R400–R412, Table 16-4). -/
structure Slot where
  enable  : Bool
  role    : Nat
  axis    : Axis
  src     : Nat
  gain    : Int                   -- Q16.16
  ki      : Nat
  trim    : Nat
  h       : Nat
  bias    : Int
  swing   : Nat
  umin    : Int
  umax    : Int
  feLimit : Nat
  feSamples : Nat
  ramp    : Nat
  target  : Int
  integ   : Int                   -- I
  ref     : Int                   -- r
  x       : Int
  e       : Int
  t       : Int
  z       : Int
  state   : SlotState
  high    : Bool
  frozen  : Bool
  clipped : Bool
  winner  : Bool
  feFault : Bool
  u       : Int
  feCount : Nat
  overruns : Nat
  sample  : W32
  fresh   : Bool                  -- frozen at its next sample: after the start of the loops or a LOOP_CLOSE (R401)
  reseed  : Bool                  -- r = x at its next sample (R404)
  tune    : Tune
  deriving DecidableEq, Repr

/-- One output group (R402, R407, Table 16-4). -/
structure Group where
  out    : Int                    -- the output applied
  next   : Int                    -- the output to apply at the next instant (R395)
  winner : BitVec 4
  dir    : Bool
  safe   : Bool
  driven : Bool
  safeU  : Int
  deriving DecidableEq, Repr

/-- The loops of one deck (R394, Table 16-4). -/
structure Loops where
  running : Bool
  period  : BitVec 12
  start   : W64
  n       : Nat                   -- number of the next sample
  slots   : Vector Slot 12
  groups  : Vector Group 4
  overrun : W32
  deriving DecidableEq, Repr


/-! ### Notices and motion requests (01: R20, R21; 06: Table 6-3) -/

/-- A notice in a Cook work queue: an engine ended the work of a command; the Cook writes its completion (R21). -/
structure Notice where
  ctx     : Ctx
  tag     : W16
  rcrc    : Bool
  stat    : Stat
  payload : List Byte
  deriving DecidableEq, Repr

/-- An entry of a Cook work queue (R20, R21, R374, Table 6-3). -/
inductive CookWork where
  | ended (n : Notice)
  | endedMove (n : Option Notice)  -- the work of a deck operation has ended, and the tape is to stop; no notice for one with no reply
  | reread (pass : Nat)            -- Strainer asks for reread pass `pass`, or with 0 for the nominal offset
  deriving DecidableEq, Repr

/-- A request in a deck work queue (R20, Table 6-3). -/
inductive Motion where
  | speed (target : Nat)           -- a target of the speed matcher, µm/s
  | start                          -- the write starts
  | stop                           -- a controlled stop
  | pause                          -- the tape stops under a reading operation with no free buffer (R383)
  | move (speed : Nat)             -- the tape moves for a deck operation, µm/s
  | load (forUnload : Bool)        -- the load sequence
  | home
  | unload
  | offset (pass : Nat)            -- the positioner's offset of a reread pass (R374)
  deriving DecidableEq, Repr

/-! ### Motion I/O (17) -/

/-- Axis modes (Table 17-1). -/
inductive AxisMode where
  | off | brake | drive | tripped
  deriving DecidableEq, Repr

/-- What one leg does in the present PWM period (R418, R419): edges in pinches from the period start. -/
inductive LegPlan where
  | idle                                            -- both switches off
  | lowOn                                           -- L on, H off (BRAKE, or a suppressed period)
  | highOn                                          -- H on, L off (a held period)
  | pulse (lOff hOn hOff lOn : Int)
  deriving DecidableEq, Repr

/-- One axis of a deck (R416–R423). -/
structure AxisState where
  mode    : AxisMode
  nextMode : AxisMode              -- taken at the next PWM period start
  trip    : Bool                   -- TRIPPED latch
  tripIn  : Bool                   -- trip input low
  carryA  : Int
  carryB  : Int
  legA    : LegPlan
  legB    : LegPlan
  tripCnt : Byte
  deriving DecidableEq, Repr

/-- One quadrature encoder: CAP, SUP or TKU (R424–R427). -/
structure Encoder where
  a       : Bool
  b       : Bool
  count   : Int                    -- quarter-lines (for CAP: tape position = 1,024 × count + base)
  fwd     : Bool
  edges   : List W64               -- times of the last edges in the present direction, latest first, at most 5
  lastA   : W64                    -- time of the last edge on either line
  lastOnB : Bool                   -- the last edge was on line B (illegal transitions)
  illegal : List W64               -- times of recent illegal transitions (R425)
  indexAt : Option Int             -- CAP: count at the last index edge
  way     : Option Bool            -- direction of the first count since that edge (R427)
  mixed   : Bool                   -- counts in both directions since that edge
  deriving DecidableEq, Repr

/-- A limit input with its debounce window (R431). -/
structure Limit where
  raw    : Bool                    -- active (pin low)
  active : Bool                    -- debounced
  window : Option (Nat × W64)      -- transitions counted, time of the opening edge
  deriving DecidableEq, Repr

/-- Homing (R434–R436). -/
structure Homing where
  step    : Nat                    -- MIO_STATUS.home_step
  homed   : Bool
  offset  : Int                    -- MIO_HOME_OFS
  latch1  : Int
  latch2  : Int
  latch2At : W64
  glitches : Nat
  fromPos : Int                    -- position at which step 1 or 2 began
  deriving DecidableEq, Repr

/-- The motion inputs and outputs of one deck with the MIO_ registers. -/
structure MotionIo where
  axes    : Vector AxisState 4
  encs    : Vector Encoder 3
  posLo   : Limit
  posHi   : Limit
  cart    : Bool                   -- debounced
  door    : Bool                   -- debounced: closed
  tapemk  : Bool
  markAt  : Int                    -- tape position at the last marker edge
  anchor  : Bool                   -- the loops have started and the positioner has not been measured since (R404, R428)
  home    : Homing
  posRaw  : Int                    -- last raw position of chip 1
  sldo    : W64                    -- the bits that Dn_SLDO carried in the last frame, first-shifted bit in bit 63 (pins; R428)
  posHold : Option Int             -- the target kept while a limit window holds the positioner (R432)
  invalid : Nat                    -- consecutive instants with an invalid source (R430)
  badSrc  : Nat                    -- the lowest source not valid at the last instant (R514, code 0x34)
  suppress : W32
  held : W32
  encErr : W32
  indexErr : W32
  glitch : W32
  chatter : W32
  sensorInvalid : W32
  deriving DecidableEq, Repr

/-! ### Deck sequencing (18) -/

/-- Deck states (Table 18-1). -/
inductive DeckState where
  | dormant | empty | present | thread | tensionUp | homing | calibrate | scan | ready | streaming
  | stopping | faultStop | safe | unloading
  deriving DecidableEq, Repr

/-- A deck operation that runs (R178, R201), with what its completion needs. -/
structure DeckOp where
  op      : Op
  ctx     : Ctx
  tag     : W16
  rcrc    : Bool
  payload : List Byte
  flushing : Bool                  -- acting as FLUSH first (R202)
  moving  : Bool
  delivered : Nat                  -- READ_RECORD, READ_MORE: bytes delivered by this command
  rest    : Int                    -- SPACE: count still to space
  objects : Nat                    -- VERIFY: objects verified; SPACE: objects or marks passed
  c2 : Nat                         -- rows changed by C2
  c2Data : Nat                     -- of them in SD0 to SD7 (R375)
  c3 : Nat
  rereads : Nat
  poisoned : Nat
  silent : Bool                    -- its command ended with no reply at a Cook restart (R498, Table 19-4)
  deriving DecidableEq, Repr

/-- A write-side completion that waits for durability: FLUSH, a durable WRITE_DATA or WRITE_FILEMARK, DECK_STOP, or the
flush before a deck operation (R207, R210). -/
structure Waiter where
  op      : Op
  ctx     : Ctx
  tag     : W16
  rcrc    : Bool
  from_   : W64                    -- number of the first object it covers
  upTo    : W64                    -- number of the object after the last one it covers
  reply   : List Byte              -- the payload the completion carries, FLUSH's apart
  rewrites : Nat
  skips   : Nat
  bad     : Bool                   -- a dataset it covers had a BAD judgement
  compress : Bool                  -- an object was poisoned at Whisk's input
  atRoller : Bool                  -- an object was poisoned at Roller
  tags     : List W16              -- the tags of the commands that completed the poisoned records it covers
  deriving DecidableEq, Repr

/-- A record not durable that is poisoned (R210): at Whisk's input, or by a word that Roller read as poison. -/
structure Poisoned where
  object   : W64
  atRoller : Bool
  tag      : W16                   -- of the command that completed the record
  deriving DecidableEq, Repr

/-- A DECK_STOP that waits for rest (R190): one taken in FAULT_STOP completes DONE, ALREADY (R196). -/
structure StopWaiter where
  ctx     : Ctx
  tag     : W16
  rcrc    : Bool
  already : Bool
  failed  : Bool                   -- a write that it waited for has failed (Table 7-7)
  deriving DecidableEq, Repr

/-- Deck sequencing's state (18). -/
structure DeckSeq where
  state   : DeckState
  base    : DeckState              -- the state in which the running operation began (R459)
  rest    : Bool                   -- FAULT_STOP or SAFE: the rest phase (R455)
  wasLoaded : Bool                 -- SAFE: a tape was loaded or a sequence ran (R457)
  cause   : Byte                   -- DECK_STATUS.last_cause
  cartOut : Bool                   -- the FAULT_STOP cause was a cartridge removal
  stage   : Nat                    -- step within UNLOADING (R458), LOAD for UNLOAD (R456)
  unloadAfter : Bool               -- a load sequence run for UNLOAD (R456)
  op      : Option DeckOp
  waiters : List Waiter
  stopWaiters : List StopWaiter    -- DECK_STOP commands waiting for rest
  stopAt  : W64                    -- the tape stops once every dataset below this number is written (R188)
  reverse : Bool                   -- direction of the present wrap or motion
  rhoSup  : Option Nat             -- quarter-lines of the supply reel over the last 20 mm of tape (R444)
  rhoTku  : Option Nat
  marks   : Int × Int × Int        -- capstan, supply and take-up counts at the last 20 mm mark
  zeroed  : Bool                   -- CALIBRATE: the data-side edge has been found (Table 18-3)
  capSpeed : Nat                   -- present capstan target, µm/s
  tension : Nat                    -- present tension target, Q1.15
  posTarget : Int                  -- POS_POSITION target, nm from home
  offset  : Nat                    -- the reread pass whose offset the wrap target has (R443)
  posRamp : Nat
  loadReply : List Byte
  deriving DecidableEq, Repr

/-- One deck: everything the chip keeps of it. -/
structure DeckAll where
  seq     : DeckSeq
  lock    : DeckLock
  profile : Option Profile
  compress : Bool                  -- COMPRESSION_SET (R219)
  tape    : TapeInfo
  pos     : Int                    -- tape position in crumbs at the last edge (R348)
  loops   : Loops
  io      : MotionIo
  roller  : Roller
  strainer : Strainer
  matcher : Matcher
  staged  : List Staged            -- pipeline queue j = 0
  inFlight : List Staged           -- objects in the open or a closed dataset and not yet durable, oldest first
  poisoned : List Poisoned         -- records not durable that are poisoned (R210)
  standing : List Nat              -- the blocks of the standing buffer of the declaration in force (R489)
  orders  : List Dataset           -- j = 1: end-of-data markers, labels and format structures Roller still has to write
  readQ   : List ReadOrder         -- j = 4
  toExpand : List Extract          -- j = 5
  cookQ   : List CookWork          -- what this deck's engines have posted to the Cook work queues (832–895)
  workQ   : List Motion            -- deck work queue 896 + d
  deriving DecidableEq, Repr

/-! ### Power, domains, temperature (19, 21) -/

/-- The supply monitor, the power-up timeline and the PWR_ registers (R461–R486). -/
structure Power where
  valid     : Bool                -- VIN valid has come and UVLO falling has not (R461)
  v3a       : Bool                -- V3A and VLVDS up (R475, 1 ms)
  core      : Bool                -- the 10 ms row is done: core domains on, start-up phase begun
  cookTook  : Bool                -- the Cook takes CTX_OPEN: the start-up phase has ended (R476)
  decksOn   : Bool                -- the 150 ms row is done
  control   : Bool                -- the 300 ms row is done
  resetLow  : Bool                -- RESET# is taken as low (R472)
  waiting   : Bool                -- the timeline waits at its 10 ms row for the rise of RESET# (R472, R473)
  inReset   : Bool                -- a device reset by RESET# is under way (R473)
  vin       : BitVec 10
  vinLow    : BitVec 10
  pfw       : BitVec 9
  armed     : Bool
  warning   : Bool
  sealed    : Bool
  lastStart : BitVec 2
  vioe      : Bool
  viod      : Vector Bool 4
  viom      : Bool
  bootmode  : BitVec 2
  simple    : Bool
  ma        : BitVec 3
  cntWarn   : W32
  cntReset  : W32
  tWarn     : W64
  tLatch    : W32
  deriving DecidableEq, Repr

/-- Domain control (R465–R470, R485). -/
structure Domains where
  policy    : List (BitVec 2)     -- policy of domain n at place n, 148 of them
  on        : List Bool
  deckHold  : BitVec 4
  sramOff   : BitVec 4
  idleMs    : Byte
  deckOff   : BitVec 4
  holdPend  : BitVec 4
  sramActive : BitVec 4
  sramPend  : BitVec 4
  wakes     : W32
  refused   : W32
  recovering : List Nat           -- units whose restart after a fault has not finished (R499, R500)
  mirror    : List (Nat × Nat × W32)  -- registers of the domains that are off: domain, address, last mirrored value (R108)
  deriving DecidableEq, Repr

/-- The temperature block (R508, R509). -/
structure Temp where
  sensors  : Vector (BitVec 12) 8
  warn     : Byte
  limit    : Byte
  hottest  : Int                  -- 1/8 °C
  sensor   : BitVec 3
  warning  : Bool
  limited  : Bool
  critical : Bool
  bad      : Byte
  peak     : Byte
  deriving DecidableEq, Repr

/-! ### Fault log, Cook, emergency stop and mirror (21) -/

/-- A fault-log entry (Table 21-5). -/
structure LogEntry where
  kind   : Byte
  code   : Byte
  unit   : Byte
  flags  : Byte
  seq    : W32
  time   : W64
  object : W16
  ctx    : Byte
  arg0   : W32
  arg1   : W32
  arg2   : W32
  deriving DecidableEq, Repr

/-- The fault log (R494, R510–R517). -/
structure FaultLog where
  pend      : List LogEntry       -- entries of the present instant, which have not their places yet (R31)
  store     : List LogEntry       -- the general store, head first
  slots     : List (Nat × LogEntry)  -- reserved slots in use, by entry number 2u and 2u + 1
  seq       : W32
  dropped   : W32                 -- LOG_CNT_DROP
  marker    : W32                 -- drops since the last LOG_DROPPED marker
  appended  : W32
  sel       : BitVec 10
  slotsFull : W32
  popMiss   : W32
  win       : List Byte           -- the 32 bytes latched by LOG_WIN_0
  sealed    : Bool
  held      : List Nat            -- units held under R500, rising
  deriving DecidableEq, Repr

/-- COOK_STATUS.state (R518). -/
inductive CookState where
  | off | held | booting | running | handler | halted
  deriving DecidableEq, Repr

/-- The Cook as management sees it (R495–R498, R518–R521). -/
structure Cook where
  state    : CookState
  safe     : Bool
  patchActive : Bool
  patchRejected : Bool
  boots    : Byte
  traps    : W32
  lastTrap : W32
  patchIndex : BitVec 12
  keptRelease : Bool              -- a release written while OFF (R518)
  bootHold : Bool                 -- BOOTMODE[0] as sampled was 0: the next boot is held
  restarting : Bool               -- the boot under way is a Cook restart's (R37, R498)
  hooks    : List W32             -- hooks in force since the last boot (R520, R521)
  patchRam : List W32             -- the image that the last boot copied (R518); words beyond the list are 0
  deriving DecidableEq, Repr

/-- The mirror of one deck (R523). -/
structure Mirror where
  state : BitVec 4
  cause : Byte
  lock  : BitVec 2
  owner : Byte
  time  : W64
  latch : W32
  cntState : W32
  cntFault : W32
  deriving DecidableEq, Repr

/-- Deck emergency stop and status mirror (R522, R523). -/
structure Emergency where
  hold    : BitVec 4
  coast   : BitVec 4
  thermal : BitVec 4
  jtag    : BitVec 4
  mirror  : Vector Mirror 4
  deriving DecidableEq, Repr

/-- An event accepted by the event path and not yet delivered: its record fields and the contexts its scope named when it
was posted, each with the object its record carries (R140, R501). -/
structure Event where
  code    : Byte
  arg     : W32
  time    : W64
  targets : List (Ctx × W16)
  deriving DecidableEq, Repr

/-- A queue entry whose queue was found full and which its producer keeps (R22, R493). -/
inductive HeldEntry where
  | wdata (r : Rec) (reply : List Byte)
  | rdata (r : Reply)
  deriving DecidableEq, Repr

/-- Why Ladle answered a request as it did (Table 9-6, R225, R234). -/
inductive LadleAnswer where
  | none | done (address : Nat) | badOwner | cellQuota | blockQuota | poolEmpty | badPtr | notHolder | holdersFull | already
  | shareFull | waiting
  deriving DecidableEq, Repr

/-- The chip: everything but the queue of waiting commands. -/
structure Chip where
  power     : Power
  domains   : Domains
  timebase  : Timebase
  kettle    : Kettle
  temp      : Temp
  log       : FaultLog
  cook      : Cook
  emergency : Emergency
  passQ     : PassQ
  ladle     : Ladle
  ladleAnswer : LadleAnswer        -- what Ladle last answered (the model's own view of its response)
  funnel    : Funnel
  sram      : Sram
  merge     : Vector (List MergeEntry) 9   -- ports E0–E3 and S, then Tongs groups 0–3; oldest first
  cache     : Cache
  readOut   : List Byte            -- the 16 data bytes last delivered by F-BANK, poison flag first (the model's own view)
  events    : List Event           -- the 64-entry input of the event path, oldest first
  held      : List (Nat × HeldEntry)
  tongsQ    : List Notice          -- the notices of Tongs channels in the Cook work queues (R21, R499)
  openQ     : List Cmd             -- the entries of the open queues 900 + p, each by its command's port, in arrival order (R154)
  ehran     : Vector EhranPort 4
  spi       : SpiPort
  i2c       : I2cPort
  jtag      : Jtag
  sieve     : Vector Sieve 5
  rotor     : Vector Nat 5         -- context last staged by each port (R148)
  ctxs      : Vector Context 64
  decks     : Vector DeckAll 4
  freeUsed  : Nat                  -- free values consumed so far: the model's own counter
  deriving DecidableEq, Repr

/-- The state: the chip and the commands waiting for it, first in, first out. -/
structure State where
  pending : List Instr
  chip    : Chip
  deriving DecidableEq, Repr

/-! ### The state after reset (19: Table 19-4, power-on rung; the Reset columns of every register table)

Where a Reset column gives no value the log entries named in INVENTORY.md give the model's choice. -/

def Lines.reset : Lines := { elements := 0, next := none, valid := false, shadowBusy := false, again := false, calCount := 0 }

def Timebase.reset : Timebase :=
  { time := 0, fine := 0, running := false, trimAcc := 0, timeLatch := 0, refState := .absent, ref20 := false, wasFree := false,
    lossCount := 0, lossTime := 0, trim := 0, trimsRead := false, central := .reset, decks := Vector.replicate 4 .reset }

/-- A deck's declared load before it declares anything. -/
def noLoad : DeckLoad :=
  { loopPeriod := 0, tracks := 0, reading := false, compress := false, decompress := false, cellRate := 0 }

def Kettle.reset : Kettle :=
  { modeReq := 1, hold := false, vminCode := 0, vmaxCode := 70, vcore := 30, settling := false, atCeiling := false,
    slack := 0xFFFF, slackSite := 0, decks := Vector.replicate 4 noLoad, ports := Vector.replicate 5 0, recal := false, raising := [],
    calm := 0, due := none, raisedAt := none, overruns := 0, overSite := 0, raises := 0, siteTimes := [] }

def ReplyOut.reset : ReplyOut := { wire := [], staged := [], cur := none, last := [] }

def Sieve.reset : Sieve :=
  { admitted := 0, refuse := 0, hdrcrc := 0, paycrc := 0, init := 0, busy := 0, last := 0, noslot := 0 }

def EhranPort.reset : EhranPort :=
  { sel := false, dirPin := false, frm := false, dir := false, armed := true, wave := [], enabled := true, width16 := true,
    cfgPending := false, declRefused := false, rxOpen := false, rx := [], rxLong := false, rxHeld := 0, out := .reset, xferIn := 0, xferOut := 0, pktIn := 0, pktOut := 0,
    idleOut := 0, runt := 0, long := 0, stray := 0, early := 0, dirGlitch := 0, selGlitch := 0, pace := 0, wireLost := 0,
    lastViol := 0 }

def SpiPort.reset : SpiPort :=
  { enabled := true, quad := false, cfgPending := false, declRefused := false, rxHeld := 0, cs := none, door := 0,
    out := .reset, xactIn := 0, xactOut := 0, idleOut := 0, cnt := Vector.replicate 7 0, wireLost := 0, lastViol := 0 }

def I2cPort.reset : I2cPort :=
  { ready := false, ptr := 0, pecEn := false, pecOn := false, pecErr := false, addr := 0x37, acked := false, out := [],
    xact := 0, pec := 0, form := 0, timeout := 0, overread := 0 }

def Jtag.reset : Jtag :=
  { ready := false, ir := 0b00001, irOut := 0b00001, boundary := List.replicate 521 false, extest := false, isoOn := false, isoMacro := 0, isoRefused := false,
    dr := 0 }

/-- An event queue of the default depth (Table 6-4). -/
def EvtQueue.reset : EvtQueue := { recs := [], depth := 8, lost := 0, lostClass := 0 }

/-- A closed context; its depths are the defaults of Table 6-4, its quotas those of the reset generation (R159). -/
def Context.reset : Context :=
  { state := .closed, port := 0, cmd := [], cmdAt := [], cmdDepth := 8, heldReset := none, rpl := [], rplDepth := 8, evt := .reset,
    wdata := Vector.replicate 4 [], wDepth := Vector.replicate 4 16, rdata := Vector.replicate 4 [],
    rDepth := Vector.replicate 4 16, spare := none, spareDepth := 4, executing := [], ticket := none, waitingOpen := [],
    cellQuota := 128, blockQuota := 0, storage := [] }

def DrainReport.reset : DrainReport :=
  { byLease := false, marker := false, noMove := false, discarded := 0, written := 0, waiting := 0, lastDurable := 0 }

def DeckLock.reset : DeckLock :=
  { state := .free, lease := 0, keep := false, window := 0, leaseAt := 0, warned := false, report := .reset }

/-- FUNNEL_CFG_s and FUNNEL_WIN_s after reset (R264). -/
def siteCfgReset : Vector SiteCfg 3 :=
  #v[{ deadline := false, park := true, burst := 1, aging := 0, threshold := 4, window := 16, quota := 1 },
     { deadline := true, park := false, burst := 2, aging := 16, threshold := 127, window := 16, quota := 1 },
     { deadline := true, park := false, burst := 16, aging := 4, threshold := 127, window := 16, quota := 1 }]

/-- A port setting after reset; an Ehran port's width then follows SIMPLE# (R90, R105). -/
def PortCfg.reset (wide : Bool) : PortCfg := { enable := true, wide := wide, declRate := 0 }

/-- The reset generation of Pass Q. -/
def Generation.reset : Generation :=
  { cellBanks := 4, cellQuota := Vector.replicate 64 128, blockQuota := Vector.replicate 64 0, sites := siteCfgReset,
    ofsBank := Vector.replicate 12 0x100, ofsPort := Vector.replicate 64 0x100, ofsMove := Vector.replicate 32 0x100,
    ports := #v[.reset true, .reset true, .reset true, .reset true, .reset false], eraseMacro := 0, eraseOn := false,
    retire := Vector.replicate 64 { kind := 0, index := 0 }, patchCfg := 0, patchCrc := 0, patchWords := [],
    hooks := Vector.replicate 32 0 }

def PassQ.reset : PassQ := { staged := .reset, active := .reset, gen := 0, refused := false }

def BlockEntry.outside : BlockEntry := { state := .outside, holders := [], owner := 0 }

def Ladle.reset : Ladle :=
  { built := false, chains := [], blocks := Vector.replicate 64 .outside, freeCells := [], freeBlocks := [], retired := [],
    reserved := 0, cellBanks := 4, headBanks := 0, leaving := none, waiting := [], lowCells := 4096, lowBlocks := 48, shareFull := 0,
    badptr := 0, notHolder := 0, pantry := 0, sweep := 0 }

def InputCounters.reset : InputCounters := { grants := 0, lost := 0, waitR := 0, waitUs := 0 }

/-- A Funnel site after reset, with the settings of its kind. -/
def Site.reset (cfg : SiteCfg) (inputs : Nat) : Site :=
  { requests := [], owner := 0, granted := false, inUse := false, block := 0, turns := [], units := 0, burst := 0, parked := false, used := 0, counts := [],
    cfg := cfg, ofs := List.replicate inputs 0x100, frozen := false }

def Funnel.reset : Funnel :=
  { sites := ((Vector.replicate 18 (Site.reset siteCfgReset[0] 12)).set 16 (Site.reset siteCfgReset[1] 64)).set 17
      (Site.reset siteCfgReset[2] 32),
    bankCnt := Vector.replicate 12 .reset, portCnt := Vector.replicate 64 .reset, moveCnt := Vector.replicate 32 .reset,
    cselIn := 0, cselSite := 0, cselBank := 0, snap := .reset }

def Sram.reset : Sram :=
  { mem := [], isolated := none, erased := none, declared := none, erasePending := false, initDone := false, scrubbing := false,
    periodMs := 4000, scrubEn := true, pos := 0, passes := 0, late := 0, corr := 0, uncorr := 0,
    addr := 0, poison := 0, fixed := 0, lastErr := 0x7C0000, threshold := 64, macros := Vector.replicate 19 0,
    banks := Vector.replicate 16 0, passHits := Vector.replicate 19 0,
    suspected := [], passLate := false }

def Cache.reset : Cache := { sets := Vector.replicate 32 [], wb := [] }

def Tune.reset : Tune :=
  { state := .none, cycles := 0, swing := 0, band := 0, wasOpen := false, ref0 := 0, relay := false, samples := 0, rises := 0,
    begin_ := 0, eMax := 0, eMin := 0, measured := 0, amplitude := 0, period := 0, propH := 0, propKi := 0, propTrim := 0 }

/-- Slot k of a deck after reset (Table 16-4): slots 0 to 9 enabled in the roles of Table 16-1, slots 10 and 11 role NONE. -/
def Slot.reset (k : Nat) : Slot :=
  { enable := decide (k ≤ 9), role := if k ≤ 9 then k + 1 else 0, axis := 0, src := 0, gain := 65536, ki := 0, trim := 15,
    h := 512, bias := 0, swing := 0, umin := -32768, umax := 32767, feLimit := 32767, feSamples := 0, ramp := 0, target := 0,
    integ := 0, ref := 0, x := 0, e := 0, t := 0, z := 0, state := .closed, high := false, frozen := false,
    clipped := false, winner := false, feFault := false, u := 0, feCount := 0, overruns := 0, sample := 0, fresh := true,
    reseed := false, tune := .reset }

def Group.reset : Group :=
  { out := 0, next := 0, winner := 0, dir := false, safe := false, driven := false, safeU := 0 }

def Loops.reset : Loops :=
  { running := false, period := 0, start := 0, n := 0,
    slots := #v[.reset 0, .reset 1, .reset 2, .reset 3, .reset 4, .reset 5, .reset 6, .reset 7, .reset 8, .reset 9,
                .reset 10, .reset 11],
    groups := Vector.replicate 4 .reset, overrun := 0 }

def AxisState.reset : AxisState :=
  { mode := .off, nextMode := .off, trip := false, tripIn := false, carryA := 0, carryB := 0, legA := .idle, legB := .idle,
    tripCnt := 0 }

def Encoder.reset : Encoder :=
  { a := false, b := false, count := 0, fwd := true, edges := [], lastA := 0, lastOnB := false, illegal := [], indexAt := none, way := none, mixed := false }

def Limit.reset : Limit := { raw := false, active := false, window := none }

def Homing.reset : Homing :=
  { step := 0, homed := false, offset := 0, latch1 := 0, latch2 := 0, latch2At := 0, glitches := 0, fromPos := 0 }

def MotionIo.reset : MotionIo :=
  { axes := Vector.replicate 4 .reset, encs := Vector.replicate 3 .reset, posLo := .reset, posHi := .reset, cart := false,
    door := false, tapemk := false, markAt := 0, anchor := false, home := .reset, posRaw := 0, sldo := 0, posHold := none, invalid := 0, badSrc := 0, suppress := 0,
    held := 0, encErr := 0, indexErr := 0, glitch := 0, chatter := 0, sensorInvalid := 0 }

/-- SPEED_POLICY before any command sets it (R195, Table 7-10). -/
def SpeedPolicy.reset : SpeedPolicy := { fixed := false, stallMs := 50, floor := 0, ceiling := 0, fixedAt := 0 }

def Matcher.reset : Matcher :=
  { policy := .reset, next := none, target := 0, runOut := none, lastEvent := none, lo := 0, hi := 0, stallOn := false,
    underrun := false, restAt := none, fills := [], stored := 0 }

def Roller.reset : Roller :=
  { gate := false, skipping := false, eodFailed := false, open_ := none, placed := 0, next := 0, openBlocks := [], buffers := [], cellLen := 0,
    boundary := 0, lastCell := 0, spoiled := [], stopAt := none, tail := none, nextP0 := none, eraseFrom := none, wl := 0, posLatch := 0, posTime := 0, datasets := 0, rewrites := 0, precaution := 0,
    skips := 0, failed := 0, overrun := 0 }

def Track.reset : Track := { locked := false, misses := 0, skew := 0, dropped := false }

def Strainer.reset : Strainer :=
  { aligned := false, pass := 0, rows := [], reading := false, dataset := 0, tracks := Vector.replicate 16 .reset,
    skewSel := 0, stalled := false, blocks := [], judged := 0, bad := 0, notFound := 0, codeViol := 0, c1 := 0, c2rows := 0, c3sds := 0,
    reread := 0, unrecovered := 0, alignLoss := 0 }

def TapeInfo.reset : TapeInfo :=
  { media := none, label := none, lflag := false, eodDs := Vector.replicate 4 0, eodObj := Vector.replicate 4 0, eodWrap := Vector.replicate 4 0,
    gen := Vector.replicate 4 0, incomplete := Vector.replicate 4 false, partition := 0, wrap := 0, dataset := 0, object := 0,
    offset := 0, mid := false, ewPosted := false, beyondEw := false, marker := false, tickets := 0, durDs := none, durObj := 0,
    ds := none, ahead := .unknown, declared := none, walk := none, current := none }

def DeckSeq.reset : DeckSeq :=
  { state := .dormant, base := .dormant, rest := true, wasLoaded := false, cause := 0, cartOut := false, stage := 0,
    unloadAfter := false, op := none, waiters := [], stopWaiters := [], stopAt := 0, reverse := false, rhoSup := none, rhoTku := none,
    marks := (0, 0, 0), zeroed := false, capSpeed := 0, tension := 0, posTarget := 0, offset := 0, posRamp := 1, loadReply := [] }

def DeckAll.reset : DeckAll :=
  { seq := .reset, lock := .reset, profile := none, compress := true, tape := .reset, pos := 0, loops := .reset, io := .reset,
    roller := .reset, strainer := .reset, matcher := .reset, staged := [], inFlight := [], poisoned := [], standing := [], orders := [], readQ := [], toExpand := [],
    cookQ := [], workQ := [] }

/-- PWR_ registers and the timeline before VIN valid. Banks not good and VIN 0 are the model's choice (log entry 2). -/
def Power.reset : Power :=
  { valid := false, v3a := false, core := false, cookTook := false, decksOn := false, control := false,
    resetLow := false, waiting := false, inReset := false, vin := 0, vinLow := 0x3FF, pfw := 320, armed := false, warning := false, sealed := false,
    lastStart := 0, vioe := false, viod := Vector.replicate 4 false, viom := false, bootmode := 3,
    simple := true, ma := 7, cntWarn := 0, cntReset := 0, tWarn := 0, tLatch := 0 }

/-- The reset policy of domain n (Table 19-3): 0 ON, 1 AUTO. -/
def policyReset (n : Nat) : BitVec 2 :=
  if 16 ≤ n ∧ n ≤ 35 then 1 else if 48 ≤ n ∧ n ≤ 71 ∧ (n - 48) % 6 ≤ 4 then 1 else 0

def Domains.reset : Domains :=
  { policy := (List.range 160).map policyReset, on := List.replicate 148 false, deckHold := 0, sramOff := 0, idleMs := 10,
    deckOff := 0, holdPend := 0, sramActive := 0, sramPend := 0, wakes := 0, refused := 0, recovering := [], mirror := [] }

def Temp.reset : Temp :=
  { sensors := Vector.replicate 8 0, warn := 95, limit := 105, hottest := 0, sensor := 0, warning := false, limited := false,
    critical := false, bad := 0, peak := 0x80 }

def FaultLog.reset : FaultLog :=
  { pend := [], store := [], slots := [], seq := 0, dropped := 0, marker := 0, appended := 0, sel := 0, slotsFull := 0, popMiss := 0,
    win := List.replicate 32 0, sealed := false, held := [] }

def Cook.reset : Cook :=
  { state := .off, safe := false, patchActive := false, patchRejected := false, boots := 0, traps := 0, lastTrap := 0,
    patchIndex := 0, keptRelease := false, bootHold := false, restarting := false, hooks := [],
    patchRam := [] }

def Mirror.reset : Mirror :=
  { state := 0, cause := 0, lock := 0, owner := 0xFF, time := 0, latch := 0, cntState := 0, cntFault := 0 }

def Emergency.reset : Emergency :=
  { hold := 0, coast := 0, thermal := 0, jtag := 0, mirror := Vector.replicate 4 .reset }

/-- The chip at power-on, before VIN valid. -/
def Chip.reset : Chip :=
  { power := .reset, domains := .reset, timebase := .reset, kettle := .reset, temp := .reset, log := .reset, cook := .reset,
    emergency := .reset, passQ := .reset, ladle := .reset, ladleAnswer := .none, funnel := .reset, sram := .reset,
    merge := Vector.replicate 9 [], cache := .reset, readOut := [], events := [], held := [], tongsQ := [],
    openQ := [], ehran := Vector.replicate 4 .reset, spi := .reset, i2c := .reset, jtag := .reset,
    sieve := Vector.replicate 5 .reset, rotor := Vector.replicate 5 0, ctxs := Vector.replicate 64 .reset,
    decks := Vector.replicate 4 .reset, freeUsed := 0 }

/-- The machine right after reset: the power-on rung of Table 19-4 before VIN valid, and no command waiting. -/
def State.reset : State := { pending := [], chip := Chip.reset }

end Sys2Proof.Machine
end

