-- ==== Sys2Proof/Machine/Ops.lean ====
section
/-! DEFINITION. Operations that every family of commands shares: completion codes, the fault log, events, locks, completions. -/

namespace Sys2Proof.Machine

/-! ### Completion classes and details (Table 5-6) -/

/-- Class 0x0, detail 0x00, DONE (Table 5-6). -/
def Stat.done : Stat := 0x000#12
/-- Class 0x0, detail 0x01, BUFFERED (Table 5-6). -/
def Stat.buffered : Stat := 0x001#12
/-- Class 0x0, detail 0x02, DURABLE (Table 5-6). -/
def Stat.durable : Stat := 0x002#12
/-- Class 0x0, detail 0x03, FILEMARK (Table 5-6). -/
def Stat.filemark : Stat := 0x003#12
/-- Class 0x0, detail 0x04, EOD (Table 5-6). -/
def Stat.eod : Stat := 0x004#12
/-- Class 0x0, detail 0x05, EARLY_WARNING (Table 5-6). -/
def Stat.earlyWarning : Stat := 0x005#12
/-- Class 0x0, detail 0x06, MORE (Table 5-6). -/
def Stat.more : Stat := 0x006#12
/-- Class 0x0, detail 0x07, ALREADY (Table 5-6). -/
def Stat.already : Stat := 0x007#12
/-- Class 0x1, detail 0x01, VERIFY_REWRITE (Table 5-6). -/
def Stat.verifyRewrite : Stat := 0x101#12
/-- Class 0x1, detail 0x02, DATASET_SKIP (Table 5-6). -/
def Stat.datasetSkip : Stat := 0x102#12
/-- Class 0x1, detail 0x03, C2_USED (Table 5-6). -/
def Stat.c2Used : Stat := 0x103#12
/-- Class 0x1, detail 0x04, C3_USED (Table 5-6). -/
def Stat.c3Used : Stat := 0x104#12
/-- Class 0x1, detail 0x05, REREAD (Table 5-6). -/
def Stat.reread : Stat := 0x105#12
/-- Class 0x2, detail 0x01, CMDQ_FULL (Table 5-6). -/
def Stat.cmdqFull : Stat := 0x201#12
/-- Class 0x2, detail 0x02, ADMISSION_STOPPED (Table 5-6). -/
def Stat.admissionStopped : Stat := 0x202#12
/-- Class 0x2, detail 0x03, DECK_BUSY (Table 5-6). -/
def Stat.deckBusy : Stat := 0x203#12
/-- Class 0x2, detail 0x04, ENGINE_BUSY (Table 5-6). -/
def Stat.engineBusy : Stat := 0x204#12
/-- Class 0x3, detail 0x01, SRAM_INIT (Table 5-6). -/
def Stat.sramInit : Stat := 0x301#12
/-- Class 0x3, detail 0x02, COOK_BOOT (Table 5-6). -/
def Stat.cookBoot : Stat := 0x302#12
/-- Class 0x3, detail 0x03, DECK_CAL (Table 5-6). -/
def Stat.deckCal : Stat := 0x303#12
/-- Class 0x4, detail 0x01, HDR_CRC (Table 5-6). -/
def Stat.hdrCrc : Stat := 0x401#12
/-- Class 0x4, detail 0x02, PAYLOAD_CRC (Table 5-6). -/
def Stat.payloadCrc : Stat := 0x402#12
/-- Class 0x4, detail 0x03, LENGTH_OVER (Table 5-6). -/
def Stat.lengthOver : Stat := 0x403#12
/-- Class 0x4, detail 0x04, RESERVED_NONZERO (Table 5-6). -/
def Stat.reservedNonzero : Stat := 0x404#12
/-- Class 0x4, detail 0x05, BAD_OPCODE (Table 5-6). -/
def Stat.badOpcode : Stat := 0x405#12
/-- Class 0x4, detail 0x06, BAD_CONTEXT (Table 5-6). -/
def Stat.badContext : Stat := 0x406#12
/-- Class 0x4, detail 0x07, CTX_NOT_OPEN (Table 5-6). -/
def Stat.ctxNotOpen : Stat := 0x407#12
/-- Class 0x4, detail 0x08, CTX_OTHER_PORT (Table 5-6). -/
def Stat.ctxOtherPort : Stat := 0x408#12
/-- Class 0x4, detail 0x09, BAD_LENGTH (Table 5-6). -/
def Stat.badLength : Stat := 0x409#12
/-- Class 0x4, detail 0x0A, BAD_FIELD (Table 5-6). -/
def Stat.badField : Stat := 0x40A#12
/-- Class 0x4, detail 0x20, WIRE_RUNT (Table 5-6). -/
def Stat.wireRunt : Stat := 0x420#12
/-- Class 0x4, detail 0x21, WIRE_LONG (Table 5-6). -/
def Stat.wireLong : Stat := 0x421#12
/-- Class 0x4, detail 0x22, WIRE_NOROOM (Table 5-6). -/
def Stat.wireNoroom : Stat := 0x422#12
/-- Class 0x5, detail 0x01, CTX_STATE (Table 5-6). -/
def Stat.ctxState : Stat := 0x501#12
/-- Class 0x5, detail 0x02, NOT_LOCKED (Table 5-6). -/
def Stat.notLocked : Stat := 0x502#12
/-- Class 0x5, detail 0x03, DECK_STATE (Table 5-6). -/
def Stat.deckState : Stat := 0x503#12
/-- Class 0x5, detail 0x04, NO_CARTRIDGE (Table 5-6). -/
def Stat.noCartridge : Stat := 0x504#12
/-- Class 0x5, detail 0x05, NO_TICKET (Table 5-6). -/
def Stat.noTicket : Stat := 0x505#12
/-- Class 0x5, detail 0x06, SLOT_CLOSED (Table 5-6). -/
def Stat.slotClosed : Stat := 0x506#12
/-- Class 0x5, detail 0x07, LOAD_UNCOVERED (Table 5-6). -/
def Stat.loadUncovered : Stat := 0x507#12
/-- Class 0x5, detail 0x08, NO_PROFILE (Table 5-6). -/
def Stat.noProfile : Stat := 0x508#12
/-- Class 0x5, detail 0x09, WRITE_POSITION (Table 5-6). -/
def Stat.writePosition : Stat := 0x509#12
/-- Class 0x5, detail 0x0A, FORMAT_UNKNOWN (Table 5-6). -/
def Stat.formatUnknown : Stat := 0x50A#12
/-- Class 0x5, detail 0x0B, TRIPPED (Table 5-6). -/
def Stat.tripped : Stat := 0x50B#12
/-- Class 0x6, detail 0x01, CELL_QUOTA (Table 5-6). -/
def Stat.cellQuota : Stat := 0x601#12
/-- Class 0x6, detail 0x02, BLOCK_QUOTA (Table 5-6). -/
def Stat.blockQuota : Stat := 0x602#12
/-- Class 0x6, detail 0x03, QUEUE_QUOTA (Table 5-6). -/
def Stat.queueQuota : Stat := 0x603#12
/-- Class 0x6, detail 0x04, POOL_EMPTY (Table 5-6). -/
def Stat.poolEmpty : Stat := 0x604#12
/-- Class 0x7, detail 0x01, WRITE_FAILED (Table 5-6). -/
def Stat.writeFailed : Stat := 0x701#12
/-- Class 0x7, detail 0x02, UNRECOVERED_READ (Table 5-6). -/
def Stat.unrecoveredRead : Stat := 0x702#12
/-- Class 0x7, detail 0x03, RECORD_CRC (Table 5-6). -/
def Stat.recordCrc : Stat := 0x703#12
/-- Class 0x7, detail 0x04, END_OF_TAPE (Table 5-6). -/
def Stat.endOfTape : Stat := 0x704#12
/-- Class 0x7, detail 0x05, BLANK (Table 5-6). -/
def Stat.blank : Stat := 0x705#12
/-- Class 0x7, detail 0x06, FORMAT_ERROR (Table 5-6). -/
def Stat.formatError : Stat := 0x706#12
/-- Class 0x7, detail 0x07, INCOMPLETE_DATASET (Table 5-6). -/
def Stat.incompleteDataset : Stat := 0x707#12
/-- Class 0x8, detail 0x01, HOST_READ (Table 5-6). -/
def Stat.hostRead : Stat := 0x801#12
/-- Class 0x8, detail 0x02, TAPE_WRITE (Table 5-6). -/
def Stat.tapeWrite : Stat := 0x802#12
/-- Class 0x8, detail 0x03, COMPRESS (Table 5-6). -/
def Stat.compressPoison : Stat := 0x803#12
/-- Class 0x9, detail 0x01, BY_STOP (Table 5-6). -/
def Stat.byStop : Stat := 0x901#12
/-- Class 0x9, detail 0x02, BY_LOCK_LOSS (Table 5-6). -/
def Stat.byLockLoss : Stat := 0x902#12
/-- Class 0x9, detail 0x03, BY_FAULT_STOP (Table 5-6). -/
def Stat.byFaultStop : Stat := 0x903#12
/-- Class 0x9, detail 0x04, BY_POWER_FAIL (Table 5-6). -/
def Stat.byPowerFail : Stat := 0x904#12
/-- Class 0x9, detail 0x05, BY_UNLOAD (Table 5-6). -/
def Stat.byUnload : Stat := 0x905#12
/-- Class 0xA, detail 0x01, TRIP_ACTIVE (Table 5-6). -/
def Stat.tripActive : Stat := 0xA01#12
/-- Class 0xA, detail 0x02, FOLLOWING_ERROR (Table 5-6). -/
def Stat.followingError : Stat := 0xA02#12
/-- Class 0xA, detail 0x03, LIMIT_CHATTER (Table 5-6). -/
def Stat.limitChatter : Stat := 0xA03#12
/-- Class 0xA, detail 0x04, LIMIT_UNEXPECTED (Table 5-6). -/
def Stat.limitUnexpected : Stat := 0xA04#12
/-- Class 0xA, detail 0x05, HOME_FAILED (Table 5-6). -/
def Stat.homeFailed : Stat := 0xA05#12
/-- Class 0xA, detail 0x06, TENSION (Table 5-6). -/
def Stat.tension : Stat := 0xA06#12
/-- Class 0xA, detail 0x07, STEP_TIMEOUT (Table 5-6). -/
def Stat.stepTimeout : Stat := 0xA07#12
/-- Class 0xA, detail 0x08, REF_LOST (Table 5-6). -/
def Stat.refLost : Stat := 0xA08#12
/-- Class 0xB, detail 0x01, HELD_BY_OTHER (Table 5-6). -/
def Stat.heldByOther : Stat := 0xB01#12
/-- Class 0xB, detail 0x02, ADOPT_WINDOW (Table 5-6). -/
def Stat.adoptWindow : Stat := 0xB02#12
/-- Class 0xB, detail 0x03, MGMT_HOLD (Table 5-6). -/
def Stat.mgmtHold : Stat := 0xB03#12
/-- Class 0xC, detail 0x01, SAFE (Table 5-6). -/
def Stat.safe : Stat := 0xC01#12
/-- Class 0xC, detail 0x02, ENGINE_FAULT (Table 5-6). -/
def Stat.engineFault : Stat := 0xC02#12
/-- Class 0xC, detail 0x03, LADLE_BADPTR (Table 5-6). -/
def Stat.ladleBadptr : Stat := 0xC03#12
/-- Class 0xC, detail 0x04, DESCRIPTOR_HALT (Table 5-6). -/
def Stat.descriptorHalt : Stat := 0xC04#12
/-- Class 0xC, detail 0x05, COOK_TRAP (Table 5-6). -/
def Stat.cookTrap : Stat := 0xC05#12
/-- Class 0xD, detail 0x01, CTX_RESET (Table 5-6). -/
def Stat.resetPending : Stat := 0xD01#12

/-! ### Event codes (Table 5-9) -/

def Ev.deckState : Byte := 0x01#8
def Ev.datasetDurable : Byte := 0x02#8
def Ev.speedChanged : Byte := 0x03#8
def Ev.stallPadded : Byte := 0x04#8
def Ev.autotuneDone : Byte := 0x05#8
def Ev.quotaChanged : Byte := 0x06#8
def Ev.refRestored : Byte := 0x07#8
def Ev.cookRestarted : Byte := 0x08#8
def Ev.bot : Byte := 0x20#8
def Ev.earlyWarning : Byte := 0x21#8
def Ev.eot : Byte := 0x22#8
def Ev.eod : Byte := 0x23#8
def Ev.filemarkPassed : Byte := 0x24#8
def Ev.wrapTurn : Byte := 0x25#8
def Ev.partitionEnd : Byte := 0x26#8
def Ev.cartInserted : Byte := 0x40#8
def Ev.cartRemoved : Byte := 0x41#8
def Ev.doorOpened : Byte := 0x42#8
def Ev.doorClosed : Byte := 0x43#8
def Ev.tapeBlank : Byte := 0x44#8
def Ev.datasetSkipped : Byte := 0x45#8
def Ev.incompleteFound : Byte := 0x46#8
def Ev.rereadPass : Byte := 0x47#8
def Ev.tripped : Byte := 0x60#8
def Ev.followingError : Byte := 0x61#8
def Ev.limitHit : Byte := 0x62#8
def Ev.limitChatter : Byte := 0x63#8
def Ev.faultStop : Byte := 0x64#8
def Ev.backhitch : Byte := 0x65#8
def Ev.loopOverrun : Byte := 0x66#8
def Ev.verifyRewrite : Byte := 0x80#8
def Ev.c2Corrected : Byte := 0x81#8
def Ev.c3Corrected : Byte := 0x82#8
def Ev.poisonDelivered : Byte := 0x83#8
def Ev.recordCrcFail : Byte := 0x84#8
def Ev.bufferRetired : Byte := 0x85#8
def Ev.lockOrphaned : Byte := 0xA0#8
def Ev.lockAdopted : Byte := 0xA1#8
def Ev.lockFreed : Byte := 0xA2#8
def Ev.leaseWarning : Byte := 0xA3#8
def Ev.leaseExpired : Byte := 0xA4#8
def Ev.powerFailWarning : Byte := 0xC0#8
def Ev.loadUncovered : Byte := 0xC1#8
def Ev.thermalWarning : Byte := 0xC2#8
def Ev.thermalLimit : Byte := 0xC3#8
def Ev.refLost : Byte := 0xE0#8
def Ev.deviceSafe : Byte := 0xE1#8
def Ev.deckEmergency : Byte := 0xE2#8
def Ev.engineFault : Byte := 0xE3#8
def Ev.macroErased : Byte := 0xE4#8

/-! ### Access to the parts of the chip -/

def Chip.modCtx (ch : Chip) (i : Ctx) (f : Context → Context) : Chip :=
  { ch with ctxs := ch.ctxs.set i (f (ch.ctxs.get i)) }

def Chip.modDeck (ch : Chip) (d : Deck) (f : DeckAll → DeckAll) : Chip :=
  { ch with decks := ch.decks.set d (f (ch.decks.get d)) }

def Chip.modEhran (ch : Chip) (p : EPort) (f : EhranPort → EhranPort) : Chip :=
  { ch with ehran := ch.ehran.set p (f (ch.ehran.get p)) }

def Chip.modSieve (ch : Chip) (p : Port) (f : Sieve → Sieve) : Chip :=
  { ch with sieve := ch.sieve.set p (f (ch.sieve.get p)) }

/-- Applies `f` for every element of a list, first element first. -/
def Chip.forAll {α : Type} (ch : Chip) (l : List α) (f : Chip → α → Chip) : Chip := l.foldl f ch

/-- Hourglass time of the present instant: the coarse count and what the delay lines resolve beyond it (R47, R50). -/
def Chip.now (ch : Chip) : W64 := ch.timebase.time + ch.timebase.fine.setWidth 64

/-- Every time read is flagged free-running: before classification and in FREE_RUN (R475, R50, R52). -/
def Chip.freeRunning (ch : Chip) : Bool :=
  match ch.timebase.refState with
  | .absent | .freeRun => true
  | _ => false

/-- All decks, contexts and ports in order. -/
def allDecks : List Deck := [0, 1, 2, 3]
def allCtxs : List Ctx := List.finRange 64
def allPorts : List Port := [0, 1, 2, 3, 4]

/-- Servo I/O domain of deck d, 48 + 6d + 5 (Table 19-3). -/
def servoUnit (d : Deck) : Nat := 53 + 6 * d.val

/-- A domain of deck d, 48 + 6d + j (Table 19-3). -/
def engineUnit (d : Deck) (j : Nat) : Nat := 48 + 6 * d.val + j

/-- The deck is held: by EMERG_CTRL.hold, the thermal hold, EXTEST, or a VIOD bank that is not good (R522, R464). -/
def Chip.deckHeld (ch : Chip) (d : Deck) : Bool :=
  (ch.emergency.hold ||| ch.emergency.thermal ||| ch.emergency.jtag).getLsbD d.val || !(ch.power.viod.get d)

/-! ### Saturating and bit-field helpers -/

def sat8 (n : Nat) : Byte := BitVec.ofNat 8 (min n 255)
def satU16 (n : Nat) : W16 := BitVec.ofNat 16 (min n 65535)
def satU32 (n : Nat) : W32 := BitVec.ofNat 32 (min n 4294967295)
/-- A 32-bit counter that saturates. -/
def satInc32 (x : W32) : W32 := if x = 0xFFFFFFFF#32 then x else x + 1
def satInc16 (x : W16) : W16 := if x = 0xFFFF#16 then x else x + 1

/-- The low n bits of an integer as a word. -/
def wordOfInt (n : Nat) (x : Int) : BitVec n := BitVec.ofInt n x

/-! ### The fault log and the deck mirror (21: R510–R513, R523; 01: R30, R31) -/

/-- Bytes 0 to 31 of a fault-log entry (Table 21-5). -/
def LogEntry.bytes (e : LogEntry) : List Byte :=
  [e.kind, e.code, e.unit, e.flags] ++ leBytes 4 e.seq.toNat ++ leBytes 8 e.time.toNat ++ leBytes 2 e.object.toNat
    ++ [e.ctx, 0] ++ leBytes 4 e.arg0.toNat ++ leBytes 4 e.arg1.toNat ++ leBytes 4 e.arg2.toNat

/-- Entries of the general store (R510). -/
def generalStore : Nat := 1736

/-- Fault codes that record an action or a condition and get no slot copy (R512). -/
def actionCodes : List Byte :=
  [0x15, 0x16, 0x17, 0x23, 0x35, 0x42, 0x52, 0x60, 0x61, 0x70, 0x71, 0x72].map (BitVec.ofNat 8)

/-- Whether the reserved slot with entry number i is taken. -/
def FaultLog.slotUsed (l : FaultLog) (i : Nat) : Bool := l.slots.any (fun x => x.1 == i)

/-- The flags of an entry of unit u with its copy in a reserved slot, and the log after that copy (R494, R512). -/
def FaultLog.slotCopy (l : FaultLog) (e : LogEntry) : FaultLog × LogEntry :=
  if e.kind = 2 ∧ ¬ actionCodes.contains e.code then
    let u := e.unit.toNat
    if ¬ l.slotUsed (2 * u) then
      let e' := { e with flags := e.flags ||| 0x02#8 }
      ({ l with slots := l.slots ++ [(2 * u, e')] }, e')
    else if ¬ l.slotUsed (2 * u + 1) then
      let e' := { e with flags := e.flags ||| 0x06#8 }
      ({ l with slots := l.slots ++ [(2 * u + 1, e')] }, e')
    else ({ l with slotsFull := l.slotsFull + 1 }, e)
  else (l, e)

/-- Puts an entry into the general store when there is room, or drops and counts it (R510). The entry already has its number. -/
def FaultLog.keep (l : FaultLog) (e : LogEntry) : FaultLog :=
  if l.store.length < generalStore then { l with store := l.store ++ [e], appended := l.appended + 1 }
  else { l with dropped := satInc32 l.dropped, marker := l.marker + 1 }

/-- The LOG_DROPPED marker that precedes the first entry after drops, when there is room (R510). -/
def FaultLog.placeMarker (l : FaultLog) (flags : Byte) (time : W64) : FaultLog :=
  if l.marker ≠ 0 ∧ l.store.length < generalStore then
    let m : LogEntry := { kind := 2, code := 0x72, unit := 154, flags := flags, seq := l.seq, time := time, object := 0,
                          ctx := 0xFF, arg0 := l.marker, arg1 := 0, arg2 := 0 }
    { l with store := l.store ++ [m], appended := l.appended + 1, seq := l.seq + 1, marker := 0 }
  else l

/-- Appends an entry whose flags and number are still open (R510, R512, R517). -/
def FaultLog.append (l : FaultLog) (e : LogEntry) : FaultLog :=
  if l.sealed then l
  else
    let l1 := l.placeMarker e.flags e.time
    let e1 := { e with seq := l1.seq }
    let (l2, e2) := { l1 with seq := l1.seq + 1 }.slotCopy e1
    l2.keep e2

/-- An entry among others of one instant: lower units first, a unit's own in the order of their appends (R31). -/
def placeEntry (e : LogEntry) : List LogEntry → List LogEntry
  | [] => [e]
  | x :: xs => if e.unit.toNat < x.unit.toNat then e :: x :: xs else x :: placeEntry e xs

/-- The entries of the present instant are placed in the order of R31. -/
def FaultLog.settle (l : FaultLog) : FaultLog :=
  (l.pend.foldl (fun es e => placeEntry e es) []).foldl FaultLog.append { l with pend := [] }

/-- What the mirror of a deck takes from an entry of the Pass L stream (R523): kind 1 DECK_STATE and FAULT_STOP, kind 3
LOCK_STATE. -/
def Mirror.see (m : Mirror) (e : LogEntry) : Mirror :=
  if e.kind = 1 ∧ e.code = Ev.deckState then
    { m with state := e.arg0.setWidth 4, time := e.time, cntState := m.cntState + 1,
             cntFault := if e.arg0 = 11 then m.cntFault + 1 else m.cntFault }
  else if e.kind = 1 ∧ e.code = Ev.faultStop then
    if m.state = 11 then m else { m with cause := e.arg0.setWidth 8 }
  else if e.kind = 3 then { m with lock := e.arg0.setWidth 2, owner := e.arg1.setWidth 8 }
  else m

/-- The deck an object field names, if it names one (Table 5-8). -/
def deckOfObject (o : W16) : Option Deck :=
  if h : o.toNat / 4096 = 1 ∧ o.toNat % 4096 < 4 then some ⟨o.toNat % 4096, h.2⟩ else none

/-- The object field naming deck d (Table 5-8). -/
def deckObject (d : Deck) : W16 := BitVec.ofNat 16 (0x1000 + d.val)
/-- The object field naming loop slot k of deck d. -/
def slotObject (d : Deck) (k : Nat) : W16 := BitVec.ofNat 16 (0x2000 + 12 * d.val + k)
/-- The object field naming output group 4d + a. -/
def groupObject (d : Deck) (a : Axis) : W16 := BitVec.ofNat 16 (0x3000 + 4 * d.val + a.val)
/-- The object field naming context c. -/
def ctxObject (i : Ctx) : W16 := BitVec.ofNat 16 (0x6000 + i.val)

/-- An append to Pass L from any block (R30, R31): the fault log takes it, and the mirror sees it even when the store does not. -/
def Chip.report (ch : Chip) (kind code : Byte) (unit : Nat) (object : W16) (ctx : Byte) (a0 a1 a2 : W32) : Chip :=
  if ch.power.valid then
    let e : LogEntry := { kind := kind, code := code, unit := BitVec.ofNat 8 unit,
                          flags := if ch.freeRunning then 1 else 0, seq := 0, time := ch.now, object := object,
                          ctx := ctx, arg0 := a0, arg1 := a1, arg2 := a2 }
    let ch1 := { ch with log := { ch.log with pend := ch.log.pend ++ [e] } }
    match deckOfObject object with
    | some d => { ch1 with emergency := { ch1.emergency with
                    mirror := ch1.emergency.mirror.set d ((ch1.emergency.mirror.get d).see e) } }
    | none => ch1
  else ch

/-- The fault log places the entries of an instant that has ended: those of one instant in order of their units (R31). -/
def Chip.settleLog (ch : Chip) : Chip := { ch with log := ch.log.settle }

/-- The step of a command whose whole effect is on the chip. -/
def State.onChip (s : State) (f : Chip → Chip) : Host.Outcome State Fault Refusal := .next { s with chip := f s.chip }

/-- The I2C management port answers (R107): 3 ms after VIN valid, while bank VIOM is good. -/
def Chip.i2cOn (ch : Chip) : Bool := ch.i2c.ready && ch.power.viom

/-- The step of a management register's access. The I2C management port is the only way to it, so that nothing happens while the
port does not answer (R5, R107). -/
def State.onRegister (s : State) (f : Chip → Chip) : Host.Outcome State Fault Refusal :=
  s.onChip (fun ch => if ch.i2cOn then f ch else ch)

/-- A fault entry, kind 2, with no context (R514). -/
def Chip.logFault (ch : Chip) (code : Byte) (unit : Nat) (object : W16) (a0 a1 a2 : W32) : Chip :=
  ch.report 2 code unit object 0xFF a0 a1 a2

/-! ### Contexts and their queues (06: R151–R162; 20: R492) -/

/-- A context that is open for check 10 of Table 5-4 (Table 6-1). -/
def Context.isOpen (x : Context) : Bool :=
  match x.state with
  | .open | .resetting => true
  | _ => false

/-- Own depth plus the attached spare's (R162); queue k counts as in Table 6-3: 0 CMD, 1 RPL, 2 EVT, 3 + d WDATA, 7 + d RDATA. -/
def Context.depth (x : Context) (k : Fin 11) : Nat :=
  (match k.val with
   | 0 => x.cmdDepth
   | 1 => x.rplDepth
   | 2 => x.evt.depth
   | n => if n < 7 then x.wDepth.get (Fin.ofNat 4 (n - 3)) else x.rDepth.get (Fin.ofNat 4 (n - 7)))
  + (if x.spare = some k then x.spareDepth else 0)

/-- The context that holds a deck's lock (Table 6-6). -/
def DeckLock.holder (l : DeckLock) : Option Ctx :=
  match l.state with
  | .held i => some i
  | _ => none

/-- The holder, or the former owner of an orphaned deck. -/
def DeckLock.owner (l : DeckLock) : Option Ctx :=
  match l.state with
  | .free => none
  | .held i | .draining i | .window i => some i

/-- The code of a lock state, as in DECK_STATUS.lock (Table 7-6): 0 FREE, 1 HELD, 2 DRAINING, 3 WINDOW. -/
def LockState.code : LockState → Nat
  | .free => 0
  | .held _ => 1
  | .draining _ => 2
  | .window _ => 3

/-! ### Events (05: R138–R142; 20: R501) -/

/-- To whom an event goes (R140). -/
inductive Scope where
  | ctx (i : Ctx)
  | deck (d : Deck)
  | locks
  | all
  deriving DecidableEq, Repr

/-- The contexts a scope names now, each with the object of its record (R140). -/
def Chip.targets (ch : Chip) (sc : Scope) (object : W16) : List (Ctx × W16) :=
  match sc with
  | .ctx i => if (ch.ctxs.get i).isOpen then [(i, object)] else []
  | .deck d =>
    match (ch.decks.get d).lock.holder with
    | some i => if (ch.ctxs.get i).isOpen then [(i, object)] else []
    | none => []
  | .locks => allDecks.filterMap (fun d =>
      match (ch.decks.get d).lock.holder with
      | some i => if (ch.ctxs.get i).isOpen then some (i, deckObject d) else none
      | none => none)
  | .all => allCtxs.filterMap (fun i => if (ch.ctxs.get i).isOpen then some (i, object) else none)

/-- An event of class `code[7:5]` is lost from a queue: the lost count and the highest lost class (R142). -/
def EvtQueue.lose (q : EvtQueue) (code : Byte) : EvtQueue :=
  let k : BitVec 3 := code.extractLsb' 5 3
  { q with lost := satInc16 q.lost, lostClass := if q.lostClass.toNat < k.toNat then k else q.lostClass }

/-- Whether a record has this code and object (R141). -/
def EventRec.same (r : EventRec) (code : Byte) (object : W16) : Bool := r.code == code && r.object == object

/-- One more occurrence of a record (R141). -/
def EventRec.again (r : EventRec) (arg : W32) : EventRec := { r with count := sat8 (r.count.toNat + 1), arg := arg }

/-- An event meets an EVT queue of combined depth `depth`: it coalesces, takes a tail entry, or is lost (R141, R142). -/
def EvtQueue.push (q : EvtQueue) (depth : Nat) (code : Byte) (object : W16) (arg : W32) (time : W64) : EvtQueue :=
  if q.recs.any (fun r => r.same code object) then
    { q with recs := q.recs.map (fun r => if r.same code object then r.again arg else r) }
  else if depth ≤ q.recs.length ∨ (depth = q.recs.length + 1 ∧ code.toNat < 0xC0) then q.lose code
  else { q with recs := q.recs ++ [{ code := code, count := 1, object := object, arg := arg, time := time }] }

/-- Entries of the event path's input (R501). -/
def eventInput : Nat := 64

/-- An appender hands an event to Pass L in one step: the fault log takes it, and the event path's input when it has room;
otherwise it counts as lost in every EVT queue its scope names (R140, R501). The record carries the time t of the occurrence
(R431). -/
def Chip.postAt (ch : Chip) (t : W64) (code : Byte) (sc : Scope) (unit : Nat) (object : W16) (arg : W32) : Chip :=
  let cb : Byte := match sc with
    | .ctx i => BitVec.ofNat 8 i.val
    | _ => 0xFF
  let ts := ch.targets sc object
  let ch1 := ch.report 1 code unit object cb arg 0 0
  if ts.isEmpty then ch1
  else if ch1.events.length < eventInput then
    { ch1 with events := ch1.events ++ [{ code := code, arg := arg, time := t, targets := ts }] }
  else ts.foldl (fun c1 t => c1.modCtx t.1 (fun x => { x with evt := x.evt.lose code })) ch1

/-- An event that occurs now. -/
def Chip.post (ch : Chip) (code : Byte) (sc : Scope) (unit : Nat) (object : W16) (arg : W32) : Chip :=
  ch.postAt ch.now code sc unit object arg

/-- An event of a deck with the deck as its object, to the deck's holder (scope D). -/
def Chip.postDeck (ch : Chip) (d : Deck) (code : Byte) (unit : Nat) (arg : W32) : Chip :=
  ch.post code (.deck d) unit (deckObject d) arg

/-- Delivery of one accepted event to the contexts it named that are still open (R140–R142). -/
def Chip.deliver (ch : Chip) (e : Event) : Chip :=
  e.targets.foldl (fun c1 t => c1.modCtx t.1 (fun x =>
    if x.isOpen then { x with evt := x.evt.push (x.depth 2) e.code t.2 e.arg e.time } else x)) ch

/-! ### Lock state changes (06: R163; 21: R513) -/

/-- A change of a deck's lock, with its LOCK_STATE trace (R513 kind 3). -/
def Chip.setLock (ch : Chip) (d : Deck) (l : DeckLock) : Chip :=
  let old := (ch.decks.get d).lock
  let ch1 := ch.modDeck d (fun k => { k with lock := l })
  if old.state = l.state then ch1
  else
    let who := match l.owner with
      | some i => some i
      | none => none
    let unit := match (match l.owner with | some i => some i | none => old.owner) with
      | some i => if (ch.ctxs.get i).state = CtxState.closed then 11 else 11 + (ch.ctxs.get i).port.val
      | none => 11
    ch1.report 3 0x01 unit (deckObject d) 0xFF (BitVec.ofNat 32 l.state.code)
      (match who with
       | some i => BitVec.ofNat 32 i.val
       | none => 0xFF) 0

/-! ### Completions (05: R125; 01: R21) -/

/-- A reply of type 0x80 or 0x81 of a context, before its attention nibble. -/
def ctxReply (type : Byte) (i : Ctx) (tag : W16) (rcrc : Bool) (st : Stat) (payload : List Byte) (time : W64) : Reply :=
  { type := type, ctx := BitVec.ofNat 8 i.val, tag := tag, stat := st, payload := payload, trailer := rcrc, time := time, fetch := none }

/-- The first command of the list with this tag leaves it. -/
def dropTag (tag : W16) : List Executing → List Executing
  | [] => []
  | e :: es => if e.tag = tag then es else e :: dropTag tag es

/-- A command of context i that names deck d is executing. -/
def Context.working (x : Context) (d : Deck) : Bool := x.executing.any (fun e => e.deck == some d)

/-- The leases of context i's locks stand still while a command that names the deck executes: their run starts again at the full
length when it ends (R167). -/
def Chip.restartLeases (ch : Chip) (i : Ctx) : Chip :=
  { ch with decks := (ch.decks.zipIdx).map (fun k =>
      if k.1.lock.state = .held i ∧ (ch.ctxs.get i).working (Fin.ofNat 4 k.2) then
        { k.1 with lock := { k.1.lock with leaseAt := ch.now, warned := false } }
      else k.1) }

/-- The Cook writes a completion into a context's RPL queue, and the command stops executing (R21, R125). A context that is
not OPEN takes none (Table 6-9, step 1). -/
def Chip.complete (ch : Chip) (i : Ctx) (tag : W16) (rcrc : Bool) (st : Stat) (payload : List Byte) : Chip :=
  if (ch.ctxs.get i).state = .open then
    (ch.restartLeases i).modCtx i (fun x =>
      { x with rpl := x.rpl ++ [ctxReply 0x80 i tag rcrc st payload ch.now], executing := dropTag tag x.executing })
  else ch

/-- The notice that an entry of a Cook work queue carries. -/
def CookWork.notice : CookWork → Option Notice
  | .ended n => some n
  | .endedMove n => n
  | .reread _ => none

/-- An engine of deck d posts to its Cook work queue (R20, R21). -/
def Chip.tellCook (ch : Chip) (d : Deck) (w : CookWork) : Chip := ch.modDeck d (fun k => { k with cookQ := k.cookQ ++ [w] })

/-- An engine posts to its deck's Cook work queue the notice that ends a command (R21). -/
def Chip.notice (ch : Chip) (d : Deck) (n : Notice) : Chip := ch.tellCook d (.ended n)

/-- The Cook or the speed matcher posts a motion request to the deck work queue (R20). -/
def Chip.ask (ch : Chip) (d : Deck) (m : Motion) : Chip := ch.modDeck d (fun k => { k with workQ := k.workQ ++ [m] })

/-- Completions of context i staged at a port and not read to their last transfer. -/
def ReplyOut.unread (o : ReplyOut) (i : Ctx) : Nat :=
  (o.staged.filter (fun r => r.type == 0x80#8 && r.ctx.toNat == i.val)).length

/-- What a port holds for its replies. -/
def Chip.replyOut (ch : Chip) (p : Port) : ReplyOut := if h : p.val < 4 then (ch.ehran.get ⟨p.val, h⟩).out else ch.spi.out

def Chip.modReplyOut (ch : Chip) (p : Port) (f : ReplyOut → ReplyOut) : Chip :=
  if h : p.val < 4 then ch.modEhran ⟨p.val, h⟩ (fun e => { e with out := f e.out })
  else { ch with spi := { ch.spi with out := f ch.spi.out } }

/-- `outstanding` of R492: waiting commands, taken commands, and completions the host has not read to their last transfer. -/
def Chip.outstanding (ch : Chip) (i : Ctx) : Nat :=
  let x := ch.ctxs.get i
  x.cmd.length + x.executing.length + (x.rpl.filter (fun r => r.type == 0x80#8)).length + (ch.replyOut x.port).unread i

/-! ### Attention (05: R132, R133) -/

/-- The summary of a context as a nibble: ATN in bit 3, summary class below (R132). -/
def Context.nibble (x : Context) : BitVec 4 :=
  if x.evt.recs.isEmpty then 0
  else BitVec.ofNat 4 (8 + (x.evt.recs.map (fun r => r.code.toNat / 32)).foldl max 0)

/-- The Cook can take work: running, or about to resume after a trap (R495, R518), and the device is not in SAFE. -/
def Chip.cookCan (ch : Chip) : Bool :=
  !ch.cook.safe && !ch.power.warning && ch.power.cookTook &&
  (match ch.cook.state with
   | .running | .handler => true
   | _ => false)

end Sys2Proof.Machine
end

