-- ==== Sys2Proof/Machine/Timebase.lean ====
section
/-! DEFINITION. The Hourglass counter, the health monitor and the delay lines (02: R45–R54, R64). -/

namespace Sys2Proof.Machine

def Chip.modTb (ch : Chip) (f : Timebase → Timebase) : Chip := { ch with timebase := f ch.timebase }

/-- Domain n is on (R465). -/
def Chip.domOn (ch : Chip) (n : Nat) : Bool := (ch.domains.on[n]?).getD false

def Chip.modDom (ch : Chip) (f : Domains → Domains) : Chip := { ch with domains := f ch.domains }

/-- HGREF drives the counter: ref_state is ACQUIRING or LOCKED (R47). -/
def Timebase.onRef (t : Timebase) : Bool :=
  match t.refState with
  | .acquiring | .locked => true
  | _ => false

/-- TB_TRIM as a signed number of 0.01 ppm (R48). -/
def Timebase.trimValue (t : Timebase) : Int := t.trim.toInt

/-- Pinches of one coarse tick on HGREF before trim: 1,600 at 10 MHz, 800 at 20 MHz (R47). -/
def Timebase.nominalTick (t : Timebase) : Nat := if t.ref20 then 800 else 1600

/-- The shadow that was calibrated in the tick now ended goes into service; the former line is the shadow from now on (R49). -/
def Lines.swap (l : Lines) : Lines := { l with elements := l.next.getD l.elements, next := none }

/-- A coarse tick n pinches after the last one: the counter never runs back behind an instant it has shown (R47), and the shadow
lines that have been calibrated go into service (R49). -/
def Timebase.tick (t : Timebase) (n : W64) : Timebase :=
  { t with time := t.time + (if n.toNat < t.fine.toNat then t.fine.setWidth 64 else n), fine := 0,
           central := t.central.swap, decks := t.decks.map Lines.swap }

/-- One HGREF edge: the nominal tick corrected by TB_TRIM through the fractional accumulator, in 10⁻⁸ pinch (R47, R48). -/
def Timebase.refTick (t : Timebase) : Timebase :=
  let total : Int := (t.trimAcc : Int) + (t.nominalTick : Int) * t.trimValue
  { t.tick (BitVec.ofInt 64 ((t.nominalTick : Int) + total / 100000000)) with trimAcc := (total % 100000000).toNat }

/-- The longest tick of the internal ring: the longer nominal tick and the ring's tolerance of R46, ±5 % untrimmed and ±0.25 %
trimmed (log entry 1). -/
def Timebase.ringMost (t : Timebase) : Nat := if t.trimsRead then 1604 else 1680

/-- A tick of the internal ring: its length is a free value, at least one pinch past the instant last shown and at most
`ringMost`, so that the counter neither runs backwards nor jumps (R47; log entry 1). -/
def Timebase.ringTick (t : Timebase) (free : Nat) : W64 :=
  BitVec.ofNat 64 (t.fine.toNat + 1 + free % (t.ringMost - t.fine.toNat))

/-- COARSE_TICK: a rising HGREF edge or, before classification and in FREE_RUN, a tick of the internal ring. The entries of Pass L
that carry the instant now ended get their places first (R31). -/
def coarseTickEffect (ch : Chip) : Chip :=
  if ¬ ch.timebase.running then ch
  else
    let c1 := ch.settleLog
    if ch.timebase.onRef then c1.modTb Timebase.refTick
    else { c1.modTb (fun t => t.tick (t.ringTick (Config.ringTick ch.freeUsed))) with freeUsed := ch.freeUsed + 1 }

/-- The instant of a row that the delay lines resolve: `fine` pinches after the last coarse tick (R41, R50). Time never runs back
within a tick, and a fine part stays inside its tick. When it advances, the Pass L entries of the former instant get their
places (R31). -/
def Chip.stamp (ch : Chip) (fine : BitVec 11) : Chip :=
  let t := ch.timebase
  let f : BitVec 11 := BitVec.ofNat 11 (min fine.toNat (t.nominalTick - 1))
  if t.running ∧ t.fine.toNat < f.toNat then ch.settleLog.modTb (fun t => { t with fine := f }) else ch

/-- The step of a row whose instant the delay lines resolve (R41). -/
def State.onChipAt (s : State) (fine : BitVec 11) (f : Chip → Chip) : Host.Outcome State Fault Refusal :=
  s.onChip (fun ch => f (ch.stamp fine))

/-! ### Calibration (R49, R54) -/

/-- A shadow line whose calibration is not running starts one. -/
def Lines.start (l : Lines) : Lines := { l with shadowBusy := true }

/-- A calibration for a voltage step: one that already runs began before the step, so that another follows it (R49). -/
def Lines.startForStep (l : Lines) : Lines := if l.shadowBusy then { l with again := true } else l.start

/-- A calibration finishes: the shadow waits for the next coarse tick to go into service (R49). -/
def Lines.finish (l : Lines) (n : BitVec 13) : Lines :=
  { l with next := some n, valid := true, shadowBusy := l.again, again := false, calCount := l.calCount + 1 }

/-- The reference is lost: no period is left to count, so that no calibration stays valid and none runs (R49, R54). -/
def Lines.lose (l : Lines) : Lines := { l with next := none, valid := false, shadowBusy := false, again := false }

/-- Every line whose domain is on starts a calibration (R49); nothing without a reference to count against. -/
def Chip.calibrateBy (ch : Chip) (f : Lines → Lines) : Chip :=
  if ch.timebase.onRef then
    ch.modTb (fun t => { t with
      central := f t.central,
      decks := Vector.ofFn fun d : Deck => if ch.domOn (44 + d.val) then f (t.decks.get d) else t.decks.get d })
  else ch

/-- The calibrations of every millisecond, of TB_CTRL.cal_now and of a new reference: none starts beside a running one (R49, R65). -/
def Chip.calibrate (ch : Chip) : Chip := ch.calibrateBy Lines.start

/-- Some shadow calibration runs. -/
def Timebase.busy (t : Timebase) : Bool := t.central.shadowBusy || t.decks.toList.any (·.shadowBusy)

/-- LINE_CAL_DONE: set 0 is the central pair, 1 to 4 the lines of decks 0 to 3 (R49, R54; REF_RESTORED: R146). What Kettle then
does stands in `lineCalDoneEffect`. -/
def Chip.lineDone (ch : Chip) (set : Fin 5) (n : BitVec 13) : Chip :=
  let t := ch.timebase
  if ¬ t.onRef then ch
  else
    if h : set.val = 0 then
      if ¬ t.central.shadowBusy then ch
      else
        let c2 := ch.modTb (fun t => { t with central := t.central.finish n, refState := .locked, wasFree := false })
        if t.refState = .acquiring ∧ t.wasFree then c2.post Ev.refRestored .locks 149 0 0 else c2
    else
      let d : Deck := ⟨set.val - 1, by omega⟩
      if (t.decks.get d).shadowBusy then
        ch.modTb (fun t => { t with decks := t.decks.set d ((t.decks.get d).finish n) })
      else ch

/-- HGREF_CLASSIFY (R46): only after the trims are read, from ABSENT. -/
def hgrefClassifyEffect (is20 : Bool) (ch : Chip) : Chip :=
  if ch.timebase.trimsRead ∧ ch.timebase.refState = .absent then
    (ch.modTb (fun t => { t with refState := .acquiring, ref20 := is20 })).calibrate
  else ch

/-- REFERENCE_RESTORE (R54): from FREE_RUN, perhaps in the other class. -/
def referenceRestoreEffect (is20 : Bool) (ch : Chip) : Chip :=
  if ch.timebase.refState = .freeRun then
    (ch.modTb (fun t => { t with refState := .acquiring, ref20 := is20 })).calibrate
  else ch

/-! ### Register effects (R48, R51, R64) -/

/-- TB_TRIM takes a written value clamped to ±10,000 (R48). -/
def clampTrim (v : W16) : W16 :=
  if v.toInt < -10000 then BitVec.ofInt 16 (-10000) else if 10000 < v.toInt then 10000 else v

def tbTrimWriteEffect (value : W32) (ch : Chip) : Chip := ch.modTb (fun t => { t with trim := clampTrim (value.setWidth 16) })
def tbClearLossEffect (ch : Chip) : Chip := ch.modTb (fun t => { t with lossCount := 0 })
/-- A read of TB_TIME_LO latches bits [63:32] (R51). -/
def tbTimeLoReadEffect (ch : Chip) : Chip := ch.modTb (fun t => { t with timeLatch := ch.now.extractLsb' 32 32 })

/-! ### The commands -/

/-- COARSE_TICK (R47, R48). -/
def execCoarseTick (s : State) : Host.Outcome State Fault Refusal := s.onChip coarseTickEffect
/-- HGREF_CLASSIFY (R46). -/
def execHgrefClassify (is20 : Bool) (s : State) : Host.Outcome State Fault Refusal := s.onChip (hgrefClassifyEffect is20)
/-- REFERENCE_RESTORE (R54). -/
def execReferenceRestore (is20 : Bool) (s : State) : Host.Outcome State Fault Refusal := s.onChip (referenceRestoreEffect is20)
/-- LINE_CALIBRATION (R49). -/
def execLineCalibration (s : State) : Host.Outcome State Fault Refusal := s.onChip Chip.calibrate
/-- TB_CTRL.cal_now (R49): a calibration already running is not started again. -/
def tbCalNowEffect (ch : Chip) : Chip := ch.calibrate
def execTbCalNow (s : State) : Host.Outcome State Fault Refusal := s.onRegister tbCalNowEffect
/-- TB_CTRL.clear_loss (R64). -/
def execTbClearLoss (s : State) : Host.Outcome State Fault Refusal := s.onRegister tbClearLossEffect
/-- TB_TRIM (R48). -/
def execTbTrimWrite (value : W32) (s : State) : Host.Outcome State Fault Refusal := s.onRegister (tbTrimWriteEffect value)
/-- TB_TIME_LO read (R51). -/
def execTbTimeLoRead (s : State) : Host.Outcome State Fault Refusal := s.onRegister tbTimeLoReadEffect

end Sys2Proof.Machine
end

