-- ==== Sys2Proof/Machine/Funnel.lean ====
section
/-! DEFINITION. Funnel: rounds, grants, windows, parking, freezing and counters of its 18 site instances (10: R248–R266). -/

namespace Sys2Proof.Machine

/-- Site kind of an instance: 0 F-BANK, 1 F-PORT, 2 F-MOVE (R248). -/
def siteKind (s : Fin 18) : Fin 3 := if s.val < 16 then 0 else if s.val = 16 then 1 else 2

/-- Inputs of a site kind (Table 10-1). -/
def siteInputs (k : Fin 3) : Nat := if k.val = 0 then 12 else if k.val = 1 then 64 else 32

def Chip.modSite (ch : Chip) (s : Fin 18) (f : Site → Site) : Chip :=
  { ch with funnel := { ch.funnel with sites := ch.funnel.sites.set s (f (ch.funnel.sites.get s)) } }

/-- Offsets of a site kind in a generation (R257). -/
def Generation.offsets (g : Generation) (k : Fin 3) : List W16 :=
  if k.val = 0 then g.ofsBank.toList else if k.val = 1 then g.ofsPort.toList else g.ofsMove.toList

/-! ### Deadlines (R257, R258) -/

/-- An Hourglass time in deadline units, 32 bits. -/
def deadlineUnits (t : W64) : W32 := (t >>> 10).setWidth 32

/-- A request of input i raised at time t under the offsets `ofs`. -/
def raiseRequest (ofs : List W16) (i : Nat) (blocks : List Nat) (t : W64) : Request :=
  { input := i, blocks := blocks, raised := t, deadline := deadlineUnits t + ((ofs[i]?).getD 0).setWidth 32, lostR := 0 }

/-- Lateness of a request at a round (R258). -/
def Request.lateness (r : Request) (now : W32) : Int := (now - r.deadline).toInt

/-- A request that lost a round (R251, R258): under DEADLINE its deadline moves nearer, as far as the limit of lateness. -/
def Request.lose (r : Request) (deadline : Bool) (step : W16) (now : W32) : Request :=
  let l := r.lateness now
  { r with lostR := r.lostR + 1,
           deadline := if deadline then
               (if 0x3FFFFFFF ≤ l then r.deadline
                else if 0x3FFFFFFF < l + step.toNat then now - 0x3FFFFFFF#32
                else r.deadline - step.setWidth 32)
             else r.deadline }

/-! ### Windows (R254, R255) -/

/-- W, quota and burst limit with 0 acting as 1. -/
def SiteCfg.windowSize (c : SiteCfg) : Nat := max 1 c.window.toNat
def SiteCfg.quotaSize (c : SiteCfg) : Nat := max 1 c.quota.toNat
def SiteCfg.burstSize (c : SiteCfg) : Nat := max 1 c.burst.toNat

/-- Grants of input i in the present window. -/
def Site.countOf (s : Site) (i : Nat) : Nat :=
  match s.counts.find? (fun x => x.1 == i) with
  | some x => x.2
  | none => 0

/-- Input i is masked: FIXED rank, a quota input, its quota used (R254). -/
def Site.masked (s : Site) (i : Nat) : Bool :=
  !s.cfg.deadline && decide (s.cfg.threshold.toNat ≤ i) && decide (s.cfg.quotaSize ≤ s.countOf i)

/-- A new window. -/
def Site.newWindow (s : Site) : Site := { s with used := 0, counts := [] }

/-- One more grant in the window, which ends with its W-th (R255). -/
def Site.noteGrant (s : Site) (i : Nat) : Site :=
  let s1 := { s with used := s.used + 1,
                     counts := if s.cfg.threshold.toNat ≤ i then (i, s.countOf i + 1) :: s.counts.filter (fun x => x.1 != i)
                       else s.counts }
  if s.cfg.windowSize ≤ s1.used then s1.newWindow else s1

/-! ### Counters (R263) -/

/-- A grant after `lost` rounds and `us` microseconds. -/
def InputCounters.granted (k : InputCounters) (lost us : Nat) : InputCounters :=
  { k with grants := satInc32 k.grants, waitR := satU32 (max k.waitR.toNat lost), waitUs := satU32 (max k.waitUs.toNat us) }

/-- Changes the counters of input i of a site kind. -/
def Funnel.modCnt (f : Funnel) (k : Fin 3) (i : Nat) (g : InputCounters → InputCounters) : Funnel :=
  if k.val = 0 then { f with bankCnt := f.bankCnt.setIfInBounds i (g ((f.bankCnt[i]?).getD .reset)) }
  else if k.val = 1 then { f with portCnt := f.portCnt.setIfInBounds i (g ((f.portCnt[i]?).getD .reset)) }
  else { f with moveCnt := f.moveCnt.setIfInBounds i (g ((f.moveCnt[i]?).getD .reset)) }

def Chip.modCnt (ch : Chip) (k : Fin 3) (i : Nat) (g : InputCounters → InputCounters) : Chip :=
  { ch with funnel := ch.funnel.modCnt k i g }

/-- Whole microseconds from t to now: a pinch is 62.5 ps (R7). -/
def waitedUs (t now : W64) : Nat := (now - t).toNat / 16000

/-! ### Adoption of a generation (R259, R262) -/

/-- The site adopts the active settings at the start of its next round. -/
def Site.adopt (s : Site) (c : SiteCfg) (ofs : List W16) : Site :=
  let changed := decide (s.cfg.deadline ≠ c.deadline ∨ s.cfg.threshold ≠ c.threshold ∨ s.cfg.window ≠ c.window ∨ s.cfg.quota ≠ c.quota)
  let reqs := if ¬ s.cfg.deadline ∧ c.deadline then
      s.requests.map (fun r => { raiseRequest ofs r.input r.blocks r.raised with lostR := r.lostR })
    else s.requests
  let s1 := { s with cfg := c, ofs := ofs, requests := reqs, parked := s.parked && c.park }
  if changed then s1.newWindow else s1

/-! ### Blocks and requests (R248, R249) -/

/-- Blocks that an F-BANK input serves (Table 10-2). -/
def bankBlocksOf (i : Nat) : Nat := if i = 1 then 5 else if i = 3 then 6 else if 4 ≤ i then 2 else 1

/-- The domain of block b of F-BANK input i is on (Table 10-2, Table 10-7): port data movement's port, Whisk decompress or compress,
Roller or Strainer; the others are always on. -/
def Chip.blockOn (ch : Chip) (i b : Nat) : Bool :=
  if i = 1 then ch.domOn (11 + b)
  else if i < 4 then true
  else if i < 8 then ch.domOn (49 - b + 6 * (i - 4))
  else if b = 0 then ch.domOn (50 + 6 * (i - 8)) else ch.domOn (51 + 6 * (i - 8)) || ch.domOn (52 + 6 * (i - 8))

/-- The domain behind an input is on (Table 10-7): some block's at F-BANK, the context's island at F-PORT, the group's at F-MOVE. -/
def Chip.inputOn (ch : Chip) (k : Fin 3) (i : Nat) : Bool :=
  if k.val = 0 then (List.range (bankBlocksOf i)).any (ch.blockOn i)
  else if k.val = 1 then ch.domOn (16 + i / 4)
  else ch.domOn (32 + i / 8)

/-- Input i may request: at F-PORT its context is OPEN with a command in its CMD queue (Table 10-1). -/
def Chip.mayRequest (ch : Chip) (k : Fin 3) (i : Nat) : Bool :=
  decide (i < siteInputs k) && ch.inputOn k i &&
  (if h : k.val = 1 ∧ i < 64 then
     decide ((ch.ctxs.get ⟨i, h.2⟩).state = .open) && !(ch.ctxs.get ⟨i, h.2⟩).cmd.isEmpty
   else true)

/-- The blocks among `bs` that may present a word on F-BANK input i; at F-MOVE a channel presents its own. -/
def Chip.presenting (ch : Chip) (k : Fin 3) (i : Nat) (bs : List Nat) : List Nat :=
  if k.val = 0 then bs.filter (fun b => decide (b < bankBlocksOf i) && ch.blockOn i b) else bs

/-- The block whose word is next on an input: the first waiting one after the one served last, in the fixed rotation; a block with no
word waiting is skipped (R249). -/
def Site.nextBlock (s : Site) (i : Nat) (waiting : List Nat) : Nat :=
  let n := bankBlocksOf i
  let last := ((s.turns.find? (fun x => x.1 == i)).map (fun x => x.2)).getD (n - 1)
  (((List.range n).map (fun j => (last + 1 + j) % n)).find? (fun b => waiting.contains b)).getD 0

/-- The owner's next unit begins with the block whose turn it is. -/
def Site.turnTo (s : Site) (i : Nat) (waiting : List Nat) : Site :=
  let b := s.nextBlock i waiting
  { s with inUse := false, block := b, turns := (i, b) :: s.turns.filter (fun x => x.1 != i) }

/-- The Hourglass time at which admission placed the command at the head of context i's CMD queue (R257). -/
def Chip.headAt (ch : Chip) (i : Ctx) : W64 := ((ch.ctxs.get i).cmdAt.head?).getD ch.now

/-- F-PORT's requests: one for each context that is OPEN with a command in its CMD queue, but for the owner of an active grant,
raised for the command now at the head (Table 10-1, R257). -/
def Chip.portRequests (ch : Chip) (s : Site) : List Request :=
  allCtxs.filterMap (fun i =>
    if ch.mayRequest 1 i.val && !(s.granted && s.owner == i.val) then
      some ((s.requests.find? (fun r => r.input == i.val && r.raised == ch.headAt i)).getD (raiseRequest s.ofs i.val [0] (ch.headAt i)))
    else none)

/-- One input's request among those collected so far: a pending one goes on, with the blocks that wait now. -/
def Chip.addWanting (ch : Chip) (k : Fin 3) (s : Site) (rs : List Request) (x : Wanting) : List Request :=
  let bs := ch.presenting k x.input x.blocks
  if ch.mayRequest k x.input && !bs.isEmpty && !(s.granted && s.owner == x.input) && !rs.any (fun r => r.input == x.input) then
    rs ++ [match s.requests.find? (fun r => r.input == x.input) with
      | some r => { r with blocks := bs }
      | none => raiseRequest s.ofs x.input bs (ch.now - BitVec.ofNat 64 (1024 * x.ago.toNat))]
  else rs

/-- The requests at a site now: at F-PORT the contexts give them; elsewhere they are the ones of `wanting`, and an input that is not
among these has dropped its request (R248). -/
def Chip.collect (ch : Chip) (k : Fin 3) (s : Site) (wanting : List Wanting) : Site :=
  { s with requests := if k = 1 then ch.portRequests s else wanting.foldl (ch.addWanting k s) [] }

/-- Requests of inputs whose domain has gone off are withdrawn without a grant (Table 10-7). -/
def Chip.withdrawOff (ch : Chip) : Chip :=
  { ch with funnel := { ch.funnel with sites := Vector.ofFn (fun n =>
      let s := ch.funnel.sites.get n
      { s with requests := (s.requests.map (fun r => { r with blocks := ch.presenting (siteKind n) r.input r.blocks })).filter (fun r =>
          ch.inputOn (siteKind n) r.input && !r.blocks.isEmpty) }) } }

/-! ### Rounds and grants (R251–R253) -/

/-- The winner among requests: FIXED takes the highest input, DEADLINE the greatest lateness, a tie the higher input. -/
def pickWinner (deadline : Bool) (now : W32) (rs : List Request) : Option Request :=
  rs.foldl (fun best r =>
    match best with
    | none => some r
    | some b =>
      if deadline then
        (if b.lateness now < r.lateness now ∨ (b.lateness now = r.lateness now ∧ b.input < r.input) then some r else best)
      else if b.input < r.input then some r else best) none

/-- The grant of a request begins, with the window's count and the counters. -/
def Chip.grant (ch : Chip) (n : Fin 18) (r : Request) : Chip :=
  let k := siteKind n
  (ch.modSite n (fun s =>
    Site.noteGrant ({ s with owner := r.input, granted := true, units := 0, burst := s.cfg.burstSize, parked := false,
                             requests := s.requests.filter (fun x => x.input != r.input) }.turnTo r.input r.blocks) r.input)).modCnt k r.input
    (fun c => c.granted r.lostR (waitedUs r.raised ch.now))

/-- A round over the requests of a site (R251, R254, R258). -/
def Chip.round (ch : Chip) (n : Fin 18) : Chip :=
  let k := siteKind n
  let s := ch.funnel.sites.get n
  let now := deadlineUnits ch.now
  let s1 := if s.requests.all (fun r => s.masked r.input) then s.newWindow else s
  match pickWinner s1.cfg.deadline now (s1.requests.filter (fun r => !s1.masked r.input)) with
  | none => ch
  | some w =>
    let losers := s1.requests.filter (fun r => r.input != w.input)
    let c1 := losers.foldl (fun c r => c.modCnt k r.input (fun x => { x with lost := satInc32 x.lost }))
      (ch.modSite n (fun _ => { s1 with requests := s1.requests.map (fun r =>
          if r.input = w.input then r else r.lose s1.cfg.deadline s1.cfg.aging now) }))
    c1.grant n w

/-- A round begins: the site adopts the active generation first (R27, R262). -/
def Chip.beginRound (ch : Chip) (n : Fin 18) (s : Site) : Chip :=
  let k := siteKind n
  (ch.modSite n (fun _ => s.adopt (ch.passQ.active.sites.get k) (ch.passQ.active.offsets k))).round n

/-- The site serves the requests it has: a parked owner that alone requests is granted without a round (R253), and holds a new window's
round when it is masked (Table 10-7); otherwise a round decides. -/
def Chip.serve (ch : Chip) (n : Fin 18) (s : Site) : Chip :=
  match s.requests with
  | [] => ch.modSite n (fun _ => s)
  | [r] =>
    if s.parked ∧ r.input = s.owner ∧ ¬ s.masked r.input then (ch.modSite n (fun _ => s)).grant n r else ch.beginRound n s
  | _ => ch.beginRound n s

/-- FUNNEL_ROUND (R251, R253, R260): a frozen site, or one with a grant active, only takes note of the requests. -/
def funnelRoundEffect (n : Fin 18) (wanting : List Wanting) (ch : Chip) : Chip :=
  if ¬ ch.power.core then ch
  else
    let s := ch.collect (siteKind n) (ch.funnel.sites.get n) wanting
    if s.frozen ∨ s.granted then ch.modSite n (fun _ => s) else ch.serve n s

/-- The owner of a grant still requests: at F-PORT while its context is OPEN with a command left (Table 10-1), elsewhere while a block
of it has a word left. -/
def Chip.stillRequests (ch : Chip) (n : Fin 18) (owner : Nat) (waiting : List Nat) : Bool :=
  ch.mayRequest (siteKind n) owner && (decide (siteKind n = 1) || !(ch.presenting (siteKind n) owner waiting).isEmpty)

/-- The requests of inputs other than a site's owner. -/
def Chip.others (ch : Chip) (n : Fin 18) (s : Site) : List Request := if siteKind n = 1 then ch.portRequests s else s.requests

/-- FUNNEL_UNIT_DONE: `waiting` are the owner's blocks that still have a word (R249, R252, R253, R257). -/
def funnelUnitDoneEffect (n : Fin 18) (waiting : List Nat) (ch : Chip) : Chip :=
  let s := ch.funnel.sites.get n
  let bs := ch.presenting (siteKind n) s.owner waiting
  let again := ch.stillRequests n s.owner waiting
  if ¬ s.granted then ch
  else if s.units + 1 < s.burst ∧ again then ch.modSite n (fun s => { s with units := s.units + 1 }.turnTo s.owner bs)
  else
    let rs := ch.others n s
    let t := if h : siteKind n = 1 ∧ s.owner < 64 then ch.headAt ⟨s.owner, h.2⟩ else ch.now
    ch.modSite n (fun s => { s with
      units := s.units + 1, granted := false, inUse := false, parked := s.cfg.park && !s.frozen && rs.isEmpty,
      requests := if again then rs ++ [raiseRequest s.ofs s.owner (if siteKind n = 1 then [0] else bs) t] else rs })

/-- PARKED_REGRANT: the parked owner requests and no other input does (R253; a masked owner wins a new window's round). -/
def parkedRegrantEffect (n : Fin 18) (waiting : List Nat) (ch : Chip) : Chip :=
  let s0 := ch.funnel.sites.get n
  let s := ch.collect (siteKind n) s0 [{ input := s0.owner, ago := 0, blocks := waiting }]
  if ch.power.core ∧ s.parked ∧ ¬ s.frozen ∧ ¬ s.granted ∧ s.requests.map (·.input) = [s.owner] ∧
      (ch.others n s0).all (fun r => r.input == s.owner) then ch.serve n s
  else ch

/-! ### Use of a grant (R252) -/

/-- The owner of site n's grant is input i, and the unit it has been granted is still to be used. -/
def Chip.grantFor (ch : Chip) (n : Fin 18) (i : Nat) : Bool :=
  let s := ch.funnel.sites.get n
  s.granted && s.owner == i && !s.inUse

/-- The resource starts the unit, which then always completes (R252). -/
def Chip.useGrant (ch : Chip) (n : Fin 18) : Chip := ch.modSite n (fun s => { s with inUse := true })

/-- A site that is frozen serves only the grant that was active when it froze (R260, R261). -/
def Chip.siteOpen (ch : Chip) (n : Fin 18) : Bool :=
  let s := ch.funnel.sites.get n
  !s.frozen || s.granted

/-! ### Registers (R260, R263, R265) -/

/-- FUNNEL_FREEZE: bit n freezes site n; a freeze ends a park. -/
def funnelFreezeEffect (value : W32) (ch : Chip) : Chip :=
  (List.finRange 18).foldl (fun c n =>
    c.modSite n (fun s => { s with frozen := value.getLsbD n.val, parked := s.parked && !value.getLsbD n.val })) ch

/-- FUNNEL_CTRL.clear. -/
def funnelClearEffect (value : W32) (ch : Chip) : Chip :=
  { ch with funnel := { ch.funnel with
      bankCnt := if value.getLsbD 0 then Vector.replicate 12 .reset else ch.funnel.bankCnt,
      portCnt := if value.getLsbD 1 then Vector.replicate 64 .reset else ch.funnel.portCnt,
      moveCnt := if value.getLsbD 2 then Vector.replicate 32 .reset else ch.funnel.moveCnt } }

/-- The counters of an input; zero beyond the site's last input (R265). -/
def Funnel.counters (f : Funnel) (k i : Nat) : InputCounters :=
  if k = 0 then (f.bankCnt[i]?).getD .reset
  else if k = 1 then (f.portCnt[i]?).getD .reset
  else (f.moveCnt[i]?).getD .reset

/-- FUNNEL_CSEL: the selection and the snapshot; site 3 acts as 2. -/
def funnelCselEffect (value : W32) (ch : Chip) : Chip :=
  let i := value.extractLsb' 0 7
  let k := value.extractLsb' 8 2
  { ch with funnel := { ch.funnel with
      cselIn := i, cselSite := k, cselBank := value.extractLsb' 12 4, snap := ch.funnel.counters k.toNat i.toNat } }

/-- FUNNEL_DRAINED of a site (R260). -/
def Site.drained (s : Site) : Bool := s.frozen && !s.granted

/-! ### The commands -/

/-- FUNNEL_ROUND (R251). -/
def execFunnelRound (n : Fin 18) (wanting : List Wanting) (s : State) : Host.Outcome State Fault Refusal :=
  s.onChip (funnelRoundEffect n wanting)
/-- FUNNEL_UNIT_DONE (R252). -/
def execFunnelUnitDone (n : Fin 18) (waiting : List Nat) (s : State) : Host.Outcome State Fault Refusal :=
  s.onChip (funnelUnitDoneEffect n waiting)
/-- PARKED_REGRANT (R253). -/
def execParkedRegrant (n : Fin 18) (waiting : List Nat) (s : State) : Host.Outcome State Fault Refusal :=
  s.onChip (parkedRegrantEffect n waiting)
/-- FUNNEL_FREEZE (R260). -/
def execFunnelFreeze (value : W32) (s : State) : Host.Outcome State Fault Refusal := s.onRegister (funnelFreezeEffect value)
/-- FUNNEL_CTRL (R263). -/
def execFunnelClear (value : W32) (s : State) : Host.Outcome State Fault Refusal := s.onRegister (funnelClearEffect value)
/-- FUNNEL_CSEL (R265). -/
def execFunnelCsel (value : W32) (s : State) : Host.Outcome State Fault Refusal := s.onRegister (funnelCselEffect value)

end Sys2Proof.Machine
end

