-- ==== Sys2Proof/Machine/Headers.lean ====
section
/-! DEFINITION. What Ladle keeps in the buffer itself: cell headers and free-block links, and the retirement of units (09: R228–R232;
11: R293; 01: R29). -/

namespace Sys2Proof.Machine

/-! ### Retirement of units (11: R293; 01: R29) -/

/-- Whether a retirement entry of the list names kind k, index i (R293: 1 cell, 2 block, 3 bank). -/
def retEntry (rs : List RetEntry) (k i : Nat) : Bool := rs.any (fun r => r.kind.toNat == k && r.index.toNat == i)

/-- Cell i is retired by its own entry, by that of the block its range lies in, or by its bank's (R293). -/
def cellRetired (rs : List RetEntry) (i : Nat) : Bool := retEntry rs 1 i || retEntry rs 2 (i / 256) || retEntry rs 3 (i / 1024)

/-- Block j is retired by its own entry, by that of a cell whose range lies in it, or by its bank's (R293). -/
def blockRetired (rs : List RetEntry) (j : Nat) : Bool :=
  retEntry rs 2 j || rs.any (fun r => r.kind.toNat == 1 && r.index.toNat / 256 == j) || retEntry rs 3 (j / 4)

/-- The retirement list of the active generation (R29). -/
def Chip.retireList (ch : Chip) : List RetEntry := ch.passQ.active.retire.toList

/-! ### Places in a list -/

/-- The cell after position p of a list, or 0x7FFF. -/
def nextOf (l : List Nat) (p : Nat) : Nat := (l[p + 1]?).getD 0x7FFF

/-- Place of x in a list, if it is there. -/
def placeOf (x : Nat) : List Nat → Option Nat
  | [] => none
  | y :: ys => if x = y then some 0 else (placeOf x ys).map (· + 1)

/-- The chain that contains cell i, with i's place in it. -/
def chainWith (cs : List Chain) (i : Nat) : Option (Chain × Nat) :=
  match cs with
  | [] => none
  | k :: ks => match placeOf i k.cells with
    | some p => some (k, p)
    | none => chainWith ks i

/-- Cells of the chain whose head is at an address. -/
def Chip.chainAt (ch : Chip) (a : Nat) : List Nat :=
  match ch.ladle.chains.find? (fun x => x.cells.head? == some (a / 256)) with
  | some x => x.cells
  | none => []

/-! ### Headers and links (R228, R229, R232) -/

/-- The check tag of cell i's header (R229). -/
def headerTag (i w0 w1 w2 : Nat) : Nat := ((((0x5A5A ^^^ i) ^^^ w0) ^^^ w1) ^^^ w2)

/-- A header with its check tag (R228, R229) of cell i. -/
def headerBits (i w0 w1 w2 : Nat) : W64 :=
  BitVec.ofNat 64 (w0 + 65536 * w1 + 4294967296 * w2 + 281474976710656 * headerTag i w0 w1 w2)

/-- The header of cell i as Ladle has written it (R228): of an allocated chain, of a retired cell, or of a free cell. -/
def cellHeader (l : Ladle) (i : Nat) : W64 :=
  match chainWith l.chains i with
  | some (k, p) =>
    headerBits i (nextOf k.cells p + (if p = 0 then 0x8000 else 0)) (k.owner + 256 * k.holders.length)
      (if p = 0 then k.cells.length else p)
  | none =>
    if l.retired.contains i then headerBits i 0x7FFF 126 0
    else headerBits i (match placeOf i l.freeCells with
                       | some p => nextOf l.freeCells p
                       | none => 0x7FFF) 127 0

/-- A header word's data passes the tag check of cell i (R229). -/
def headerOk (i : Nat) (data : List Byte) : Bool :=
  decide (leAt data 6 2 = headerTag i (leAt data 0 2) (leAt data 2 2) (leAt data 4 2))

/-- Bytes 0 to 15 of a free block's link (R232). -/
def blockLink (l : Ladle) (j : Nat) : List Byte :=
  let next := match placeOf j l.freeBlocks with
    | some p => (l.freeBlocks[p + 1]?).getD 0xFFFF
    | none => 0xFFFF
  leBytes 2 next ++ leBytes 2 j ++ leBytes 2 ((0xB10C ^^^ next) ^^^ j) ++ List.replicate 10 0#8

/-- A link word's data passes the check of block j (R232). -/
def linkOk (j : Nat) (data : List Byte) : Bool :=
  decide (leAt data 2 2 = j) && decide (leAt data 4 2 = (0xB10C ^^^ leAt data 0 2) ^^^ j)

/-! ### The words that hold them

The stored symbols of such a word are those of its list entry with the codeword of the header or link added: what Ladle writes into
all headers at once needs no entry in the list (log entry 79). -/

/-- Block j, in the block pool, holds a free-list link. -/
def Ladle.linked (l : Ladle) (j : Nat) : Bool :=
  l.built && decide (4 * l.cellBanks ≤ j) && (match l.blocks[j]? with
    | some b => decide (b.state = .free)
    | none => false)

/-- Storage word w begins a cell that has had a header since the lists were built. -/
def Ladle.headed (l : Ladle) (w : Nat) : Bool :=
  l.built && decide (w % 16 = 0) && decide (w < 16384 * l.headBanks) &&
    (decide (w < 16384 * l.cellBanks) || decide (w % 4096 ≠ 0))

/-- The 16 bytes that Ladle has put into storage word w: a free block's link, a cell's header and zeros, or nothing. -/
def Ladle.inWord (l : Ladle) (w : Nat) : List Byte :=
  if l.headed w then leBytes 8 (cellHeader l (w / 16)).toNat ++ List.replicate 8 0#8
  else if decide (w % 4096 = 0) && l.linked (w / 4096) then blockLink l (w / 4096)
  else []

/-- The symbols that 16 bytes add to those of the all-zero word (R271: the code is linear). -/
def addedSyms (data : List Byte) : List Byte :=
  match data with
  | [] => List.replicate 19 0#8
  | _ => rsRemainder sramGenerator (0#8 :: data.reverse) ++ data

/-- Symbols of two words added. -/
def addSyms (a b : List Byte) : List Byte := (List.range 19).map (fun i => byteAt a i ^^^ byteAt b i)

/-- The 19 symbols that the macros hold for word w. -/
def Chip.wordSyms (ch : Chip) (w : BitVec 18) : List Byte :=
  addSyms (memWord ch.sram.mem w) (addedSyms (ch.ladle.inWord w.toNat))

/-- The macros hold these symbols for word w from now on. -/
def Chip.putSyms (ch : Chip) (w : BitVec 18) (syms : List Byte) : Chip :=
  { ch with sram := { ch.sram with mem := memPutWord ch.sram.mem w (addSyms syms (addedSyms (ch.ladle.inWord w.toNat))) } }

/-- The words of which the list holds a symbol, rising. -/
def listedWords : List (Nat × Byte) → List Nat
  | [] => []
  | (a, _) :: m => match listedWords m with
    | w :: ws => if a / 32 = w then w :: ws else a / 32 :: w :: ws
    | [] => [a / 32]

end Sys2Proof.Machine
end

