-- ==== Sys2Proof/Machine/Sram.lean ====
section
/-! DEFINITION. The buffer SRAM at F-BANK: demand reads, writes, read-modify-writes, merge buffers, the Cook cache, Colander and the
erasure in force (11: R267–R297). -/

namespace Sys2Proof.Machine

def Chip.modSram (ch : Chip) (f : Sram → Sram) : Chip := { ch with sram := f ch.sram }

/-! ### One read at F-BANK (R272, R278, R296) -/

/-- Bank of word W (R267). -/
def wordBank (w : BitVec 18) : Fin 16 := Fin.ofNat 16 (w.toNat / 16384)

/-- The symbols that the macros return: the stored ones with the damage pattern added. -/
def damaged (syms err : List Byte) : List Byte := (List.range 19).map (fun i => byteAt syms i ^^^ byteAt err i)

/-- F-BANK decodes word W under the erasure in force. -/
def Chip.decodeWord (ch : Chip) (w : BitVec 18) (err : List Byte) : Decoded :=
  sramDecode (ch.sram.erased.map (fun f => f.val)) w (damaged (ch.wordSyms w) err)

/-- What the macros return wrong for word W while a command runs. -/
def errOf (dm : Damage) (w : BitVec 18) : List Byte :=
  match dm.find? (fun x => x.1 == w) with
  | some x => x.2
  | none => []

/-- Kind of SRAM_LAST_ERR (Table 11-6). -/
def WordResult.kind : WordResult → Nat
  | .clean => 0
  | .corrected => 1
  | .uncorrectable => 2
  | .address => 3
  | .poisoned => 4

/-- The position field: 31 when none was located. -/
def Decoded.position (r : Decoded) : Nat := r.pos.getD 31

/-- Adds one to a counter of macro m. -/
def bumpAt (v : Vector W32 19) (pos : Option Nat) : Vector W32 19 :=
  match pos with
  | some p => v.setIfInBounds p ((v[p]?).getD 0 + 1)
  | none => v

/-- The counters and SRAM_LAST_ERR after a read of word W by F-BANK input i (R278, R296). -/
def Sram.count (m : Sram) (i : Nat) (w : BitVec 18) (r : Decoded) : Sram :=
  let b := wordBank w
  let last : W32 := BitVec.ofNat 32 (w.toNat + 262144 * r.position + 8388608 * r.result.kind + 67108864 * i)
  match r.result with
  | .clean => m
  | .corrected => { m with corr := m.corr + 1, macros := bumpAt m.macros r.pos, lastErr := last }
  | .poisoned => { m with poison := m.poison + 1, macros := bumpAt m.macros r.pos, lastErr := last }
  | .uncorrectable => { m with uncorr := m.uncorr + 1, banks := m.banks.set b (m.banks.get b + 1), lastErr := last }
  | .address => { m with addr := m.addr + 1, banks := m.banks.set b (m.banks.get b + 1), lastErr := last }

/-- The fault-log entry of a read of word W (R278, R292, R514): Colander's POISONED results append nothing. -/
def Chip.logRead (ch : Chip) (i : Nat) (w : BitVec 18) (r : Decoded) : Chip :=
  let a1 : W32 := BitVec.ofNat 32 (r.position + 256 * i + 4096 * (wordBank w).val)
  match r.result with
  | .uncorrectable => ch.logFault 0x11 6 0 (w.setWidth 32) a1 0
  | .address => ch.logFault 0x12 6 0 (w.setWidth 32) a1 0
  | .poisoned => if i = 0 then ch else ch.logFault 0x13 6 0 (w.setWidth 32) a1 0
  | .clean | .corrected => ch

/-- Stores word W clean, or poisoned (R271, R275). -/
def Chip.storeWord (ch : Chip) (w : BitVec 18) (data : List Byte) (poison : Bool) : Chip :=
  ch.putSyms w (if poison then sramEncodePoison w data else sramEncode w data)

/-! ### Lines that the Cook holds (R286–R288, Table 11-4) -/

/-- Cache line of word W. -/
def lineOf (w : BitVec 18) : BitVec 17 := w.extractLsb' 1 17

/-- The set of a line: 32 sets (R286). -/
def setOf (l : BitVec 17) : Fin 32 := Fin.ofNat 32 l.toNat

/-- The word of a line that W names. -/
def CacheLine.word (l : CacheLine) (w : BitVec 18) : CacheWord := if w.getLsbD 0 then l.hi else l.lo

/-- The cached line that holds word W. -/
def Cache.find (c : Cache) (w : BitVec 18) : Option CacheLine := (c.sets.get (setOf (lineOf w))).find? (fun l => l.line == lineOf w)

/-- The line of the write-back buffer that holds word W; of two, the later one. -/
def Cache.findWb (c : Cache) (w : BitVec 18) : Option CacheLine := c.wb.reverse.find? (fun l => l.line == lineOf w)

/-- The line leaves the cache. -/
def Cache.invalidate (c : Cache) (l : BitVec 17) : Cache :=
  { c with sets := c.sets.set (setOf l) ((c.sets.get (setOf l)).filter (fun x => x.line != l)) }

/-- Both words of a line are written to the SRAM (R286). -/
def Chip.writeLine (ch : Chip) (l : CacheLine) : Chip :=
  (ch.storeWord (BitVec.ofNat 18 (2 * l.line.toNat)) l.lo.data l.lo.poison).storeWord (BitVec.ofNat 18 (2 * l.line.toNat + 1)) l.hi.data
    l.hi.poison

/-- What the Cook holds of word W when another input reads it: a dirty line or a line of the write-back buffer (Table 11-4). -/
def Cache.snoopRead (c : Cache) (w : BitVec 18) : Option CacheWord :=
  match c.find w with
  | some l => if l.dirty then some (l.word w) else none
  | none => (c.findWb w).map (fun l => l.word w)

/-- Another input writes word W (Table 11-4): a dirty line is written back first, lines of the write-back buffer are acknowledged
first, and the cached line is invalidated. -/
def Chip.snoopWrite (ch : Chip) (w : BitVec 18) : Chip :=
  let mine := ch.cache.wb.filter (fun l => l.line == lineOf w)
  let c1 := { mine.foldl (fun c l => c.writeLine l) ch with
                cache := { ch.cache with wb := ch.cache.wb.filter (fun l => l.line != lineOf w) } }
  match c1.cache.find w with
  | none => c1
  | some l =>
    let c2 := if l.dirty then c1.writeLine l else c1
    { c2 with cache := c2.cache.invalidate (lineOf w) }

/-! ### Accesses by F-BANK input (R276, R278, R285) -/

/-- Input 3 carries the Cook's own traffic. -/
def cookInput (i : Nat) : Bool := i == 3

/-- A demand read: classified, counted and logged; an UNCORRECTABLE word is written back poisoned in the same unit (R276). The
answer is the data with its poison flag. -/
def Chip.demandRead (ch : Chip) (i : Nat) (w : BitVec 18) (err : List Byte) : Chip × CacheWord :=
  match (if cookInput i then none else ch.cache.snoopRead w) with
  | some x => (ch, x)
  | none =>
    let r := ch.decodeWord w err
    let c1 := (ch.modSram (fun m => m.count i w r)).logRead i w r
    let c2 := if r.result = .uncorrectable then
        (if cookInput i then c1 else c1.snoopWrite w).storeWord w r.data true
      else c1
    (c2, { data := r.data, poison := r.isPoison })

/-- Data bytes with the bytes of a mask replaced. -/
def mergeBytes (mask : W16) (old new : List Byte) : List Byte :=
  (List.range 16).map (fun j => if mask.getLsbD j then byteAt new j else byteAt old j)

/-- A write of some bytes of a word by an engine, which poisons the word when what it writes derives from poison (R276, R285): of all 16
bytes a plain word write (R277), of fewer a read-modify-write unit, whose merged word is written poisoned when the read is not CLEAN
or CORRECTED. -/
def Chip.writeBytes (ch : Chip) (i : Nat) (w : BitVec 18) (mask : W16) (data : List Byte) (poison : Bool) (err : List Byte) : Chip :=
  let c0 := if cookInput i then ch else ch.snoopWrite w
  if mask = 0xFFFF then c0.storeWord w data poison
  else
    let r := c0.decodeWord w err
    let c1 := (c0.modSram (fun m => m.count i w r)).logRead i w r
    c1.storeWord w (mergeBytes mask r.data data) (poison || r.isPoison)

/-- One write of clean bytes: a plain word write, or one read-modify-write unit (R276, R277, R285). -/
def Chip.readModifyWrite (ch : Chip) (i : Nat) (w : BitVec 18) (mask : W16) (data err : List Byte) : Chip :=
  ch.writeBytes i w mask data false err

/-! ### Merge buffers (R282, R283) -/

/-- F-BANK input of a merge buffer: ports share input 1, Tongs groups input 2 (Table 10-2). -/
def mergeInput (b : Fin 9) : Nat := if b.val < 5 then 1 else 2

/-- One entry is flushed: a plain word write when its mask is full, else one read-modify-write unit. -/
def Chip.flushEntry (ch : Chip) (b : Fin 9) (dm : Damage) (e : MergeEntry) : Chip :=
  ch.readModifyWrite (mergeInput b) e.word e.mask e.data (errOf dm e.word)

/-- The entries of a buffer that satisfy `p` are flushed, oldest first. -/
def Chip.flushWhere (ch : Chip) (b : Fin 9) (dm : Damage) (p : MergeEntry → Bool) : Chip :=
  let es := ch.merge.get b
  (es.filter p).foldl (fun c e => c.flushEntry b dm e) { ch with merge := ch.merge.set b (es.filter (fun e => !p e)) }

/-- Every entry of a buffer is flushed: the transfer that wrote it ends (R283). -/
def Chip.flushBuffer (ch : Chip) (b : Fin 9) (dm : Damage) : Chip := ch.flushWhere b dm (fun _ => true)

/-- MERGE_WRITE (R282, R283): into the word's entry, or a free one, or one that the oldest leaves; a full mask flushes. -/
def Chip.mergeInto (ch : Chip) (b : Fin 9) (dm : Damage) (ctx : Option Ctx) (w : BitVec 18) (mask : W16) (data : List Byte) : Chip :=
  let es := ch.merge.get b
  let c1 :=
    if es.any (fun e => e.word == w) then
      { ch with merge := ch.merge.set b (es.map (fun (e : MergeEntry) =>
          if e.word = w then { e with data := mergeBytes mask e.data data, mask := e.mask ||| mask } else e)) }
    else
      let c0 := match es with
        | e :: rest => if 16 ≤ es.length then { ch with merge := ch.merge.set b rest }.flushEntry b dm e else ch
        | [] => ch
      { c0 with merge := c0.merge.set b (c0.merge.get b ++
          [{ word := w, data := mergeBytes mask (List.replicate 16 0) data, mask := mask, ctx := ctx }]) }
  c1.flushWhere b dm (fun e => e.mask == 0xFFFF)

/-- F-BANK site of word W's bank. -/
def bankSite (w : BitVec 18) : Fin 18 := Fin.castLE (by omega) (wordBank w)

/-- F-BANK serves word W: its own domain and the bank group's are on (R465, R470), and the bank is not frozen (R261). The group's
nineteen domains switch together, so macro 0's quarter stands for them. -/
def Chip.bankServes (ch : Chip) (w : BitVec 18) : Bool :=
  ch.domOn 6 && ch.domOn (72 + (wordBank w).val / 4) && ch.siteOpen (bankSite w)

/-- A merge buffer's domain is on: data movement for the ports, the group's for Tongs (Table 19-3). -/
def Chip.mergeOn (ch : Chip) (b : Fin 9) : Bool := ch.domOn (if b.val < 5 then 8 else 27 + b.val)

/-- MERGE_WRITE waits while a bank that it may have to write is not served. -/
def mergeWriteEffect (b : Fin 9) (ctx : Option Ctx) (w : BitVec 18) (mask : W16) (data : List Byte) (dm : Damage) (ch : Chip) : Chip :=
  if ch.mergeOn b ∧ mask ≠ 0 ∧ ch.bankServes w ∧ (ch.merge.get b).head?.all (fun e => ch.bankServes e.word) then
    ch.mergeInto b dm ctx w mask data
  else ch

/-- The buffers whose owner reads through input i. -/
def ownBuffers (i : Nat) : List (Fin 9) := if i = 1 then [0, 1, 2, 3, 4] else if i = 2 then [5, 6, 7, 8] else []

/-- Input i may access word W: its bank is served, and input i holds the bank's grant with a unit to use (R252). -/
def Chip.mayAccess (ch : Chip) (i : Fin 12) (w : BitVec 18) : Bool := ch.bankServes w && ch.grantFor (bankSite w) i.val

/-- WORD_READ: the reader's own merge entries for the word are flushed first (R283); the bytes delivered are kept for view. -/
def wordReadEffect (i : Fin 12) (w : BitVec 18) (err : List Byte) (ch : Chip) : Chip :=
  if ¬ ch.mayAccess i w then ch
  else
    let c0 := (ownBuffers i.val).foldl (fun c b => c.flushWhere b [(w, err)] (fun e => e.word == w)) (ch.useGrant (bankSite w))
    let r := c0.demandRead i.val w err
    { r.1 with readOut := BitVec.ofNat 8 (bit r.2.poison) :: r.2.data }

def wordWriteEffect (i : Fin 12) (w : BitVec 18) (data : List Byte) (ch : Chip) : Chip :=
  if ch.mayAccess i w then (ch.useGrant (bankSite w)).writeBytes i.val w 0xFFFF data false [] else ch

def readModifyWriteEffect (i : Fin 12) (w : BitVec 18) (mask : W16) (data err : List Byte) (ch : Chip) : Chip :=
  if ch.mayAccess i w then (ch.useGrant (bankSite w)).readModifyWrite i.val w mask data err else ch

/-! ### Runs of bytes (R228, R276) -/

/-- The payload of a chain: bytes 8 to 255 of each cell, in chain order (R228). -/
def chainBytes (cells : List Nat) : List Nat := cells.flatMap (fun c => (List.range 248).map (256 * c + 8 + ·))

/-- Byte addresses grouped by storage word, in order: each word with the bytes of it. -/
def wordRuns : List Nat → List (Nat × List Nat)
  | [] => []
  | a :: rest => match wordRuns rest with
    | (w, os) :: t => if a / 16 = w then (w, a % 16 :: os) :: t else (a / 16, [a % 16]) :: (w, os) :: t
    | [] => [(a / 16, [a % 16])]

/-- The valid mask of some bytes of a word. -/
def maskOf (os : List Nat) : W16 := os.foldl (fun m o => m ||| (1#16 <<< o)) 0

/-- Data bytes put at their places in a word. -/
def wordOf (os : List Nat) (bs : List Byte) : List Byte :=
  (List.range 16).map (fun j => (((os.zip bs).find? (fun x => x.1 == j)).map (fun x => x.2)).getD 0)

/-- Bytes written through merge buffer b, for context `ctx`, word by word. -/
def Chip.mergeRuns (ch : Chip) (b : Fin 9) (dm : Damage) (ctx : Option Ctx) : List (Nat × List Nat) → List Byte → Chip
  | [], _ => ch
  | (w, os) :: rest, bs =>
    (ch.mergeInto b dm ctx (BitVec.ofNat 18 w) (maskOf os) (wordOf os (bs.take os.length))).mergeRuns b dm ctx rest (bs.drop os.length)

/-- Bytes read at input i, word by word, each with whether its word was delivered as poison. -/
def Chip.readRuns (ch : Chip) (i : Nat) (dm : Damage) : List (Nat × List Nat) → Chip × List (Byte × Bool)
  | [] => (ch, [])
  | (w, os) :: rest =>
    let r := ch.demandRead i (BitVec.ofNat 18 w) (errOf dm (BitVec.ofNat 18 w))
    let t := r.1.readRuns i dm rest
    (t.1, os.map (fun o => (byteAt r.2.data o, r.2.poison)) ++ t.2)

/-- Bytes written by an engine at input i, word by word; a word is written poisoned when one of its bytes is (R276). -/
def Chip.writeRuns (ch : Chip) (i : Nat) (dm : Damage) : List (Nat × List Nat) → List (Byte × Bool) → Chip
  | [], _ => ch
  | (w, os) :: rest, bs =>
    let here := bs.take os.length
    (ch.writeBytes i (BitVec.ofNat 18 w) (maskOf os) (wordOf os (here.map (·.1))) (here.any (·.2)) (errOf dm (BitVec.ofNat 18 w))).writeRuns
      i dm rest (bs.drop os.length)

/-! ### The Cook cache (R286–R288) -/

/-- The oldest line of the write-back buffer is written and acknowledged (R286). -/
def Chip.ackOldest (ch : Chip) : Chip :=
  match ch.cache.wb with
  | [] => ch
  | l :: ls => { ch.writeLine l with cache := { ch.cache with wb := ls } }

/-- The first and the second word of a line. -/
def lineWord (l : BitVec 17) (k : Nat) : BitVec 18 := BitVec.ofNat 18 (2 * l.toNat + k)

/-- The Cook fills a line: from the write-back buffer when it is there, else by two reads at input 3. -/
def Chip.fillLine (ch : Chip) (dm : Damage) (w : BitVec 18) : Chip × CacheLine :=
  match ch.cache.findWb w with
  | some l => (ch, { l with dirty := false })
  | none =>
    let a := ch.demandRead 3 (lineWord (lineOf w) 0) (errOf dm (lineWord (lineOf w) 0))
    let b := a.1.demandRead 3 (lineWord (lineOf w) 1) (errOf dm (lineWord (lineOf w) 1))
    (b.1, { line := lineOf w, lo := a.2, hi := b.2, dirty := false })

/-- A set with more than four lines evicts its least recently used one: a dirty line passes to the write-back buffer, which
holds four lines. -/
def Chip.evict (ch : Chip) (s : Fin 32) : Chip :=
  let ls := ch.cache.sets.get s
  match ls[4]? with
  | none => ch
  | some l =>
    let c1 := if l.dirty ∧ 4 ≤ ch.cache.wb.length then ch.ackOldest else ch
    { c1 with cache := { sets := c1.cache.sets.set s (ls.take 4), wb := if l.dirty then c1.cache.wb ++ [l] else c1.cache.wb } }

/-- A line with stored bytes in one word; a store of all 16 bytes clears the word's poison bit. -/
def CacheLine.store (l : CacheLine) (w : BitVec 18) (mask : W16) (data : List Byte) : CacheLine :=
  let x := l.word w
  let y : CacheWord := { data := mergeBytes mask x.data data, poison := x.poison && decide (mask ≠ 0xFFFF) }
  if w.getLsbD 0 then { l with hi := y, dirty := true } else { l with lo := y, dirty := true }

/-- F-BANK serves the bank of a line. -/
def Chip.servesLine (ch : Chip) (l : CacheLine) : Bool := ch.bankServes (lineWord l.line 0)

/-- COOK_STORE (R286): it waits while a bank that it has to read or write is not served. -/
def cookStoreEffect (w : BitVec 18) (mask : W16) (data : List Byte) (dm : Damage) (ch : Chip) : Chip :=
  if ¬ ch.domOn 10 ∨ ¬ ((ch.cache.find w).isSome || ch.bankServes w) ∨ ¬ ch.cache.wb.head?.all ch.servesLine then ch
  else
    let (c1, l) := match ch.cache.find w with
      | some l => (ch, l)
      | none => ch.fillLine dm w
    let s := setOf (lineOf w)
    let rest := (c1.cache.sets.get s).filter (fun x => x.line != lineOf w)
    { c1 with cache := { c1.cache with sets := c1.cache.sets.set s (l.store w mask data :: rest) } }.evict s

/-- WRITEBACK_ACK. -/
def writebackAckEffect (ch : Chip) : Chip := if ch.cache.wb.head?.all ch.servesLine then ch.ackOldest else ch

/-- Every dirty line is written back, and the write-back buffer is emptied (R495, R503). -/
def Chip.cleanCache (ch : Chip) : Chip :=
  let c1 := ch.cache.wb.foldl (fun c l => c.writeLine l) ch
  let c2 := c1.cache.sets.toList.foldl (fun c ls => (ls.filter (fun l => l.dirty)).foldl (fun c l => c.writeLine l) c) c1
  { c2 with cache := { sets := c2.cache.sets.map (fun ls => ls.map (fun l => { l with dirty := false })), wb := [] } }

/-! ### Colander (R289–R292) -/

/-- Entries of the active retirement list. -/
def Chip.retired (ch : Chip) : List RetEntry := ch.passQ.active.retire.toList

/-- Colander skips bank b: it is retired, or its bank group is off (R290, R470). -/
def Chip.skipsBank (ch : Chip) (b : Nat) : Bool :=
  ch.retired.any (fun r => r.kind.toNat == 3 && r.index.toNat == b) || ch.domains.sramActive.getLsbD (b / 4)

/-- The first word from bank b on, at or after w, that Colander reads. -/
def Chip.scrubFrom (ch : Chip) (w : Nat) : Option Nat :=
  ((List.range 16).find? (fun b => decide (w < 16384 * (b + 1)) && !ch.skipsBank b)).map (fun b => max w (16384 * b))

/-- A pass begins at word 0. -/
def Sram.beginPass (m : Sram) : Sram :=
  { m with scrubbing := true, pos := 0, passHits := Vector.replicate 19 0, suspected := [], passLate := false }

/-- A pass ends complete (R290): after a late one the next starts at once; a single pass ends Colander's reading. -/
def Sram.endPass (m : Sram) : Sram :=
  let m1 := { m with passes := m.passes + 1, scrubbing := false, pos := 0 }
  if m.passLate ∧ m.scrubEn then m1.beginPass else m1

/-- MACRO_SUSPECT (R292): once per pass and macro, from Colander's own corrections. -/
def Chip.suspect (ch : Chip) (pos : Option Nat) : Chip :=
  match pos with
  | none => ch
  | some p =>
    let n := ((ch.sram.passHits[p]?).getD 0) + 1
    let c1 := ch.modSram (fun m => { m with passHits := m.passHits.setIfInBounds p n })
    if max 1 ch.sram.threshold.toNat ≤ n ∧ ¬ ch.sram.suspected.contains p then
      (c1.modSram (fun m => { m with suspected := p :: m.suspected })).logFault 0x14 4 0 (BitVec.ofNat 32 p) (BitVec.ofNat 32 n)
        c1.sram.passes
    else c1

/-- One Colander read of word W (Table 11-5). A symbol repaired only because its macro is erased is not written back. -/
def Chip.scrubWord (ch : Chip) (w : BitVec 18) (err : List Byte) : Chip :=
  match ch.cache.snoopRead w with
  | some _ => ch
  | none =>
    let r := ch.decodeWord w err
    let c1 := (ch.modSram (fun m => m.count 0 w r)).logRead 0 w r
    match r.result, r.pos with
    | .corrected, some _ =>
      (((c1.snoopWrite w).storeWord w r.data false).modSram (fun m => { m with fixed := m.fixed + 1 })).suspect r.pos
    | .poisoned, some _ =>
      (((c1.snoopWrite w).storeWord w r.data true).modSram (fun m => { m with fixed := m.fixed + 1 })).suspect r.pos
    | .uncorrectable, _ => (c1.snoopWrite w).storeWord w r.data true
    | _, _ => c1

/-- The next word that Colander reads (SRAM_SCRUB_POS): word 0 of the next pass while none runs, or when every further bank is skipped. -/
def Chip.scrubNext (ch : Chip) : Nat :=
  match if ch.sram.scrubbing then ch.scrubFrom ch.sram.pos.toNat else none with
  | some n => n
  | none => (ch.scrubFrom 0).getD 0

/-- SCRUB_READ (R290, R291): Colander reads through its grant at input 0, and a bank that is not served holds it up. -/
def scrubReadEffect (err : List Byte) (ch : Chip) : Chip :=
  if ¬ (ch.domOn 4 ∧ ch.sram.scrubbing) then ch
  else match ch.scrubFrom ch.sram.pos.toNat with
    | none => ch.modSram Sram.endPass
    | some n =>
      let w : BitVec 18 := BitVec.ofNat 18 n
      if ¬ ch.mayAccess 0 w then ch else
      let c1 := (ch.useGrant (bankSite w)).scrubWord w err
      if n + 1 < sramWords then c1.modSram (fun m => { m with pos := BitVec.ofNat 18 (n + 1) }) else c1.modSram Sram.endPass

/-- SCRUB_INIT_PASS (R289): every word with zero data, and init_done. -/
def scrubInitPassEffect (ch : Chip) : Chip :=
  if ch.domOn 4 ∧ ¬ ch.sram.initDone then ch.modSram (fun m => { m with mem := [], initDone := true }) else ch

/-- SCRUB_PASS_START (R290): the period ends. A running pass has outrun it and is counted once. -/
def scrubPassStartEffect (ch : Chip) : Chip :=
  if ¬ (ch.domOn 4 ∧ ch.sram.initDone) then ch
  else if ch.sram.scrubbing then
    if ch.sram.passLate then ch else ch.modSram (fun m => { m with late := m.late + 1, passLate := true })
  else if ch.sram.scrubEn then ch.modSram (fun m => m.beginPass)
  else ch

/-- SCRUB_NOW (R290). -/
def scrubNowEffect (ch : Chip) : Chip :=
  if ch.domOn 4 ∧ ch.sram.initDone then ch.modSram Sram.beginPass else ch

/-- SCRUB_ENABLE (R290). -/
def scrubEnableEffect (on : Bool) (ch : Chip) : Chip :=
  if ¬ on then ch.modSram (fun m => { m with scrubEn := false, scrubbing := false, passLate := false })
  else if ch.sram.scrubEn then ch
  else if ch.domOn 4 ∧ ch.sram.initDone then ch.modSram (fun m => { m.beginPass with scrubEn := true })
  else ch.modSram (fun m => { m with scrubEn := true })

/-- Every SRAM_ counter at 0 (R296). -/
def Sram.cleared (m : Sram) : Sram :=
  { m with passes := 0, late := 0, corr := 0, uncorr := 0, addr := 0, poison := 0, fixed := 0,
           macros := Vector.replicate 19 0, banks := Vector.replicate 16 0 }

def sramClearCountsEffect (ch : Chip) : Chip := ch.modSram Sram.cleared

/-! ### The erasure in force (R279) -/

/-- The macro that the active generation declares erased; 19 and above act as no erasure. -/
def Chip.declaredErasure (ch : Chip) : Option (Fin 19) :=
  let g := ch.passQ.active
  if h : g.eraseMacro.toNat < 19 then (if g.eraseOn then some ⟨g.eraseMacro.toNat, h⟩ else none) else none

/-- The erasure in force follows the isolation and the active generation: MACRO_ERASED when a management declaration takes
effect, ERASURE_CHANGED when the macro in force changes. -/
def Chip.settleErasure (ch : Chip) : Chip :=
  let want := ch.declaredErasure
  let waits := match ch.sram.isolated, want with
    | some a, some b => decide (a ≠ b)
    | _, _ => false
  let inForce := match ch.sram.isolated with
    | some a => some a
    | none => want
  let before := ch.sram
  let c1 := ch.modSram (fun m => { m with erased := inForce, erasePending := waits, declared := if waits then m.declared else want })
  let c2 := match want with
    | some b => if !waits && decide (before.declared ≠ want) then c1.post Ev.macroErased .all 153 0 (BitVec.ofNat 32 b.val) else c1
    | none => c1
  if before.erased = inForce then c2
  else c2.logFault 0x16 153 0 (match inForce with
    | some a => BitVec.ofNat 32 a.val
    | none => 0xFF) 0 0

/-! ### Entries of the queue table (06: R158; R278) -/

/-- The storage words of place n of the queue at offset k of context i: each cell carries 15 entries of 16 bytes after its header, and
the spare's cells follow those of the queue it extends (R158, R162). -/
def Chip.placeWords (ch : Chip) (i : Ctx) (k n : Nat) : List (BitVec 18) :=
  let x := ch.ctxs.get i
  let cellsOf (j : Nat) : List Nat := (x.storage.filter (fun q => q.1 == j)).flatMap (fun q => ch.chainAt q.2)
  match (cellsOf k ++ (if x.spare.any (fun q => q.val == k) then cellsOf 11 else []))[n / 15]? with
  | some c => [BitVec.ofNat 18 (16 * c + n % 15), BitVec.ofNat 18 (16 * c + n % 15 + 1)]
  | none => []

/-- The words of a queue entry are read at input `input`: whether one is delivered as poison (R278). -/
def Chip.readEntry (ch : Chip) (input : Nat) (dm : Damage) (words : List (BitVec 18)) : Chip × Bool :=
  words.foldl (fun a w =>
    let r := a.1.demandRead input w (errOf dm w)
    (r.1, a.2 || r.2.poison)) (ch, false)

/-! ### The commands -/

/-- WORD_READ (R272, R278). -/
def execWordRead (i : Fin 12) (w : BitVec 18) (err : List Byte) (s : State) : Host.Outcome State Fault Refusal :=
  s.onChip (wordReadEffect i w err)
/-- WORD_WRITE (R271, R277). -/
def execWordWrite (i : Fin 12) (w : BitVec 18) (data : List Byte) (s : State) : Host.Outcome State Fault Refusal :=
  s.onChip (wordWriteEffect i w data)
/-- READ_MODIFY_WRITE (R285). -/
def execReadModifyWrite (i : Fin 12) (w : BitVec 18) (mask : W16) (data err : List Byte) (s : State) :
    Host.Outcome State Fault Refusal := s.onChip (readModifyWriteEffect i w mask data err)
/-- MERGE_WRITE (R282, R283). -/
def execMergeWrite (b : Fin 9) (ctx : Option Ctx) (w : BitVec 18) (mask : W16) (data : List Byte) (damage : Damage) (s : State) :
    Host.Outcome State Fault Refusal := s.onChip (mergeWriteEffect b ctx w mask data damage)
/-- COOK_STORE (R286). -/
def execCookStore (w : BitVec 18) (mask : W16) (data : List Byte) (damage : Damage) (s : State) : Host.Outcome State Fault Refusal :=
  s.onChip (cookStoreEffect w mask data damage)
/-- WRITEBACK_ACK (R286). -/
def execWritebackAck (s : State) : Host.Outcome State Fault Refusal := s.onChip writebackAckEffect
/-- SCRUB_INIT_PASS (R289). -/
def execScrubInitPass (s : State) : Host.Outcome State Fault Refusal := s.onChip scrubInitPassEffect
/-- SCRUB_PASS_START (R290). -/
def execScrubPassStart (s : State) : Host.Outcome State Fault Refusal := s.onChip scrubPassStartEffect
/-- SCRUB_READ (R291). -/
def execScrubRead (err : List Byte) (s : State) : Host.Outcome State Fault Refusal := s.onChip (scrubReadEffect err)
/-- SRAM_CTRL.scrub_now (R290). -/
def execScrubNow (s : State) : Host.Outcome State Fault Refusal := s.onRegister scrubNowEffect
/-- SRAM_SCRUB_CFG.scrub_en (R290). -/
def execScrubEnable (on : Bool) (s : State) : Host.Outcome State Fault Refusal := s.onRegister (scrubEnableEffect on)
/-- SRAM_CTRL.clear_counts (R296). -/
def execSramClearCounts (s : State) : Host.Outcome State Fault Refusal := s.onRegister sramClearCountsEffect

end Sys2Proof.Machine
end

