-- ==== Sys2Proof/Machine/Ladle.lean ====
section
/-! DEFINITION. Ladle: pools, chains, requests and their checks, release, partition moves and the free-list build (09: R224–R247;
20: R490, R491). -/

namespace Sys2Proof.Machine

/-! ### Counts and quotas (R234, R241, R246) -/

/-- Cells of the Pantry and blocks of the Pantry (R234). -/
def pantryCells : Nat := 256
def pantryBlocks : Nat := 4

/-- The free count of the cell pool: on the list, less those reserved (R234). Before the lists are built it reads as the
registers' reset value. -/
def Ladle.cellsFree (l : Ladle) : Nat := if l.built then l.freeCells.length - l.reserved else 4096
def Ladle.blocksFree (l : Ladle) : Nat := if l.built then l.freeBlocks.length else 48

/-- Cells whose named owner is o (LADLE_HELD). -/
def Ladle.cellsHeld (l : Ladle) (o : Nat) : Nat :=
  ((l.chains.filter (fun k => k.owner == o)).map (fun k => k.cells.length)).foldl (· + ·) 0

/-- Blocks whose named owner is o. -/
def Ladle.blocksHeld (l : Ladle) (o : Nat) : Nat :=
  (l.blocks.toList.filter (fun b => decide (b.state = .held) && b.owner == o)).length

/-- Sharing entries in use (R239). -/
def Ladle.sharesUsed (l : Ladle) : Nat := (l.chains.filter (fun k => decide (2 ≤ k.holders.length))).length

/-- LADLE_LOW follows the free counts (R246). -/
def Ladle.noteLow (l : Ladle) : Ladle :=
  { l with lowCells := if l.cellsFree < l.lowCells.toNat then BitVec.ofNat 15 l.cellsFree else l.lowCells,
           lowBlocks := if l.blocksFree < l.lowBlocks.toNat then BitVec.ofNat 7 l.blocksFree else l.lowBlocks }

/-- Cell quota of a context as adopted (values above 16,384 act as 16,384, R246). -/
def Context.cellLimit (x : Context) : Nat := min x.cellQuota.toNat 16384

/-- An owner that a request may name (R226): of the contexts, those that are OPEN. -/
def Chip.ownerValid (ch : Chip) (o : Nat) : Bool :=
  if h : o < 64 then decide ((ch.ctxs.get ⟨o, h⟩).state = .open)
  else (64 ≤ o && o ≤ 70) || (72 ≤ o && o ≤ 91)

/-- Internal engines, whose drain-critical flag counts (R234). -/
def isInternal (r : Nat) : Bool := 64 ≤ r && r ≤ 91

/-- The bank a cell or block lies in. -/
def cellBank (i : Nat) : Nat := i / 1024
def blockBank (j : Nat) : Nat := j / 4

/-- Cells on the free list that an ordinary draw may take: none of a leaving bank (R242). -/
def Ladle.openCells (l : Ladle) : List Nat :=
  match l.leaving with
  | some b => l.freeCells.filter (fun i => cellBank i != b)
  | none => l.freeCells

/-! ### Results (R236, R237, R514) -/

def Chip.answer (ch : Chip) (a : LadleAnswer) : Chip := { ch with ladleAnswer := a }

def Chip.modLadle (ch : Chip) (f : Ladle → Ladle) : Chip := { ch with ladle := f ch.ladle }

/-- What a host command ends with when Ladle does not serve its request (R237). -/
def LadleAnswer.refusal : LadleAnswer → Option Stat
  | .badOwner | .badPtr | .notHolder => some Stat.ladleBadptr
  | .cellQuota => some Stat.cellQuota
  | .blockQuota => some Stat.blockQuota
  | .poolEmpty => some Stat.poolEmpty
  | .holdersFull | .shareFull => some Stat.engineBusy
  | LadleAnswer.none | .done _ | .already | .waiting => Option.none

/-- BADPTR with its reason, logged and counted (R236; R514 code 0x01). -/
def Chip.badPtr (ch : Chip) (address reason requester op : Nat) : Chip :=
  (((ch.modLadle (fun l => { l with badptr := l.badptr + 1 })).logFault 0x01 5 0 (BitVec.ofNat 32 address)
    (BitVec.ofNat 32 (reason + 256 * requester + 65536 * op)) 0)).answer .badPtr

/-- NOT_HOLDER, logged and counted (R514 code 0x02). -/
def Chip.notHolder (ch : Chip) (address requester op : Nat) : Chip :=
  (((ch.modLadle (fun l => { l with notHolder := l.notHolder + 1 })).logFault 0x02 5 0 (BitVec.ofNat 32 address)
    (BitVec.ofNat 32 (256 * requester + 65536 * op)) 0)).answer .notHolder

/-- BADOWNER, logged and counted with BADPTR (R514 code 0x03, R246). -/
def Chip.badOwner (ch : Chip) (owner requester : Nat) : Chip :=
  (((ch.modLadle (fun l => { l with badptr := l.badptr + 1 })).logFault 0x03 5 0 (BitVec.ofNat 32 owner)
    (BitVec.ofNat 32 (256 * requester)) 0)).answer .badOwner

/-- SHARE_FULL, counted (R246). -/
def Chip.shareFullAnswer (ch : Chip) : Chip :=
  (ch.modLadle (fun l => { l with shareFull := satInc16 l.shareFull })).answer .shareFull

/-! ### Headers and links in the buffer (R228–R233; 11: R276, R277, R285) -/

/-- Block j's first word holds a header or a link. -/
def Ladle.marked (l : Ladle) (j : Nat) : Bool := l.headed (4096 * j) || l.linked j

/-- Ladle writes what its lists say of word w, which it has read as `r`: a link replaces all 16 bytes, a header the first eight, in one
read-modify-write unit of input 3. -/
def Chip.writeHead (ch : Chip) (w : BitVec 18) (r : Decoded) : Chip :=
  if ch.ladle.headed w.toNat then
    ((ch.modSram (fun m => m.count 3 w r)).logRead 3 w r).storeWord w (mergeBytes 0x00FF r.data (ch.ladle.inWord w.toNat)) r.isPoison
  else ch.storeWord w (ch.ladle.inWord w.toNat) false

/-- Ladle's lists become `l`, and every header and link that this changes is written. A block that leaves the free list keeps the bytes
of its link as payload (R232). -/
def Chip.setLadle (ch : Chip) (l : Ladle) : Chip :=
  let kept := (List.range 64).filter (fun j => ch.ladle.marked j && !l.marked j)
  let changed := (listedWords ch.sram.mem).filter (fun w => !(l.inWord w).isEmpty && l.inWord w != ch.ladle.inWord w)
  let c1 := kept.foldl (fun c j => c.putSyms (BitVec.ofNat 18 (4096 * j)) (ch.wordSyms (BitVec.ofNat 18 (4096 * j)))) { ch with ladle := l }
  changed.foldl (fun c w => c.writeHead (BitVec.ofNat 18 w) (ch.decodeWord (BitVec.ofNat 18 w) [])) c1

/-- A change of Ladle's lists. -/
def Chip.relist (ch : Chip) (f : Ladle → Ladle) : Chip := ch.setLadle (f ch.ladle)

/-- Ladle reads the header or link in word w through input 3 and checks it (R229, R232, R278). A word of which nothing is listed holds
what Ladle wrote. -/
def Chip.readHead (ch : Chip) (w : Nat) (ok : List Byte → Bool) : Chip × Bool :=
  if ch.sram.mem.any (fun x => x.1 / 32 == w) then
    let r := ch.demandRead 3 (BitVec.ofNat 18 w) []
    (r.1, !r.2.poison && ok r.2.data)
  else (ch, true)

/-- The units of a list whose header or link fails, with the reads made. -/
def Chip.failing (ch : Chip) (word : Nat → Nat) (ok : Nat → List Byte → Bool) : List Nat → Chip × List Nat
  | [] => (ch, [])
  | i :: is =>
    let r := ch.readHead (word i) (ok i)
    let t := r.1.failing word ok is
    (t.1, if r.2 then t.2 else i :: t.2)

/-! ### Drawing units (R233, R234, R244) -/

/-- Numbers of a list in ascending order, each once (structural insertion). -/
def insertNat (x : Nat) : List Nat → List Nat
  | [] => [x]
  | y :: ys => if x < y then x :: y :: ys else if x = y then y :: ys else y :: insertNat x ys
def ascending (l : List Nat) : List Nat := l.foldr insertNat []

/-- Removes from a list what is in another. -/
def minus (l xs : List Nat) : List Nat := l.filter (fun i => !xs.contains i)

/-- Cells that may stand on the free list: of the pool, in no chain, not retired, and of a leaving bank only those it keeps (R233, R242,
R244). -/
def Ladle.listable (l : Ladle) (rs : List RetEntry) : List Nat :=
  (List.range (1024 * l.cellBanks)).filter (fun i =>
    (chainWith l.chains i).isNone && !l.retired.contains i && !cellRetired rs i && (l.leaving != some (cellBank i) || l.freeCells.contains i))

/-- Ladle reads the headers of the units it is about to draw. When one fails it is logged and out of service, and the list is rebuilt by a
sweep that reads every header of the pool: every unit that checks and is free is on the list again, in ascending number (R244). -/
def Chip.sweepCells (ch : Chip) (wanted : List Nat) : Chip :=
  let r := ch.failing (16 * ·) headerOk wanted
  if r.2.isEmpty then r.1
  else
    let c1 := r.2.foldl (fun c i => c.logFault 0x04 5 0 (BitVec.ofNat 32 (256 * i)) 0 0) r.1
    let t := c1.failing (16 * ·) headerOk (minus (c1.ladle.listable c1.retireList) r.2)
    t.1.relist (fun l => { l with sweep := l.sweep + 1, freeCells := minus (minus (l.listable c1.retireList) r.2) t.2 })

/-- Blocks that may stand on the free list. -/
def Ladle.listableBlocks (l : Ladle) (rs : List RetEntry) : List Nat :=
  (List.range 64).filter (fun j => l.leaving != some (blockBank j) && !blockRetired rs j && (match l.blocks[j]? with
    | some b => decide (b.state = .free)
    | none => false))

/-- As `sweepCells`, for the block at the head of the list (R244). -/
def Chip.sweepBlocks (ch : Chip) : Chip :=
  let r := ch.failing (4096 * ·) linkOk (ch.ladle.freeBlocks.take 1)
  if r.2.isEmpty then r.1
  else
    let c1 := r.2.foldl (fun c j => c.logFault 0x04 5 0 (BitVec.ofNat 32 (65536 * j)) 1 0) r.1
    let t := c1.failing (4096 * ·) linkOk (minus (c1.ladle.listableBlocks c1.retireList) r.2)
    t.1.relist (fun l => { l with sweep := l.sweep + 1, freeBlocks := minus (minus (l.listableBlocks c1.retireList) r.2) t.2 })

/-- Cells of a bank that is leaving the cell pool stay on its free list only as outstanding reservations need them beyond the other banks'
free cells (R242). -/
def Ladle.trimKept (l : Ladle) : Ladle :=
  match l.leaving with
  | some b =>
    let other := l.freeCells.filter (fun i => cellBank i != b)
    let kept := (l.freeCells.filter (fun i => cellBank i == b)).take (l.reserved - other.length)
    { l with freeCells := l.freeCells.filter (fun i => cellBank i != b || kept.contains i) }
  | none => l

/-- Takes n cells from the head of the list into a new chain (R233, R235). -/
def Chip.drawChain (ch : Chip) (n owner : Nat) (holders : List Nat) : Chip :=
  let cells := ch.ladle.openCells.take n
  (ch.relist (fun l =>
    Ladle.noteLow { l with freeCells := minus l.freeCells cells,
                           chains := { cells := cells, owner := owner, holders := holders } :: l.chains })).answer (.done (256 * cells.headD 0))

/-- How far below the free count a request may draw (R234, R491): an ordinary one leaves the Pantry whole, a drain-critical
one leaves the Cook's named allotments of 20 and 17 cells, the queue table (a reset's queues) the Cook's 17, the Cook leaves
nothing (DEDUCED, log entry 14). -/
def cellFloor (requester : Nat) (critical : Bool) : Nat :=
  if critical && isInternal requester then (if requester = 65 then 0 else if requester = 64 then 17 else 37) else pantryCells

/-- Blocks: only Roller's work may draw the Pantry (R491). -/
def blockFloor (requester : Nat) (critical : Bool) : Nat :=
  if critical && (80 ≤ requester && requester ≤ 83) then 0 else pantryBlocks

/-- ALLOC_CELLS (R235, R237). A drain-critical request that finds too little waits (R234). -/
def Chip.allocCells (ch : Chip) (requester owner n : Nat) (critical : Bool) : Chip :=
  let crit := critical && isInternal requester
  if ¬ ch.ownerValid owner then ch.badOwner owner requester
  else if (if h : owner < 64 then decide ((ch.ctxs.get ⟨owner, h⟩).cellLimit < ch.ladle.cellsHeld owner + n) else false) then
    ch.answer .cellQuota
  else
    let ch1 := ch.sweepCells (ch.ladle.openCells.take n)
    let free := ch1.ladle.cellsFree
    if free < n + cellFloor requester critical ∨ ch1.ladle.openCells.length < n then
      if crit then
        (ch1.modLadle (fun l => { l with waiting := l.waiting ++ [{ requester := requester, owner := owner, n := n, address := none }] })).answer .waiting
      else ch1.answer .poolEmpty
    else if requester ≠ owner ∧ 1008 ≤ ch1.ladle.sharesUsed then ch1.shareFullAnswer
    else
      let ch2 := if crit ∧ free < n + pantryCells then ch1.modLadle (fun l => { l with pantry := l.pantry + 1 }) else ch1
      ch2.drawChain n owner (if requester = owner then [owner] else [owner, requester])

/-- ALLOC_BLOCK (R235, R237). -/
def Chip.allocBlock (ch : Chip) (requester owner : Nat) (critical : Bool) : Chip :=
  let crit := critical && (80 ≤ requester && requester ≤ 83)
  if ¬ ch.ownerValid owner then ch.badOwner owner requester
  else if (if h : owner < 64 then
      decide (min (ch.ctxs.get ⟨owner, h⟩).blockQuota.toNat 64 < ch.ladle.blocksHeld owner + 1) else false) then
    ch.answer .blockQuota
  else
    let ch1 := ch.sweepBlocks
    match ch1.ladle.freeBlocks with
    | j :: rest =>
      if ch1.ladle.blocksFree < 1 + blockFloor requester critical then ch1.answer .poolEmpty
      else
        let pan := crit && decide (ch1.ladle.blocksFree < 1 + pantryBlocks)
        (ch1.relist (fun l => Ladle.noteLow { l with
            freeBlocks := rest, pantry := if pan then l.pantry + 1 else l.pantry,
            blocks := l.blocks.setIfInBounds j
              { state := .held, owner := owner, holders := if requester = owner then [owner] else [owner, requester] } })).answer
          (.done (65536 * j))
    | [] =>
      if crit then
        (ch1.modLadle (fun l => { l with waiting := l.waiting ++ [{ requester := requester, owner := owner, n := 0, address := none }] })).answer .waiting
      else ch1.answer .poolEmpty

/-! ### Checks of a named unit (Table 9-7) -/

/-- A unit that passed orders 1 to 5. -/
inductive NamedUnit where
  | chain (k : Chain)
  | block (j : Nat) (b : BlockEntry)
  deriving DecidableEq, Repr

/-- The first failure of orders 1 to 5 as a reason, or the unit, with the header read made. `cellsOnly` for EXTEND. -/
def Chip.nameUnit (ch : Chip) (address : Nat) (cellsOnly isRelease : Bool) : Chip × (NamedUnit ⊕ Nat) :=
  let l := ch.ladle
  if address < 262144 * l.cellBanks then
    if address % 256 ≠ 0 then (ch, .inr 2)
    else
      let i := address / 256
      let chain := l.chains.find? (fun k => k.cells.head? == some i)
      let cells := match chain with
        | some k => k.cells
        | none => [i]
      if !isRelease && cells.any (cellRetired ch.retireList) then (ch, .inr 3)
      else
        let r := ch.readHead (16 * i) (headerOk i)
        if ¬ r.2 then (r.1, .inr 4)
        else match chain with
          | some k => (r.1, .inl (.chain k))
          | none => (r.1, .inr 5)
  else if cellsOnly ∨ 4194304 ≤ address then (ch, .inr 1)
  else if address % 65536 ≠ 0 then (ch, .inr 2)
  else
    let j := address / 65536
    if !isRelease && blockRetired ch.retireList j then (ch, .inr 3)
    else
      match l.blocks[j]? with
      | some b => if b.state = .outside then (ch, .inr 4) else if b.state = .held then (ch, .inl (.block j b)) else (ch, .inr 5)
      | none => (ch, .inr 1)

def NamedUnit.holders : NamedUnit → List Nat
  | .chain k => k.holders
  | .block _ b => b.holders

def NamedUnit.owner : NamedUnit → Nat
  | .chain k => k.owner
  | .block _ b => b.owner

/-- Gives a unit new holders and a new named owner; a chain's headers are all rewritten (R230). -/
def Chip.rehold (ch : Chip) (u : NamedUnit) (owner : Nat) (holders : List Nat) : Chip :=
  match u with
  | .chain k =>
    ch.relist (fun l => { l with chains := l.chains.map (fun x =>
      if x.cells = k.cells then { x with owner := owner, holders := holders } else x) })
  | .block j b =>
    ch.modLadle (fun l => { l with blocks := l.blocks.setIfInBounds j { b with owner := owner, holders := holders } })

/-- Cells go back: the retired ones pass to owner 126, those of a leaving bank enter no list, the rest are pushed in order (R233, R238,
R242). -/
def Ladle.giveBack (rs : List RetEntry) (cells : List Nat) (l : Ladle) : Ladle :=
  let ret := cells.filter (cellRetired rs)
  let back := (minus cells ret).filter (fun i => l.leaving != some (cellBank i))
  Ladle.trimKept { l with retired := ret ++ l.retired, freeCells := back.foldl (fun f i => i :: f) l.freeCells }

/-- Frees a unit (R238). -/
def Chip.freeUnit (ch : Chip) (u : NamedUnit) : Chip :=
  match u with
  | .chain k => ch.relist (fun l => Ladle.giveBack ch.retireList k.cells { l with chains := l.chains.filter (fun x => x.cells != k.cells) })
  | .block j b =>
    if blockRetired ch.retireList j then
      ch.relist (fun l => { l with blocks := l.blocks.setIfInBounds j { b with state := .retired, owner := 126, holders := [] } })
    else
      ch.relist (fun l => { l with
        blocks := l.blocks.setIfInBounds j { b with state := .free, owner := 127, holders := [] },
        freeBlocks := if l.leaving = some (blockBank j) then l.freeBlocks else j :: l.freeBlocks })

/-- The chain at an address keeps its first n cells; the others go back (R161, R233). -/
def Chip.shrinkChain (ch : Chip) (address n : Nat) : Chip :=
  match ch.ladle.chains.find? (fun k => k.cells.head? == some (address / 256)) with
  | some k =>
    ch.relist (fun l => Ladle.giveBack ch.retireList (k.cells.drop n) { l with chains := l.chains.map (fun x =>
      if x.cells = k.cells then { x with cells := k.cells.take n } else x) })
  | none => ch

/-- Some unit of bank b is held. -/
def Ladle.bankHeld (l : Ladle) (b : Nat) : Bool :=
  l.chains.any (fun k => k.cells.any (fun i => cellBank i == b)) ||
  (List.range 4).any (fun q => match l.blocks[4 * b + q]? with
    | some e => decide (e.state = .held)
    | none => false)

/-- The 19 SRAM domains of bank group q (R268, Table 19-3). -/
def groupDomains (q : Nat) : List Nat := (List.range 19).map (fun m => 72 + 4 * m + q)

/-- A pending sram_off request takes effect once every bank of its group is retired by a bank entry of the active generation and
holds no held unit (R470). -/
def Chip.settleSram (ch : Chip) : Chip :=
  if ch.domains.sramPend = 0 then ch
  else
    [0, 1, 2, 3].foldl (fun c (q : Nat) =>
      let bit_ : BitVec 4 := BitVec.ofNat 4 (2 ^ q)
      if c.domains.sramPend.getLsbD q && (List.range 4).all (fun j => retEntry c.retireList 3 (4 * q + j) && !c.ladle.bankHeld (4 * q + j)) then
        { c with domains := { c.domains with
            sramPend := c.domains.sramPend &&& ~~~bit_, sramActive := c.domains.sramActive ||| bit_,
            on := (groupDomains q).foldl (fun l n => l.set n false) c.domains.on } }
      else c) ch

/-- RELEASE (R238). `lawful`: the requester may use the number it carries (R227). -/
def Chip.releaseUnit (ch : Chip) (requester address : Nat) (lawful : Bool := true) : Chip :=
  match ch.nameUnit address false true with
  | (c0, .inr reason) => c0.badPtr address reason requester 5
  | (c0, .inl u) =>
    if ¬ (lawful && u.holders.contains requester) then c0.notHolder address requester 5
    else
      let rest := minus u.holders [requester]
      match rest.getLast? with
      | none => (c0.freeUnit u).settleSram.answer (.done address)
      | some newest => (c0.rehold u (if u.owner = requester then newest else u.owner) rest).answer (.done address)

/-- HAND (R235, R236, R239). -/
def Chip.handUnit (ch : Chip) (requester address holder : Nat) (critical : Bool) (lawful : Bool := true) : Chip :=
  match ch.nameUnit address false false with
  | (c0, .inr reason) => c0.badPtr address reason requester 4
  | (c0, .inl u) =>
    if ¬ (lawful && u.holders.contains requester) then c0.notHolder address requester 4
    else if ¬ c0.ownerValid holder then c0.badOwner holder requester
    else if 4 ≤ u.holders.length then c0.answer .holdersFull
    else if u.holders.contains holder then c0.answer .already
    else
      let limit := if critical && isInternal requester then 1024 else 1008
      match u with
      | .chain k =>
        if k.holders.length = 1 ∧ limit ≤ c0.ladle.sharesUsed then c0.shareFullAnswer
        else (c0.rehold u u.owner (u.holders ++ [holder])).answer (.done address)
      | .block _ _ => (c0.rehold u u.owner (u.holders ++ [holder])).answer (.done address)

/-- EXTEND (R235–R237): Table 9-7 first, then owner, quota and free count. A drain-critical request that finds too little waits (R234). -/
def Chip.extendChain (ch : Chip) (requester address n : Nat) (critical : Bool) (lawful : Bool := true) : Chip :=
  match ch.nameUnit address true false with
  | (c0, .inr reason) => c0.badPtr address reason requester 2
  | (c0, .inl u) =>
    if ¬ (lawful && u.holders.contains requester) ∨ u.owner ≠ requester ∨ u.holders.length ≠ 1 then c0.notHolder address requester 2
    else if ¬ c0.ownerValid u.owner then c0.badOwner u.owner requester
    else if (if h : u.owner < 64 then decide ((c0.ctxs.get ⟨u.owner, h⟩).cellLimit < c0.ladle.cellsHeld u.owner + n) else false) then
      c0.answer .cellQuota
    else
      let crit := critical && isInternal requester
      let ch1 := c0.sweepCells (c0.ladle.openCells.take n)
      if ch1.ladle.cellsFree < n + cellFloor requester critical ∨ ch1.ladle.openCells.length < n then
        if crit then
          (ch1.modLadle (fun l => { l with waiting := l.waiting ++
            [{ requester := requester, owner := u.owner, n := n, address := some address }] })).answer .waiting
        else ch1.answer .poolEmpty
      else
        let cells := ch1.ladle.openCells.take n
        let pan := crit && decide (ch1.ladle.cellsFree < n + pantryCells)
        match u with
        | .chain k =>
          (ch1.relist (fun l => Ladle.noteLow { l with
              freeCells := minus l.freeCells cells, pantry := if pan then l.pantry + 1 else l.pantry,
              chains := l.chains.map (fun x => if x.cells = k.cells then { x with cells := k.cells ++ cells } else x) })).answer (.done address)
        | .block _ _ => ch1

/-! ### Reservations for Whisk's output (R490) -/

/-- Draws n reserved cells for requester r under context number o, with no quota check; the chain's holders are both (R235, R490). With no
sharing entry free the draw is refused. -/
def Chip.drawReserved (ch : Chip) (r o n : Nat) : Chip :=
  if 1008 ≤ ch.ladle.sharesUsed then ch.shareFullAnswer
  else
    let c1 := ch.sweepCells (ch.ladle.freeCells.take n)
    let cells := c1.ladle.freeCells.take n
    (c1.relist (fun l => Ladle.noteLow (Ladle.trimKept { l with
      freeCells := l.freeCells.drop n, reserved := l.reserved - n,
      chains := { cells := cells, owner := o, holders := [o, r] } :: l.chains }))).answer (.done (256 * cells.headD 0))

/-- Returns n reserved cells unused. -/
def Chip.unreserve (ch : Chip) (n : Nat) : Chip := ch.relist (fun l => Ladle.trimKept { l with reserved := l.reserved - n })

/-- Releases, under requester r, the chain whose cells are these (nothing when there is none). -/
def Chip.releaseCells (ch : Chip) (r : Nat) (cells : List Nat) : Chip :=
  match cells with
  | [] => ch
  | i :: _ => ch.releaseUnit r (256 * i)

/-- Every unit that owner r holds is released (Table 6-9 step 5, R156, R499). -/
def Chip.releaseAll (ch : Chip) (r : Nat) : Chip :=
  let heads := (ch.ladle.chains.filter (fun k => k.holders.contains r)).map (fun k => 256 * k.cells.headD 0)
  let blocks := (List.range 64).filter (fun j => match ch.ladle.blocks[j]? with
    | some b => decide (b.state = .held) && b.holders.contains r
    | none => false)
  (heads ++ blocks.map (65536 * ·)).foldl (fun c1 a => c1.releaseUnit r a) ch

/-! ### Partition moves (R242) -/

/-- The next bank begins to leave, if the boundary is not yet where the active generation puts it: its free units come off
the list, except cells that outstanding reservations need. -/
def Chip.leaveNext (ch : Chip) : Chip :=
  let l := ch.ladle
  let goal := ch.passQ.active.cellBanks.toNat
  if ¬ l.built ∨ l.leaving.isSome then ch
  else if goal < l.cellBanks then ch.relist (fun l => Ladle.noteLow (Ladle.trimKept { l with leaving := some (l.cellBanks - 1) }))
  else if l.cellBanks < goal then
    let b := l.cellBanks
    ch.relist (fun l => Ladle.noteLow { l with leaving := some b, freeBlocks := l.freeBlocks.filter (fun j => blockBank j != b) })
  else ch

/-- Whether bank b holds no held unit and no cell kept for a reservation. -/
def Ladle.bankIdle (l : Ladle) (b : Nat) : Bool :=
  !(l.chains.any (fun k => k.cells.any (fun i => cellBank i == b))) &&
  !(l.freeCells.any (fun i => cellBank i == b)) &&
  (List.range 4).all (fun q => match l.blocks[4 * b + q]? with
    | some e => decide (e.state ≠ .held)
    | none => true)

/-- The units of a bank in ascending number. -/
def bankCells (b : Nat) : List Nat := (List.range 1024).map (1024 * b + ·)
def bankBlocks (b : Nat) : List Nat := (List.range 4).map (4 * b + ·)

/-- BANK_JOIN (R242). -/
def Chip.bankJoin (ch : Chip) : Chip :=
  match ch.ladle.leaving with
  | none => ch
  | some b =>
    if ¬ ch.ladle.bankIdle b then ch
    else if b < ch.ladle.cellBanks then
      let free := (bankBlocks b).filter (fun j => !blockRetired ch.retireList j)
      (ch.relist (fun l => { l with
        leaving := none, cellBanks := b, retired := l.retired.filter (fun i => cellBank i != b),
        freeBlocks := free ++ l.freeBlocks,
        blocks := (bankBlocks b).foldl (fun v j => v.setIfInBounds j
          (if blockRetired ch.retireList j then { state := .retired, owner := 126, holders := [] }
           else { state := .free, owner := 127, holders := [] })) l.blocks })).leaveNext
    else
      let ret := (bankCells b).filter (cellRetired ch.retireList)
      (ch.relist (fun l => { l with
        leaving := none, cellBanks := b + 1, headBanks := max l.headBanks (b + 1), freeCells := minus (bankCells b) ret ++ l.freeCells, retired := ret ++ l.retired,
        blocks := (bankBlocks b).foldl (fun v j => v.setIfInBounds j .outside) l.blocks })).leaveNext

/-! ### Building the lists (R233, R154; 19: Table 19-6) -/

/-- FREE_LIST_BUILD: both lists from the partition in force, without retired units; then the five open queues take one cell
each of owner 64. -/
def Chip.buildLists (ch : Chip) : Chip :=
  if ¬ (ch.power.core ∧ ch.sram.initDone) ∨ ch.ladle.built then ch
  else
    let n := ch.passQ.active.cellBanks.toNat
    let cells := List.range (1024 * n)
    let ret := cells.filter (cellRetired ch.retireList)
    let blocks := (List.range (64 - 4 * n)).map (4 * n + ·)
    let ch1 := ch.relist (fun l => Ladle.noteLow { l with
      built := true, cellBanks := n, headBanks := n, freeCells := minus cells ret, retired := ret, chains := [], reserved := 0, leaving := none,
      freeBlocks := blocks.filter (fun j => !blockRetired ch.retireList j),
      blocks := (List.range 64).foldl (fun v j => v.setIfInBounds j
        (if j < 4 * n then .outside
         else if blockRetired ch.retireList j then { state := .retired, owner := 126, holders := [] }
         else { state := .free, owner := 127, holders := [] })) l.blocks })
    ((List.range 5).foldl (fun c1 _ => c1.allocCells 64 64 1 false) ch1).settleSram

/-- DRAIN_CRITICAL_GRANT: the oldest waiting allocation is served when units for it are free (R234). -/
def Chip.grantWaiting (ch : Chip) : Chip :=
  match ch.ladle.waiting with
  | [] => ch
  | w :: ws =>
    let ready := if w.n = 0 then !ch.ladle.freeBlocks.isEmpty
      else decide (w.n + cellFloor w.requester true ≤ ch.ladle.cellsFree ∧ w.n ≤ ch.ladle.openCells.length)
    if ready then
      let ch1 := ch.modLadle (fun l => { l with waiting := ws })
      match w.address with
      | some a => ch1.extendChain w.requester a w.n true
      | none => if w.n = 0 then ch1.allocBlock w.requester w.owner true else ch1.allocCells w.requester w.owner w.n true
    else ch

/-! ### The commands of this family -/

/-- Whether Ladle serves requests: its domain is on and its lists are built (R233, R465). -/
def Chip.ladleOn (ch : Chip) : Bool := ch.power.core && ch.ladle.built

/-- The chain named at an address is that of a record. -/
def Rec.at (r : Rec) (address : Nat) : Bool := r.chain.head?.any (fun i => 256 * i == address)
def Staged.at (s : Staged) (i : Ctx) (address : Nat) : Bool :=
  match s with
  | .stored r => decide (r.ctx = i) && r.chain.head?.any (fun j => 256 * j == address)
  | .marks .. => false

/-- What an engine consumes for a context (R227): the Cook its commands and notices; port data movement a WRITE_DATA of one of its port's
contexts, with the ticket's chain; Whisk compress the record at the head of the deck's WDATA queue, to draw, hand and release; Roller the
pipeline entry of that context. `address` is none for an allocation. -/
def Chip.consumes (ch : Chip) (engine : Nat) (i : Ctx) (address : Option Nat) : Bool :=
  let x := ch.ctxs.get i
  if engine = 65 then
    !x.executing.isEmpty || ch.decks.toList.any (fun k => k.cookQ.any (fun w => w.notice.any (fun n => n.ctx == i))) ||
      ch.tongsQ.any (fun n => n.ctx == i)
  else if 66 ≤ engine ∧ engine ≤ 70 then
    decide (x.port.val = engine - 66) && x.executing.any (fun e => e.op == .writeData) &&
      (match address, x.ticket with
       | some a, some t => t.record.at a
       | some _, none => false
       | none, _ => true)
  else if 72 ≤ engine ∧ engine ≤ 75 then
    (match (x.wdata.get (Fin.ofNat 4 (engine - 72))).head?, address with
     | some r, some a => r.at a
     | some _, none => true
     | none, _ => false)
  else if 80 ≤ engine ∧ engine ≤ 83 then
    (match address with
     | some a => (ch.decks.get (Fin.ofNat 4 (engine - 80))).staged.any (fun s => s.at i a)
     | none => false)
  else false

/-- An engine may make a request under number r (R227). -/
def Chip.lawful (ch : Chip) (engine r : Nat) (address : Option Nat) : Bool :=
  if h : r < 64 then ch.consumes engine ⟨r, h⟩ address else decide (r = engine)

/-- An allocation under a number that the engine may not use is refused NOT_HOLDER (R227). -/
def allocCellsEffect (engine requester owner n : Nat) (critical : Bool) (ch : Chip) : Chip :=
  if ¬ ch.ladleOn then ch
  else if ch.lawful engine requester none then ch.allocCells requester owner n critical else ch.notHolder 0 requester 1
def extendEffect (engine requester address n : Nat) (critical : Bool) (ch : Chip) : Chip :=
  if ch.ladleOn then ch.extendChain requester address n critical (ch.lawful engine requester (some address)) else ch
def allocBlockEffect (engine requester owner : Nat) (critical : Bool) (ch : Chip) : Chip :=
  if ¬ ch.ladleOn then ch
  else if ch.lawful engine requester none then ch.allocBlock requester owner critical else ch.notHolder 0 requester 3
def handEffect (engine requester address holder : Nat) (critical : Bool) (ch : Chip) : Chip :=
  if ch.ladleOn then ch.handUnit requester address holder critical (ch.lawful engine requester (some address)) else ch
def releaseEffect (engine requester address : Nat) (ch : Chip) : Chip :=
  if ch.ladleOn then ch.releaseUnit requester address (ch.lawful engine requester (some address)) else ch

/-- ALLOC_CELLS (R235, R237). -/
def execAllocCells (engine requester owner n : Nat) (critical : Bool) (s : State) : Host.Outcome State Fault Refusal :=
  s.onChip (allocCellsEffect engine requester owner n critical)
/-- EXTEND (R235, R236). -/
def execExtend (engine requester address n : Nat) (critical : Bool) (s : State) : Host.Outcome State Fault Refusal :=
  s.onChip (extendEffect engine requester address n critical)
/-- ALLOC_BLOCK (R235, R237). -/
def execAllocBlock (engine requester owner : Nat) (critical : Bool) (s : State) : Host.Outcome State Fault Refusal :=
  s.onChip (allocBlockEffect engine requester owner critical)
/-- HAND (R235, R236, R239). -/
def execHand (engine requester address holder : Nat) (critical : Bool) (s : State) : Host.Outcome State Fault Refusal :=
  s.onChip (handEffect engine requester address holder critical)
/-- RELEASE (R238). -/
def execRelease (engine requester address : Nat) (s : State) : Host.Outcome State Fault Refusal :=
  s.onChip (releaseEffect engine requester address)
/-- DRAIN_CRITICAL_GRANT (R234). -/
def execDrainCriticalGrant (s : State) : Host.Outcome State Fault Refusal := s.onChip Chip.grantWaiting
/-- BANK_JOIN (R242). -/
def execBankJoin (s : State) : Host.Outcome State Fault Refusal := s.onChip Chip.bankJoin
/-- FREE_LIST_BUILD (R233). -/
def execFreeListBuild (s : State) : Host.Outcome State Fault Refusal := s.onChip Chip.buildLists
/-- LADLE_CLEAR_LOW (R246): LADLE_LOW takes the present free counts. -/
def ladleClearLowEffect (ch : Chip) : Chip :=
  ch.modLadle (fun l => { l with lowCells := BitVec.ofNat 15 l.cellsFree, lowBlocks := BitVec.ofNat 7 l.blocksFree })
def execLadleClearLow (s : State) : Host.Outcome State Fault Refusal := s.onRegister ladleClearLowEffect

end Sys2Proof.Machine
end

