-- ==== Sys2Proof/Machine/Admission.lean ====
section
/-! DEFINITION. Sieve's checks and command admission (05: R119–R131; 06: R154, R160; 07, 08: opcode bytes and request lengths), and
how the Cook takes a command. -/

namespace Sys2Proof.Machine

/-- Every opcode, in opcode order. -/
def allOps : List Op :=
  [.ctxOpen, .ctxClose, .ctxReset, .eventsFetch, .statusPeek, .queueConfig, .quotaQuery, .timeRead, .deckLock, .deckUnlock,
   .deckAdopt, .load, .unload, .home, .deckStop, .deckStatus, .loopOpen, .loopClose, .loopWrite, .loopRead, .autotune,
   .autotuneResult, .tripClear, .speedPolicy, .writeRecord, .writeData, .writeFilemark, .flush, .readRecord, .readMore,
   .locate, .space, .rewind, .positionRead, .eraseFromHere, .formatTape, .verify, .compressionSet, .profileLoad]

/-- Opcode bytes (Tables 7-1 and 8-1). -/
def Op.byte : Op → Nat
  | .ctxOpen => 0x01 | .ctxClose => 0x02 | .ctxReset => 0x03 | .eventsFetch => 0x04 | .statusPeek => 0x05
  | .queueConfig => 0x06 | .quotaQuery => 0x07 | .timeRead => 0x08
  | .deckLock => 0x10 | .deckUnlock => 0x11 | .deckAdopt => 0x12 | .load => 0x13 | .unload => 0x14 | .home => 0x15
  | .deckStop => 0x16 | .deckStatus => 0x17 | .loopOpen => 0x18 | .loopClose => 0x19 | .loopWrite => 0x1A
  | .loopRead => 0x1B | .autotune => 0x1C | .autotuneResult => 0x1D | .tripClear => 0x1E | .speedPolicy => 0x1F
  | .writeRecord => 0x20 | .writeData => 0x21 | .writeFilemark => 0x22 | .flush => 0x23 | .readRecord => 0x24
  | .readMore => 0x25 | .locate => 0x26 | .space => 0x27 | .rewind => 0x28 | .positionRead => 0x29
  | .eraseFromHere => 0x2A | .formatTape => 0x2B | .verify => 0x2C | .compressionSet => 0x2D | .profileLoad => 0x2E

/-- The opcode a byte names, if it is defined (check 8). -/
def opOfByte (b : Byte) : Option Op := allOps.find? (fun o => o.byte == b.toNat)

/-- Permitted request lengths (check 12; Tables 7-1 and 8-1). -/
def Op.lengthOk (o : Op) (n : Nat) : Bool :=
  match o with
  | .ctxOpen => n == 0 || n == 4
  | .ctxClose | .ctxReset | .statusPeek | .quotaQuery | .timeRead => n == 0
  | .eventsFetch => n == 0 || n == 2
  | .queueConfig | .deckUnlock | .deckAdopt | .load | .unload | .home | .deckStop | .deckStatus | .loopOpen | .loopClose
  | .autotuneResult | .tripClear | .writeFilemark | .flush | .rewind | .positionRead | .eraseFromHere | .compressionSet => n == 4
  | .deckLock | .autotune | .writeRecord | .readRecord | .readMore | .space | .verify => n == 8
  | .loopWrite => 12 ≤ n && n ≤ 516 && (n - 12) % 8 == 0
  | .loopRead => 6 ≤ n && n ≤ 132 && (n - 6) % 2 == 0
  | .speedPolicy | .formatTape => n == 12
  | .writeData => 1 ≤ n && n ≤ 4096
  | .locate => n == 16
  | .profileLoad => n == 132

/-! ### Header fields of received bytes (Table 5-1) -/

/-- Payload length field. -/
def hdrLength (bs : List Byte) : Nat := leAt bs 4 2
/-- flags[0], a CRC-16 trailer follows. -/
def hdrPcrc (bs : List Byte) : Bool := (byteAt bs 6).getLsbD 0
def hdrRcrc (bs : List Byte) : Bool := (byteAt bs 6).getLsbD 1
/-- Whether the header CRC-8 matches (R121). -/
def hdrCrcOk (bs : List Byte) : Bool := decide (8 ≤ bs.length) && crc8 (bs.take 7) == byteAt bs 7
/-- Expected length of a host packet in bytes (R75). -/
def packetExpected (bs : List Byte) : Nat := 8 + hdrLength bs + (if hdrPcrc bs then 2 else 0)
/-- The payload bytes of a complete packet. -/
def packetPayload (bs : List Byte) : List Byte := (bs.drop 8).take (hdrLength bs)
/-- The payload CRC-16 matches, when there is one (R122). -/
def payloadCrcOk (bs : List Byte) : Bool :=
  !hdrPcrc bs || leBytes 2 (crc16 (packetPayload bs)).toNat == (bs.drop (8 + hdrLength bs)).take 2

/-- Context and tag that a refusal carries (R84, R128). -/
def refusalCtx (bs : List Byte) : Byte := if hdrCrcOk bs then byteAt bs 1 else 0xFF
def refusalTag (bs : List Byte) : W16 := if hdrCrcOk bs then BitVec.ofNat 16 (leAt bs 2 2) else 0xFFFF

/-! ### Start-up phase and SAFE (R134, R136, R476, R497) -/

/-- The phase detail while the start-up phase runs. -/
def Chip.phase (ch : Chip) : Option Stat :=
  if ch.power.core && !ch.power.cookTook then some (if ch.sram.initDone then Stat.cookBoot else Stat.sramInit) else none

/-! ### Wire replies (R79, R84, R128) -/

/-- A waiting wire reply. -/
def wireReply (ctx : Byte) (tag : W16) (st : Stat) (time : W64) : Reply :=
  { type := 0x80, ctx := ctx, tag := tag, stat := st, payload := [], trailer := false, time := time, fetch := none }

/-- The counter of wire replies that found no slot (EHR_CNT_WIRELOST, SPI_CNT_WIRELOST). -/
def Chip.wireLost (ch : Chip) (p : Port) : Chip :=
  if h : p.val < 4 then ch.modEhran ⟨p.val, h⟩ (fun e => { e with wireLost := e.wireLost + 1 })
  else { ch with spi := { ch.spi with wireLost := ch.spi.wireLost + 1 } }

/-- Offers a wire reply in one of the port's four slots; whether it found one. -/
def Chip.offerWire (ch : Chip) (p : Port) (r : Reply) : Chip × Bool :=
  if (ch.replyOut p).wire.length < 4 then (ch.modReplyOut p (fun o => { o with wire := o.wire ++ [r] }), true)
  else (ch.wireLost p, false)

/-- A Sieve refusal: counted, recorded in PCHK_LAST, and offered (R128, R129). -/
def Chip.refuse (ch : Chip) (p : Port) (bs : List Byte) (st : Stat) : Chip :=
  let cls := st.toNat / 256
  let last : W32 := BitVec.ofNat 32 (st.toNat + 65536 * (refusalCtx bs).toNat + 16777216 * (byteAt bs 0).toNat)
  let ch1 := ch.modSieve p (fun v => { v with
    refuse := v.refuse + 1, last := last,
    hdrcrc := if st = Stat.hdrCrc then v.hdrcrc + 1 else v.hdrcrc,
    paycrc := if st = Stat.payloadCrc then v.paycrc + 1 else v.paycrc,
    init := if cls = 3 then v.init + 1 else v.init,
    busy := if cls = 2 then v.busy + 1 else v.busy })
  let r := ch1.offerWire p (wireReply (refusalCtx bs) (refusalTag bs) st ch.now)
  if r.2 then r.1 else r.1.modSieve p (fun v => { v with noslot := v.noslot + 1 })

/-! ### Admission (Table 5-4, checks 4 to 16; R154, R160) -/

/-- Entries of the open queue of port p (R154). -/
def Chip.openUsed (ch : Chip) (p : Port) : Nat := (ch.openQ.filter (fun c => decide (c.port = p))).length

/-- Places an admitted command (R154, R160, R172): a CTX_RESET makes its context RESETTING; a CTX_OPEN whose context has no CMD
queue enters the port's open queue. -/
def Chip.place (ch : Chip) (_p : Port) (cmd : Cmd) : Chip :=
  let x := ch.ctxs.get cmd.ctx
  if x.isOpen then
    if cmd.op = .ctxReset then
      ch.modCtx cmd.ctx (fun y =>
        if y.cmd.length < y.depth 0 then { y with state := .resetting, cmd := y.cmd ++ [cmd], cmdAt := y.cmdAt ++ [ch.now] }
        else { y with state := .resetting, heldReset := some cmd })
    else ch.modCtx cmd.ctx (fun y => { y with cmd := y.cmd ++ [cmd], cmdAt := y.cmdAt ++ [ch.now] })
  else { ch with openQ := ch.openQ ++ [cmd] }

/-- The first failing check of 4 to 16, or the command that is admitted. -/
def Chip.check (ch : Chip) (p : Port) (bs : List Byte) : Stat ⊕ Cmd :=
  match ch.phase with
  | some st => .inl st
  | none =>
    if ¬ hdrCrcOk bs then .inl Stat.hdrCrc
    else if ¬ payloadCrcOk bs then .inl Stat.payloadCrc
    else if 4 ≤ (byteAt bs 6).toNat then .inl Stat.reservedNonzero
    else match opOfByte (byteAt bs 0) with
      | none => .inl Stat.badOpcode
      | some op =>
        if h : (byteAt bs 1).toNat < 64 then
          let i : Ctx := ⟨(byteAt bs 1).toNat, h⟩
          let x := ch.ctxs.get i
          let cmd : Cmd := { op := op, ctx := i, tag := BitVec.ofNat 16 (leAt bs 2 2), rcrc := hdrRcrc bs, port := p,
                             payload := packetPayload bs }
          if ¬ (x.isOpen || decide (op = .ctxOpen)) then .inl Stat.ctxNotOpen
          else if op ≠ .ctxOpen ∧ x.port ≠ p then .inl Stat.ctxOtherPort
          else if ¬ op.lengthOk (hdrLength bs) then .inl Stat.badLength
          else if x.state = .resetting then .inl Stat.resetPending
          else if ch.cook.safe then .inl Stat.safe
          else if x.isOpen ∧ op ≠ .ctxReset ∧ x.depth 1 ≤ ch.outstanding i then .inl Stat.admissionStopped
          else if x.isOpen ∧ op ≠ .ctxReset ∧ x.depth 0 ≤ x.cmd.length + 1 then .inl Stat.cmdqFull
          else if ¬ x.isOpen ∧ 8 ≤ ch.openUsed p then .inl Stat.cmdqFull
          else .inr cmd
        else .inl Stat.badContext

/-- Checks 4 to 16 for one packet: admitted, or refused in place. -/
def Chip.sieve4to16 (ch : Chip) (p : Port) (bs : List Byte) : Chip :=
  match ch.check p bs with
  | .inl st => ch.refuse p bs st
  | .inr cmd => (ch.modSieve p (fun v => { v with admitted := v.admitted + 1 })).place p cmd

/-! ### The Cook takes a command (R176, R154) -/

/-- The command that a host-opcode row stands for. -/
def cmdOf (op : Op) (h : CmdHdr) (p : List Byte) : Cmd :=
  { op := op, ctx := h.ctx, tag := h.tag, rcrc := h.rcrc, port := h.port, payload := p }

/-- The Cook takes this command, if it can (R154, R248, R252): it is the oldest entry of the open queues, or the head of its context's
CMD queue while the context holds an F-PORT grant whose unit is still to be used. `none` when the Cook takes no command, or not this
one. A RESETTING context's commands are not taken (Table 6-9, step 1). -/
def Chip.take (ch : Chip) (cmd : Cmd) : Option Chip :=
  let x := ch.ctxs.get cmd.ctx
  let ch0 := { ch with cook := { ch.cook with state := .running } }
  if ¬ ch.cookCan then none
  else if cmd.op = .ctxOpen ∧ ch.openQ.head? = some cmd then
    if x.state = .resetting then none else some { ch0 with openQ := ch.openQ.tail }
  else if x.state = .open ∧ x.cmd.head? = some cmd ∧ ch.grantFor 16 cmd.ctx.val then
    some ((ch0.useGrant 16).modCtx cmd.ctx (fun z => { z with cmd := z.cmd.tail, cmdAt := z.cmdAt.tail }))
  else none

/-- A command has started and is executing until its completion (R176, R207). -/
def Chip.execute (ch : Chip) (cmd : Cmd) (d : Option Deck) : Chip :=
  ch.modCtx cmd.ctx (fun x => { x with executing := x.executing ++
    [{ op := cmd.op, tag := cmd.tag, rcrc := cmd.rcrc, deck := d }] })

/-- A command completes with no payload. -/
def Chip.answerCmd (ch : Chip) (cmd : Cmd) (st : Stat) (payload : List Byte) : Chip :=
  ch.complete cmd.ctx cmd.tag cmd.rcrc st payload

/-- Bytes from, up to: a field of a payload. -/
def fieldZero (p : List Byte) (off n : Nat) : Bool := (List.range n).all (fun i => byteAt p (off + i) == 0#8)

end Sys2Proof.Machine
end

