-- ==== Sys2Proof/Machine/Session.lean ====
section
/-! DEFINITION. The session opcodes that read or configure a context: EVENTS_FETCH, STATUS_PEEK, QUEUE_CONFIG, QUOTA_QUERY and
TIME_READ (05: R143; 06: R161, R162; 07: R183–R186), and queue storage (06: R158, R159). -/

namespace Sys2Proof.Machine

/-! ### Queue storage (R158, R159) -/

/-- Cells of a queue of depth n (R158). -/
def queueCells (n : Nat) : Nat := (n + 14) / 15

/-- Default depth of the queue at offset k (Table 6-4). -/
def defaultDepth (k : Nat) : Nat := if k < 3 then 8 else if k < 11 then 16 else 4

/-- The queue table draws the default queues of a context; `critical` at a reset, when the Pantry serves any shortfall. -/
def Chip.drawQueues (ch : Chip) (i : Ctx) (critical : Bool) : Chip :=
  (List.range 12).foldl (fun c1 k =>
    let c2 := c1.allocCells 64 64 (queueCells (defaultDepth k)) critical
    match c2.ladleAnswer with
    | .done a => c2.modCtx i (fun x => { x with storage := x.storage ++ [(k, a)] })
    | _ => c2) (ch.modCtx i (fun x => { x with storage := [] }))

/-- Every queue of a context returns its cells. -/
def Chip.returnQueues (ch : Chip) (i : Ctx) : Chip :=
  ((ch.ctxs.get i).storage.foldl (fun c1 q => c1.releaseUnit 64 q.2) ch).modCtx i (fun x => { x with storage := [] })

/-- Cells of the default queues, 20 in all (Table 6-4). -/
def defaultCells : Nat := ((List.range 12).map (fun k => queueCells (defaultDepth k))).foldl (· + ·) 0

/-- The storage of every queue of context i has been drawn. -/
def Chip.queuesDrawn (ch : Chip) (i : Ctx) : Bool := decide ((ch.ctxs.get i).storage.length = 12)

/-- The queue at offset k moves from n0 to n1 cells: the chain is extended, which Ladle may refuse (R237), or its last cells return at
once (R162). -/
def Chip.resizeQueue (ch : Chip) (i : Ctx) (k n0 n1 : Nat) : Chip × Option Stat :=
  match ((ch.ctxs.get i).storage.find? (fun q => q.1 == k)) with
  | none => (ch, none)
  | some q =>
    if n0 < n1 then
      let c1 := ch.extendChain 64 q.2 (n1 - n0) false
      (c1, c1.ladleAnswer.refusal)
    else if n1 < n0 then (ch.shrinkChain q.2 n1, none)
    else (ch, none)

/-! ### EVENTS_FETCH (R143, R183) -/

/-- Bytes of an event record (Table 5-7). -/
def EventRec.bytes (r : EventRec) : List Byte :=
  [r.code, r.count] ++ leBytes 2 r.object.toNat ++ leBytes 4 r.arg.toNat ++ leBytes 8 r.time.toNat

/-- The payload of an EVENTS_FETCH completion that takes at most `max` records (Table 7-4). -/
def EvtQueue.fetchBytes (q : EvtQueue) (max : Nat) : List Byte :=
  let n := min max q.recs.length
  [BitVec.ofNat 8 n, (if q.lost = 0 then 0#8 else 0x80#8) ||| q.lostClass.setWidth 8]
    ++ leBytes 2 q.lost.toNat ++ leBytes 2 (q.recs.length - n) ++ [0#8, 0#8] ++ (q.recs.take n).flatMap EventRec.bytes

/-- The queue after the take: records gone, lost count and class cleared (R143). -/
def EvtQueue.fetched (q : EvtQueue) (max : Nat) : EvtQueue :=
  { q with recs := q.recs.drop max, lost := 0, lostClass := 0 }

/-- EVENTS_FETCH: the completion enters the RPL queue; its records are taken when it is staged (R143). -/
def eventsFetchEffect (h : CmdHdr) (p : List Byte) (ch : Chip) : Chip :=
  let cmd := cmdOf .eventsFetch h p
  match ch.take cmd with
  | none => ch
  | some c1 =>
    if ¬ fieldZero p 1 1 then c1.answerCmd cmd Stat.reservedNonzero []
    else
      let n := if (byteAt p 0).toNat = 0 then 255 else (byteAt p 0).toNat
      c1.modCtx h.ctx (fun x => { x with rpl := x.rpl ++ [{ ctxReply 0x80 h.ctx h.tag h.rcrc Stat.done [] c1.now with
                                                              fetch := some n }] })

/-! ### STATUS_PEEK, QUOTA_QUERY, TIME_READ -/

/-- The decks of which context i is holder (low nibble) and former owner (high nibble). -/
def Chip.deckMask (ch : Chip) (i : Ctx) : Nat :=
  (allDecks.map (fun d => match (ch.decks.get d).lock.state with
    | .held j => if j = i then 2 ^ d.val else 0
    | .draining j | .window j => if j = i then 2 ^ (4 + d.val) else 0
    | .free => 0)).foldl (· + ·) 0

def statusPeekBytes (ch : Chip) (i : Ctx) : List Byte :=
  let x := ch.ctxs.get i
  [BitVec.ofNat 8 x.port.val, BitVec.ofNat 8 (ch.deckMask i)] ++ leBytes 2 x.cmd.length ++ leBytes 2 x.rpl.length
    ++ leBytes 2 x.evt.recs.length ++ leBytes 2 x.evt.lost.toNat
    ++ [x.nibble.setWidth 8, BitVec.ofNat 8 x.executing.length, 0, 0, 0, 0]

def quotaQueryBytes (ch : Chip) (i : Ctx) : List Byte :=
  let x := ch.ctxs.get i
  leBytes 2 x.cellLimit ++ leBytes 2 (ch.ladle.cellsHeld i.val) ++ leBytes 2 (min x.blockQuota.toNat 64)
    ++ leBytes 2 (ch.ladle.blocksHeld i.val) ++ leBytes 2 (ch.ladle.cellsFree - pantryCells)
    ++ leBytes 2 (ch.ladle.blocksFree - pantryBlocks) ++ leBytes 4 0

/-- TB_STATUS.ref_state (R64): 0 ABSENT, 1 ACQUIRING, 2 LOCKED, 3 FREE_RUN. -/
def RefState.code : RefState → Nat
  | .absent => 0
  | .acquiring => 1
  | .locked => 2
  | .freeRun => 3

def timeReadBytes (ch : Chip) : List Byte :=
  leBytes 8 ch.now.toNat ++ [BitVec.ofNat 8 (bit ch.freeRunning + 2 * bit ch.timebase.ref20),
    BitVec.ofNat 8 ch.timebase.refState.code] ++ leBytes 6 0

/-- A session opcode with no request payload that only reads. -/
def readEffect (op : Op) (h : CmdHdr) (p : List Byte) (bytes : Chip → List Byte) (ch : Chip) : Chip :=
  let cmd := cmdOf op h p
  match ch.take cmd with
  | none => ch
  | some c1 => c1.answerCmd cmd Stat.done (bytes c1)

/-! ### QUEUE_CONFIG (R161, R162, R184) -/

/-- Present occupancy of the queue at offset k. -/
def Context.used (x : Context) (k : Nat) : Nat :=
  match k with
  | 0 => x.cmd.length
  | 1 => x.rpl.length
  | 2 => x.evt.recs.length
  | n => if n < 7 then (x.wdata.get (Fin.ofNat 4 (n - 3))).length
    else if n < 11 then (x.rdata.get (Fin.ofNat 4 (n - 7))).length else 0

/-- Own depth of the queue at offset k, the spare's at 11. -/
def Context.ownDepth (x : Context) (k : Nat) : Nat :=
  match k with
  | 0 => x.cmdDepth
  | 1 => x.rplDepth
  | 2 => x.evt.depth
  | n => if n < 7 then x.wDepth.get (Fin.ofNat 4 (n - 3))
    else if n < 11 then x.rDepth.get (Fin.ofNat 4 (n - 7)) else x.spareDepth

/-- Sets the own depth of the queue at offset k. -/
def Context.setDepth (x : Context) (k n : Nat) : Context :=
  match k with
  | 0 => { x with cmdDepth := n }
  | 1 => { x with rplDepth := n }
  | 2 => { x with evt := { x.evt with depth := n } }
  | m => if m < 7 then { x with wDepth := x.wDepth.set (Fin.ofNat 4 (m - 3)) n }
    else if m < 11 then { x with rDepth := x.rDepth.set (Fin.ofNat 4 (m - 7)) n } else { x with spareDepth := n }

/-- The spare's depth where it extends the queue at offset k. -/
def Context.spareOn (x : Context) (k : Nat) : Nat :=
  match x.spare with
  | some q => if q.val = k then x.spareDepth else 0
  | none => 0

/-- What must fit into the queue: its occupancy, or for RPL the outstanding count with this command executing (Table 6-5). -/
def Chip.mustFit (ch : Chip) (i : Ctx) (k : Nat) : Nat :=
  if k = 1 then ch.outstanding i + 1 else (ch.ctxs.get i).used k

/-- The primary queue of the one that a target names: the queue that the attached spare extends, else the target itself (R162). -/
def Context.primary (x : Context) (k : Nat) : Nat :=
  match x.spare with
  | some q => if k = 11 then q.val else k
  | none => k

/-- Effective depth of a target: combined when the spare is attached (Table 7-4). -/
def Context.effective (x : Context) (k : Nat) : Nat := x.ownDepth (x.primary k) + x.spareOn (x.primary k)

/-- The effective depth that a target has after an action. -/
def Context.wouldBe (x : Context) (action k n : Nat) : Nat :=
  if action = 2 then x.ownDepth k
  else if k = 11 ∧ x.spare.isSome then x.ownDepth (x.primary k) + n
  else n + x.spareOn k

/-- Table 6-5, rows 1 to 3, with R184. Whether action 0 reaches the spare while it is attached is open: the model takes it, and judges
row 3 by the combined queue (log entry 32). -/
def Chip.queueConfigRefusal (ch : Chip) (i : Ctx) (k action n : Nat) : Option Stat :=
  let x := ch.ctxs.get i
  if 11 < k ∨ 2 < action ∨ (action ≠ 0 ∧ k = 11) ∨ (action ≠ 2 ∧ (n < 4 ∨ 256 < n)) ∨ (action = 2 ∧ x.spareOn k = 0) then some Stat.badField
  else if action = 1 ∧ x.spare.isSome then some Stat.queueQuota
  else if action ≠ 1 ∧ x.wouldBe action k n < ch.mustFit i (x.primary k) then some Stat.ctxState
  else none

/-- QUEUE_CONFIG's change to the context. -/
def Context.configure (x : Context) (k action n : Nat) : Context :=
  if action = 0 then x.setDepth k n
  else if action = 1 then { x.setDepth 11 n with spare := if hk : k < 11 then some ⟨k, hk⟩ else none }
  else { x with spare := none }

/-- The answer of QUEUE_CONFIG and, when it is DONE, the change (R184, Table 6-5). Detaching leaves the spare its depth and cells. -/
def queueConfigEffect (h : CmdHdr) (p : List Byte) (ch : Chip) : Chip :=
  let cmd := cmdOf .queueConfig h p
  match ch.take cmd with
  | none => ch
  | some c1 =>
    let x := c1.ctxs.get h.ctx
    let k := (byteAt p 0).toNat
    let action := (byteAt p 1).toNat
    let n := leAt p 2 2
    let reply (y : Context) : List Byte := leBytes 2 (12 * h.ctx.val + k) ++ leBytes 2 (y.effective k)
    if action = 2 ∧ n ≠ 0 then c1.answerCmd cmd Stat.reservedNonzero []
    else if action = 2 ∧ x.spare = none then c1.answerCmd cmd Stat.already (reply x)
    else match c1.queueConfigRefusal h.ctx k action n with
      | some st => c1.answerCmd cmd st []
      | none =>
        let q := if action = 0 then k else 11
        let have_ := queueCells (x.ownDepth q)
        let want := if action = 2 then have_ else queueCells n
        match c1.resizeQueue h.ctx q have_ want with
        | (c2, some st) => c2.answerCmd cmd st []
        | (c2, none) =>
          let c3 := c2.modCtx h.ctx (fun y => y.configure k action n)
          c3.answerCmd cmd Stat.done (reply (c3.ctxs.get h.ctx))

/-! ### The commands -/

/-- EVENTS_FETCH (R143). -/
def execEventsFetch (h : CmdHdr) (p : List Byte) (s : State) : Host.Outcome State Fault Refusal := s.onChip (eventsFetchEffect h p)
/-- STATUS_PEEK (R183). -/
def execStatusPeek (h : CmdHdr) (p : List Byte) (s : State) : Host.Outcome State Fault Refusal :=
  s.onChip (readEffect .statusPeek h p (fun c => statusPeekBytes c h.ctx))
/-- QUEUE_CONFIG (R161, R184). -/
def execQueueConfig (h : CmdHdr) (p : List Byte) (s : State) : Host.Outcome State Fault Refusal := s.onChip (queueConfigEffect h p)
/-- QUOTA_QUERY (R183). -/
def execQuotaQuery (h : CmdHdr) (p : List Byte) (s : State) : Host.Outcome State Fault Refusal :=
  s.onChip (readEffect .quotaQuery h p (fun c => quotaQueryBytes c h.ctx))
/-- TIME_READ (R183). -/
def execTimeRead (h : CmdHdr) (p : List Byte) (s : State) : Host.Outcome State Fault Refusal :=
  s.onChip (readEffect .timeRead h p timeReadBytes)

end Sys2Proof.Machine
end

