-- ==== Sys2Proof/Machine/Kettle.lean ====
section
/-! DEFINITION. Kettle: modes, site demands, slack, the control procedure, declarations and overruns (02: R55–R63; 01: R34). -/

namespace Sys2Proof.Machine

def Chip.modKettle (ch : Chip) (f : Kettle → Kettle) : Chip := { ch with kettle := f ch.kettle }

/-! ### Modes and voltage limits (R55, R56) -/

/-- Floor mode of one loop period in 100 ns units (R56): 0 ECONOMY, 1 BALANCED, 2 SPRINT. -/
def floorOf (period : BitVec 12) : Nat :=
  if period = 0 then 0 else if period.toNat ≤ 49 then 2 else if period.toNat ≤ 99 then 1 else 0

/-- Floor mode of all decks. -/
def Kettle.floor (k : Kettle) : Nat := (k.decks.toList.map (fun l => floorOf l.loopPeriod)).foldl max 0

/-- The effective mode (R56); mode_req 3 is treated as 2. -/
def Kettle.mode (k : Kettle) : Nat := max (min k.modeReq.toNat 2) k.floor

/-- vmax and vmin as codes in force (Table 2-5). -/
def Kettle.vmax (k : Kettle) : Nat := min k.vmaxCode.toNat 70
def Kettle.vmin (k : Kettle) : Nat := min (min k.vminCode.toNat 70) k.vmax

/-- Lowest and highest voltage code of a mode (Table 2-3). -/
def Kettle.vlow (k : Kettle) (mode : Nat) : Nat := if mode = 2 then k.vmax else k.vmin
def Kettle.vhigh (k : Kettle) (mode : Nat) : Nat := if mode = 0 then max k.vmin (min k.vmax 40) else k.vmax

/-- Slack margin of a mode in hundredths (Table 2-3). -/
def margin (mode : Nat) : Nat := if mode = 0 then 10 else 20

/-! ### Sites (R57, Table 2-4)

Sites 6d to 6d + 5 are deck d's two Simmer slices, Whisk compress, Whisk decompress, Roller and Strainer; sites 24 to 28 are port
data movement of the five ports. A site's slack is num/den. -/

/-- A slack as a fraction with a positive denominator. -/
structure Slack where
  num : Int
  den : Nat
  deriving DecidableEq, Repr

/-- Demand over reference throughput of a streaming engine: 1 − D·t / (R·90,000) for a slot time t in ps. -/
def engineSlack (demand ref t : Nat) : Slack := { num := (ref * 90000 : Nat) - (demand * t : Nat), den := ref * 90000 }

/-- Slack of the site at place j of a deck with load l; none when it carries no declared demand. -/
def deckSlack (l : DeckLoad) (j t : Nat) : Option Slack :=
  let cells := l.tracks.toNat * l.cellRate.toNat * 100000
  let bytes := l.tracks.toNat * l.cellRate.toNat * 14800
  if j < 2 then
    if l.loopPeriod = 0 then none
    else
      let window := (l.loopPeriod.toNat * 100 - 2000) * 1000
      some { num := (window : Int) - (6 * t : Nat), den := max window 1 }
  else if cells = 0 then none
  else if j = 2 then (if l.compress && !l.reading then some (engineSlack bytes 120000000 t) else none)
  else if j = 3 then (if l.decompress && l.reading then some (engineSlack bytes 240000000 t) else none)
  else if j = 4 then (if l.reading then none else some (engineSlack cells 800000000 t))
  else some (engineSlack cells 800000000 t)

/-- Power-domain number of a site (KETTLE_SLACK.worst_site). -/
def siteDomain (k : Kettle) (i : Nat) : Nat :=
  if i < 24 then
    let d := i / 6
    match i % 6 with
    | 0 => 36 + 2 * d
    | 1 => 37 + 2 * d
    | 2 => 48 + 6 * d
    | 3 => 49 + 6 * d
    | 4 => 50 + 6 * d
    | _ => if (k.decks.get (Fin.ofNat 4 d)).reading then 51 + 6 * d else 52 + 6 * d
  else 8

/-- Slack of site i under loads. -/
def siteSlack (decks : Vector DeckLoad 4) (ports : Vector (BitVec 6) 5) (times : List (BitVec 24)) (i : Nat) : Option Slack :=
  let t := ((times[i]?).getD 0).toNat
  if i < 24 then deckSlack (decks.get (Fin.ofNat 4 (i / 6))) (i % 6) t
  else
    let r := (ports.get (Fin.ofNat 5 (i - 24))).toNat
    if r = 0 then none else some (engineSlack r 60 t)

/-- a is less than b. -/
def Slack.lt (a b : Slack) : Bool := decide (a.num * b.den < b.num * a.den)

/-- At least m hundredths. -/
def Slack.atLeast (s : Slack) (m : Nat) : Bool := decide ((m * s.den : Nat) ≤ s.num * 100)

/-- More than m hundredths. -/
def Slack.above (s : Slack) (m : Nat) : Bool := decide (((m * s.den : Nat) : Int) < s.num * 100)

/-- The least slack over the monitored sites and its site, lower site first. -/
def leastSlack (decks : Vector DeckLoad 4) (ports : Vector (BitVec 6) 5) (times : List (BitVec 24)) : Option (Slack × Nat) :=
  (List.range 29).foldl (fun best i =>
    match siteSlack decks ports times i, best with
    | none, b => b
    | some s, none => some (s, i)
    | some s, some (b, j) => if s.lt b then some (s, i) else some (b, j)) none

/-- KETTLE_SLACK.worst_slack: units of 2⁻¹⁶, 0 when negative (R63). -/
def slackUnits (s : Slack) : W16 :=
  if s.num < 0 then 0 else BitVec.ofNat 16 (min ((s.num * 65536) / s.den).toNat 65535)

/-! ### Declarations (R34, R57, R60) -/

/-- The loads after one declaration. -/
def Kettle.apply (k : Kettle) (x : Declaration) : Kettle :=
  match x with
  | .deck d l => { k with decks := k.decks.set d l }
  | .port p r => { k with ports := k.ports.set p r }

/-- A declaration raises the load when it raises the demand on any site (R34); a shorter loop period raises a slice's. -/
def demandsOf (l : DeckLoad) : List Nat :=
  let cells := l.tracks.toNat * l.cellRate.toNat
  [if l.compress && !l.reading then cells else 0, if l.decompress && l.reading then cells else 0,
   if l.reading then 0 else cells, cells]

def loadRaises (old new : DeckLoad) : Bool :=
  (decide (new.loopPeriod ≠ 0) && (decide (old.loopPeriod = 0) || decide (new.loopPeriod.toNat < old.loopPeriod.toNat))) ||
  ((demandsOf old).zip (demandsOf new)).any (fun x => decide (x.1 < x.2))

def Kettle.isRaise (k : Kettle) (x : Declaration) : Bool :=
  match x with
  | .deck d l => loadRaises (k.decks.get d) l
  | .port p r => decide ((k.ports.get p).toNat < r.toNat)

/-- What a declaration came to at once (R34, R60, R509). -/
inductive Declared where
  | applied | waiting | rejected
  deriving DecidableEq, Repr

/-- A declaration pending for deck load `old` once the load in force becomes `new`: what it leaves as it is follows the load in
force. -/
def rebaseLoad (old new pending : DeckLoad) : DeckLoad :=
  { loopPeriod := if pending.loopPeriod = old.loopPeriod then new.loopPeriod else pending.loopPeriod,
    tracks := if pending.tracks = old.tracks then new.tracks else pending.tracks,
    reading := if pending.reading = old.reading then new.reading else pending.reading,
    compress := if pending.compress = old.compress then new.compress else pending.compress,
    decompress := if pending.decompress = old.decompress then new.decompress else pending.decompress,
    cellRate := if pending.cellRate = old.cellRate then new.cellRate else pending.cellRate }

/-- What becomes of a pending raise when its block declares anew (R34): the new declaration stands for the block, so that a raise
of the block itself is withdrawn; one that a host command waits for stays, on the load the block declares now. -/
def Raise.after (r : Raise) (k : Kettle) (x : Declaration) : Option Raise :=
  match r.decl, x with
  | .deck d l, .deck d' l' =>
    if d = d' then r.cmd.map (fun c => { decl := .deck d (rebaseLoad (k.decks.get d) l' l), cmd := some c }) else some r
  | .port p _, .port p' _ => if p = p' then none else some r
  | _, _ => some r

/-- A plane declares its load: a lowered one takes effect at once, a raised one waits, or is rejected at once while the
temperature limit is in force (R34, R60, R509). -/
def Chip.declare (ch : Chip) (x : Declaration) (cmd : Option Cmd) : Chip × Declared :=
  let c1 := ch.modKettle (fun k => { k with raising := k.raising.filterMap (fun r => r.after k x) })
  if ¬ ch.kettle.isRaise x then (c1.modKettle (fun k => k.apply x), .applied)
  else if ch.temp.limited then (c1.modKettle (fun k => { k with atCeiling := true }), .rejected)
  else (c1.modKettle (fun k => { k with raising := k.raising ++ [{ decl := x, cmd := cmd }] }), .waiting)

/-- Every pending declaration applied to the confirmed loads (R60). -/
def Kettle.withPending (k : Kettle) : Kettle := k.raising.foldl (fun k1 r => k1.apply r.decl) k

/-- Whether the whole pending set is covered by the measured slot times (R56, R60). -/
def Kettle.covered (k : Kettle) (times : List (BitVec 24)) : Bool :=
  let q := k.withPending
  let m := margin (if q.mode = 2 then 1 else q.mode)
  (List.range 29).all (fun i =>
    match siteSlack q.decks q.ports times i with
    | none => true
    | some s => decide (siteSlack q.decks q.ports times i = siteSlack k.decks k.ports times i) || s.atLeast m) &&
  (decide (q.floor ≠ 2) || decide (k.vmax = 70))

/-! ### The control procedure (R58) -/

/-- One step of ±1 code starts (R58). -/
def Kettle.stepUp (k : Kettle) : Kettle := { k with vcore := k.vcore + 1, calm := 0, settling := true }
def Kettle.stepDown (k : Kettle) : Kettle := { k with vcore := k.vcore - 1, settling := true }

/-- What stands in the way of a step that the procedure asks for. -/
inductive StepGate where
  | free      -- the step is made
  | later     -- it waits: a step settles or a calibration runs (R58, R65)
  | never     -- it is not made: KETTLE_CTRL.hold, or the timeline does not let Kettle step yet (R62)
  deriving DecidableEq, Repr

/-- The procedure asks for a step. -/
def Kettle.ask (k : Kettle) (gate : StepGate) (up : Bool) : Kettle :=
  match gate with
  | .free => if up then k.stepUp else k.stepDown
  | .later => { k with due := some up, calm := if up then 0 else k.calm }
  | .never => if up then { k with calm := 0 } else k

/-- The body of R58's procedure with the loads and pending declarations in force; `least` is the least slack of the monitored
sites, `short` says that a pending set is not covered. -/
def Kettle.control (k : Kettle) (gate : StepGate) (mode : Nat) (least : Option Slack) (short : Bool) : Kettle :=
  let v := k.vcore.toNat
  let low := k.vlow mode
  let high := k.vhigh mode
  let m := margin mode
  let below := short || (match least with
    | some s => !s.atLeast m
    | none => false)
  let roomy := !short && (match least with
    | some s => s.above (m + 5)
    | none => true)
  if v < low then k.ask gate true
  else if below ∧ v < high then k.ask gate true
  else if high < v then k.ask gate false
  else if roomy ∧ low < v then
    if k.calm + 1 = 10 then { k.ask gate false with calm := 0 } else { k with calm := k.calm + 1 }
  else { k with calm := 0 }

/-- Whether a step may be made now (R58, R62, R65, Table 19-6). -/
def Chip.stepGate (ch : Chip) : StepGate :=
  if ¬ ch.power.control ∨ ch.kettle.hold then .never
  else if ch.kettle.settling ∨ ch.timebase.busy then .later
  else .free

/-- An evaluation is made (R58): LOCKED and no power-fail warning. -/
def Chip.kettleEvaluates (ch : Chip) : Bool :=
  ch.power.core && decide (ch.timebase.refState = .locked) && !ch.power.warning

/-- Measurement and control step of one evaluation; the confirmation of declarations stands apart (`kettleEvaluateEffect`). -/
def Chip.kettleMeasure (ch : Chip) (times : List (BitVec 24)) : Chip :=
  let least := leastSlack ch.kettle.decks ch.kettle.ports times
  let short := !ch.kettle.raising.isEmpty && !ch.kettle.covered times
  let mode := if ch.kettle.raising.isEmpty then ch.kettle.mode else ch.kettle.withPending.mode
  ch.modKettle (fun k =>
    let k1 := { k with siteTimes := times, due := none,
                       slack := match least with
                         | some (s, _) => slackUnits s
                         | none => 0xFFFF,
                       slackSite := match least with
                         | some (_, i) => BitVec.ofNat 8 (siteDomain k i)
                         | none => 0 }
    k1.control ch.stepGate mode (least.map (·.1)) short)

/-- A step that waited for a calibration is made once nothing stands in its way (R65); it is dropped when the procedure may not
step any more, or the voltage has left it nothing to do. -/
def Chip.stepIfDue (ch : Chip) : Chip :=
  match ch.kettle.due with
  | none => ch
  | some up =>
    let k := ch.kettle
    let past := if up then decide (k.vhigh k.mode ≤ k.vcore.toNat) else decide (k.vcore.toNat ≤ k.vlow k.mode)
    if ¬ ch.kettleEvaluates ∨ ch.stepGate = .never ∨ past then ch.modKettle (fun k => { k with due := none })
    else if ch.stepGate = .free then ch.modKettle (fun k => { k.ask .free up with due := none })
    else ch

/-- KETTLE_STEP_SETTLED: the step has settled and the recalibration of R49 runs; without a reference there is none. -/
def kettleStepSettledEffect (ch : Chip) : Chip :=
  if ¬ ch.kettle.settling then ch
  else if ch.timebase.onRef then (ch.modKettle (fun k => { k with recal := true })).calibrateBy Lines.startForStep
  else ch.modKettle (fun k => { k with settling := false })

/-- LINE_CAL_DONE: the line, and what Kettle then may do: the recalibration after a step ends with the last line's, and a step that
waited for it is made (R49, R58, R65). -/
def lineCalDoneEffect (set : Fin 5) (n : BitVec 13) (ch : Chip) : Chip :=
  let c1 := ch.lineDone set n
  if c1.timebase.busy then c1
  else
    let c2 := if c1.kettle.recal then c1.modKettle (fun k => { k with recal := false, settling := false }) else c1
    c2.stepIfDue

/-! ### Overruns (R42, R59) -/

/-- Kettle has made an emergency raise within the last 100 µs (R59). -/
def Chip.raisedLately (ch : Chip) : Bool :=
  match ch.kettle.raisedAt with
  | some t => decide ((ch.now - t).toNat < 1600000)
  | none => false

/-- An overrun at the site of power domain n: counted, logged, and an emergency raise of up to four codes. -/
def Chip.overrun (ch : Chip) (n : Nat) : Chip :=
  let c1 := ch.modKettle (fun k => { k with overruns := satInc16 k.overruns, overSite := BitVec.ofNat 8 n })
  let c2 := c1.logFault 0x30 n 0 (c1.kettle.overruns.setWidth 32) 0 0
  let high := c2.kettle.vhigh c2.kettle.mode
  if c2.timebase.refState ≠ .freeRun ∧ ¬ c2.power.warning ∧ ¬ c2.raisedLately ∧ c2.kettle.vcore.toNat < high then
    c2.modKettle (fun k => { k with vcore := BitVec.ofNat 7 (min (k.vcore.toNat + 4) high), raisedAt := some c2.now, settling := true,
                                    raises := satInc16 k.raises })
  else c2

/-- OVERRUN (R42, R59). -/
def execOverrun (site : Nat) (s : State) : Host.Outcome State Fault Refusal :=
  s.onChip (fun ch => if ch.power.core then ch.overrun site else ch)
/-- LINE_CAL_DONE (R49, R54). -/
def execLineCalDone (set : Fin 5) (n : BitVec 13) (s : State) : Host.Outcome State Fault Refusal := s.onChip (lineCalDoneEffect set n)
/-- KETTLE_STEP_SETTLED (R58). -/
def execKettleStepSettled (s : State) : Host.Outcome State Fault Refusal := s.onChip kettleStepSettledEffect
/-- KETTLE_CTRL.clear_counts (R63). -/
def kettleClearCountsEffect (ch : Chip) : Chip := ch.modKettle (fun k => { k with overruns := 0, overSite := 0, raises := 0 })
def execKettleClearCounts (s : State) : Host.Outcome State Fault Refusal := s.onRegister kettleClearCountsEffect

end Sys2Proof.Machine
end

