-- ==== Sys2Proof/Machine/SimmerLaw.lean ====
section
/-! DEFINITION. Simmer's arithmetic: ramp, law, group choice, following error and relay auto-tune (16: R399–R411). -/

namespace Sys2Proof.Machine

/-- Clamps an integer to `lo` … `hi`. -/
def clampInt (lo hi x : Int) : Int := if x < lo then lo else if x > hi then hi else x

/-- sat16 of R400. -/
def sat16 (x : Int) : Int := clampInt (-32768) 32767 x

/-- sat40 of R400. -/
def sat40 (x : Int) : Int := clampInt (-549755813888) 549755813887 x

/-- An arithmetic shift right: rounds toward minus infinity (R400). -/
def asr (x : Int) (n : Nat) : Int := x / (2 ^ n : Int)

/-- round of R399 and R411: to nearest, ties upward. -/
def roundDiv (a b : Nat) : Nat := (2 * a + b) / (2 * b)

/-- The ramped reference (R405). -/
def rampStep (r target : Int) (rate : Nat) : Int :=
  if rate = 0 then target
  else if r < target then min (r + rate) target
  else if r > target then max (r - rate) target
  else target

/-- e of R400. -/
def slotError (s : Slot) (x r : Int) : Int := sat16 (asr ((r - x) * s.gain + 32768) 16)

/-- The output the law gives for a switch state, before its limits (R400). -/
def slotDrive (bias : Int) (swing : Int) (high : Bool) : Int := if high then bias + swing else bias - swing

/-- Ramp, error, integral and trim of a slot at one sample: r, x, e, I, t, z (R400, R403, R405). -/
def slotMeasure (s : Slot) (x : Int) (frozen : Bool) (n : W32) : Slot :=
  let r := rampStep (if s.reseed then x else s.ref) s.target s.ramp
  let e := slotError s x r
  match s.state with
  | .tuning => { s with ref := r, x := x, e := e, frozen := frozen, sample := n, reseed := false }
  | st =>
    let i := if st = .closed ∧ !frozen then sat40 (s.integ + s.ki * e) else s.integ
    let t := sat16 (asr i s.trim)
    { s with ref := r, x := x, e := e, integ := i, t := t, z := e + t, frozen := frozen, sample := n, reseed := false }

/-- The switch and the output of a slot after `slotMeasure` (R400, R403, R409). -/
def slotSwitch (s : Slot) : Slot :=
  match s.state with
  | .open => s
  | .closed =>
    let high := if s.z > s.h then true else if s.z < -(s.h : Int) then false else s.high
    let v := slotDrive s.bias s.swing high
    let u := clampInt s.umin s.umax v
    { s with high := high, u := u, clipped := decide (u ≠ v) }
  | .tuning =>
    let relay := if s.e > s.tune.band then true else if s.e < -s.tune.band then false else s.tune.relay
    let v := slotDrive s.bias s.tune.swing relay
    let u := clampInt s.umin s.umax v
    { s with u := u, clipped := decide (u ≠ v), tune := { s.tune with relay := relay } }

/-- Whether a slot takes part in its group: enabled, or tuning (R402, R409). -/
def Slot.active (s : Slot) : Bool := s.enable || decide (s.state = .tuning)

/-- The role's axis and source (Table 16-1); a slot of role NONE has its own. -/
def roleAxis (role : Nat) (own : Axis) : Axis :=
  match role with
  | 1 | 2 => 0
  | 3 | 4 | 5 => 1
  | 6 | 7 | 8 => 2
  | 9 | 10 => 3
  | _ => own

/-- See `roleAxis`. -/
def roleSource (role own : Nat) : Nat :=
  match role with
  | 1 => 1
  | 2 => 6
  | 3 => 4
  | 4 => 7
  | 5 => 2
  | 6 => 5
  | 7 => 8
  | 8 => 3
  | 9 => 10
  | 10 => 9
  | _ => own

/-- The group axis a slot feeds. -/
def Slot.effAxis (s : Slot) : Axis := roleAxis s.role s.axis
/-- The source a slot reads. -/
def Slot.effSrc (s : Slot) : Nat := roleSource s.role s.src

/-- The axis whose dir negates a source; none for a source that is never negated (Table 16-2). -/
def sourceAxis (src : Nat) : Option Axis :=
  match src with
  | 1 | 6 => some 0
  | 2 | 7 => some 1
  | 3 | 8 => some 2
  | 9 => some 3
  | _ => none

/-- The least output among the active slots of an axis, in slot order (R402). -/
def leastOutput (slots : List Slot) (a : Axis) : Option Int :=
  slots.foldl (fun m s =>
    if s.active ∧ s.effAxis = a then
      match m with
      | none => some s.u
      | some v => some (min v s.u)
    else m) none

/-- The lowest k whose output is `v` on axis `a`, counted from `k`. -/
def firstWinner (a : Axis) (v : Int) : List Slot → Nat → Nat
  | [], _ => 0
  | s :: ss, k => if s.active ∧ s.effAxis = a ∧ s.u = v then k else firstWinner a v ss (k + 1)

/-- The output a group chooses at a sample and its lowest winning k (R402). -/
def groupChoice (slots : List Slot) (a : Axis) (g : Group) : Int × BitVec 4 :=
  match leastOutput slots a with
  | some v => if g.safe then (g.safeU, g.winner) else (v, BitVec.ofNat 4 (firstWinner a v slots 0))
  | none => (g.safeU, g.winner)

/-- The following-error count of a slot (R407). -/
def feStep (s : Slot) (driven : Bool) : Nat :=
  if s.state = .open ∨ !s.active ∨ !driven ∨ s.feSamples = 0 then 0
  else if s.e.natAbs > s.feLimit then s.feCount + 1 else 0

/-- Whether the count raises a following-error fault (R407). -/
def feFires (s : Slot) : Bool := decide (s.feSamples ≠ 0 ∧ s.feCount = s.feSamples + 1)

/-- The largest m with 256·2^m ≤ Tq, of at most `n` (R411). -/
def tuneM (tq : Nat) : Nat → Nat
  | 0 => 0
  | n + 1 => if 256 * 2 ^ (n + 1) ≤ tq then n + 1 else tuneM tq n

/-- The proposals of a completed measurement: h, ki, trim_shift (R411). -/
def tuneProposals (period amplitude : Nat) : Nat × Nat × Nat :=
  let tq := 4 * period
  let m := tuneM tq 40
  let ki := min (roundDiv (2 ^ (m + 15) * 256) tq) 32767
  let h := (amplitude + 2) / 4
  (if h = 0 then 1 else h, ki, 15 + m)

/-- The relay bookkeeping of a tuning slot at one sample: cycles, extremes and completion (R410). `rose` when the relay
changed from LOW to HIGH at this sample. -/
def tuneStep (t : Tune) (e : Int) (rose : Bool) : Tune :=
  let n := t.samples
  let rises := if rose then t.rises + 1 else t.rises
  let began := rose && decide (rises = 3)
  let beg := if began then n else t.begin_
  let finished := rose && decide (rises = 3 + t.cycles)
  let inside := decide (3 ≤ rises) && !finished
  let eMax := if began then e else if inside then max t.eMax e else t.eMax
  let eMin := if began then e else if inside then min t.eMin e else t.eMin
  let t' := { t with samples := n + 1, rises := rises, begin_ := beg, eMax := eMax, eMin := eMin,
                     measured := min (rises - 3) t.cycles }
  if finished then
    let period := roundDiv (256 * (n - beg)) t.cycles
    let amp := ((eMax - eMin + 1) / 2).toNat
    let (h, ki, tr) := tuneProposals period amp
    { t' with state := .done, measured := t.cycles, amplitude := amp, period := period, propH := h, propKi := ki, propTrim := tr }
  else t'

/-- r_target of a tape speed (R399). -/
def capTarget (linePitch v : Nat) : Nat := roundDiv (v * 1048576) linePitch

/-- ramp_rate of an acceleration (R399). -/
def capRamp (linePitch accel loopPeriod : Nat) : Nat :=
  max 1 (roundDiv (accel * loopPeriod * 1048576) (linePitch * 10000000))

end Sys2Proof.Machine
end

