-- ==== Sys2Proof/Machine/Motion.lean ====
section
/-! DEFINITION. Measurements and drive of a deck: encoders, tape position, sensor frames, Griddle's legs, the starting and stopping
of loops and the targets deck sequencing writes (14: R348, R349; 16: R394–R405; 17: R415–R430; 18: R441–R445). -/

namespace Sys2Proof.Machine

/-! ### Times and units -/

/-- Pinches in a microsecond and a millisecond (R7). -/
def usPinches : Nat := 16000
def msPinches : Nat := 16000000

/-! ### Encoders (R424–R427) -/

/-- Place of a line pair in the forward sequence 00, 10, 11, 01. -/
def quadPhase (a b : Bool) : Nat :=
  match a, b with
  | false, false => 0
  | true, false => 1
  | true, true => 2
  | false, true => 3

/-- One edge at time t to the levels a, b: counted, illegal, or none (R424). -/
def Encoder.edge (e : Encoder) (a b : Bool) (t : W64) : Encoder × Int × Bool :=
  let onB := decide (b ≠ e.b)
  if a = e.a ∧ b = e.b then (e, 0, false)
  else if (a ≠ e.a ∧ b ≠ e.b) ∨ (onB ≠ e.lastOnB ∧ e.lastA ≠ 0 ∧ (t - e.lastA).toNat < 400) then
    ({ e with a := a, b := b, edges := [], lastA := t, lastOnB := onB,
              illegal := t :: e.illegal.filter (fun x => decide ((t - x).toNat < msPinches)) }, 0, true)
  else
    let fwd := decide ((quadPhase a b + 4 - quadPhase e.a e.b) % 4 = 1)
    let step : Int := if fwd then 1 else -1
    ({ e with a := a, b := b, count := e.count + step, lastA := t, lastOnB := onB, fwd := fwd,
              way := some (e.way.getD fwd), mixed := e.mixed || decide (e.way = some (!fwd)),
              edges := if e.edges.isEmpty ∨ fwd ≠ e.fwd then [t] else (t :: e.edges).take 5 }, step, false)

/-- A speed source at instant t in the scale of Table 17-2 (R426). -/
def Encoder.speed (e : Encoder) (scale : Nat) (t : W64) : Int :=
  let es := e.edges.take 4
  match es.head?, es.getLast? with
  | some t0, some tk =>
    let k := es.length
    let q := (t - t0).toNat
    if k < 2 ∨ 50 * msPinches ≤ q then 0
    else
      let d0 := (t0 - tk).toNat * 4 / (k - 1)
      let d := max d0 (4 * q)
      if e.fwd then ((scale / max d 1 : Nat) : Int) else -((scale / max d 1 : Nat) : Int)
  | _, _ => 0

def capScale : Nat := 16777216000
def reelScale : Nat := 1024000000000

/-- The tape position at instant t (R349). -/
def DeckAll.positionAt (k : DeckAll) (t : W64) : Int :=
  let e := k.io.encs.get 0
  match e.edges with
  | [t0, _, _, _, t4] =>
    let d := (t0 - t4).toNat
    let f := min ((t - t0).toNat * 4096 / max d 1) 1023
    if e.fwd then k.pos + f else k.pos - f
  | _ => k.pos

/-- The instant at which the position reaches place `b`, predicted from the last edges, to the nearest pinch with ties up; none while the
position is not interpolated (R350). -/
def DeckAll.reaches (k : DeckAll) (b : Int) : Option W64 :=
  match (k.io.encs.get 0).edges with
  | [t0, _, _, _, t4] => some (t0 + BitVec.ofNat 64 ((2 * (b - k.pos).natAbs * (t0 - t4).toNat + 4096) / 8192))
  | _ => none

/-- The position is interpolated: four edges have arrived in the present direction beyond the first (R349). -/
def DeckAll.interpolated (k : DeckAll) : Bool := decide ((k.io.encs.get 0).edges.length = 5)

/-- The position is interpolated, and the tape moves in the direction of wrap w (R351). -/
def DeckAll.onCourse (k : DeckAll) (w : BitVec 6) : Bool := k.interpolated && decide ((k.io.encs.get 0).fwd = !w.getLsbD 0)

/-! ### Roles, targets, modes (R397, R441–R445; Table 18-2) -/

/-- The axes' modes in a state; `tape` when HOMING was begun with tape. -/
def stateMode (st : DeckState) (tape : Bool) (a : Axis) : AxisMode :=
  match st with
  | .dormant | .empty | .present => .off
  | .homing => if a = 3 ∨ tape then .drive else .off
  | .faultStop | .safe => .off
  | _ => .drive

/-- Deck sequencing asks for a mode; a TRIPPED axis keeps its own (R416, R423). -/
def AxisState.ask (x : AxisState) (m : AxisMode) : AxisState := if x.trip ∨ x.mode = .tripped then x else { x with nextMode := m }

/-- Slot target and ramp of a role (R397, R399, R442, R444); none leaves the slot's own: a ceiling before ρ is measured. -/
def roleTarget (q : DeckSeq) (p : Profile) (period : Nat) (role : Nat) : Option (Int × Nat) :=
  let tensionRamp := ceilDiv (p.tensionSet * period) 1000000
  let ceiling (rho : Option Nat) : Option (Int × Nat) :=
    rho.map (fun n => ((roundDiv (max q.capSpeed p.speedMin * n) 1000 : Nat), 0))
  match role with
  | 1 => some ((capTarget p.linePitch q.capSpeed : Nat), capRamp p.linePitch p.accel period)
  | 2 => some (((p.currentLimit[0]?).getD 0 : Nat), 0)
  | 3 | 6 => some ((q.tension : Nat), tensionRamp)
  | 4 => some (((p.currentLimit[1]?).getD 0 : Nat), 0)
  | 5 => ceiling q.rhoSup
  | 7 => some (((p.currentLimit[2]?).getD 0 : Nat), 0)
  | 8 => ceiling q.rhoTku
  | 9 => some (q.posTarget, q.posRamp)
  | 10 => some (((p.currentLimit[3]?).getD 0 : Nat), 0)
  | _ => none

/-- Deck sequencing writes target and ramp of every slot with a role while the loops run, and the CAP group's dir (R397, R445). -/
def DeckAll.retarget (k : DeckAll) : DeckAll :=
  match k.profile with
  | none => k
  | some p =>
    if ¬ k.loops.running then k
    else
      { k with loops := { k.loops with
          slots := k.loops.slots.map (fun s =>
            match roleTarget k.seq p k.loops.period.toNat s.role with
            | some (t, r) => { s with target := t, ramp := r }
            | none => s),
          groups := k.loops.groups.set 0 { k.loops.groups.get 0 with dir := k.seq.reverse } } }

/-- The deck moves tape: one is loaded, or a LOAD or UNLOAD sequence runs. -/
def DeckAll.withTape (k : DeckAll) : Bool :=
  k.tape.media.isSome || (match k.seq.op with
    | some o => decide (o.op = .load ∨ o.op = .unload)
    | none => false)

/-- Asks for the modes of the deck's state. -/
def DeckAll.askModes (k : DeckAll) : DeckAll :=
  { k with io := { k.io with axes := (k.io.axes.zipIdx).map (fun x =>
      x.1.ask (stateMode k.seq.state k.withTape (Fin.ofNat 4 x.2))) } }

/-! ### Starting and stopping the loops (R394, R404) -/

/-- A slot prepared for the start of the loops. -/
def Slot.prepare (s : Slot) : Slot :=
  { s with integ := 0, high := false, u := clampInt s.umin s.umax (slotDrive s.bias s.swing false), feCount := 0,
           feFault := false, winner := false, clipped := false, fresh := true, reseed := true }

/-- The loops start at time t with the profile's period. -/
def Loops.begin (l : Loops) (period : Nat) (t : W64) : Loops :=
  { l with running := true, period := BitVec.ofNat 12 period, start := t, n := 0, slots := l.slots.map Slot.prepare,
           groups := l.groups.map (fun g => { g with out := 0, next := 0, safe := false, dir := false }) }

/-- The loops stop; the period then reads 0. -/
def Loops.halt (l : Loops) : Loops := { l with running := false, period := 0 }

/-- Every axis OFF at once, carries 0 (R416, R419). -/
def AxisState.off (x : AxisState) : AxisState :=
  { x with mode := if x.mode = .tripped then .tripped else .off, nextMode := .off, carryA := 0, carryB := 0, legA := .idle, legB := .idle }

/-- The loops of a deck stop and every axis goes OFF (R394, R455). -/
def DeckAll.stopLoops (k : DeckAll) : DeckAll :=
  { k with loops := { k.loops.halt with groups := k.loops.groups.map (fun g => { g with driven := false }) },
           io := { k.io with axes := k.io.axes.map AxisState.off },
           seq := { k.seq with capSpeed := 0 } }

/-! ### The sensor link (R428–R430) -/

/-- A 16-bit value of a frame at a bit place from the last shifted bit; none when it is not valid. -/
def sensor16 (frame : W64) (place : Nat) : Option Int :=
  let v : W16 := frame.extractLsb' place 16
  if frame = 0xFFFFFFFFFFFFFFFF#64 ∨ v = 0x8000#16 then none else some v.toInt

/-- The positioner position of chip 1. -/
def sensorPos (frame : W64) : Option Int :=
  let v : W32 := frame.extractLsb' 0 32
  if frame = 0xFFFFFFFFFFFFFFFF#64 ∨ v = 0x80000000#32 then none else some v.toInt

/-- Raw value of source `src` at instant t, before R399's negation; none when it is not valid (Table 16-2, Table 17-4). -/
def DeckAll.source (k : DeckAll) (chip0 chip1 : W64) (t : W64) (src : Nat) : Option Int :=
  match src with
  | 1 => some ((k.io.encs.get 0).speed capScale t)
  | 2 => some ((k.io.encs.get 1).speed reelScale t)
  | 3 => some ((k.io.encs.get 2).speed reelScale t)
  | 4 => sensor16 chip1 48
  | 5 => sensor16 chip1 32
  | 6 => sensor16 chip0 48
  | 7 => sensor16 chip0 32
  | 8 => sensor16 chip0 16
  | 9 => sensor16 chip0 0
  | 10 => (sensorPos chip1).map (fun p => clampInt (-2147483648) 2147483647 (p - k.io.home.offset))
  | _ => some 0

/-- A source with the negation of R399. -/
def DeckAll.signedSource (k : DeckAll) (chip0 chip1 : W64) (t : W64) (src : Nat) : Option Int :=
  (k.source chip0 chip1 t src).map (fun x =>
    match sourceAxis src with
    | some a => if (k.loops.groups.get a).dir then -x else x
    | none => x)

/-- Not-valid values of the two frames (R430). -/
def invalidCount (chip0 chip1 : W64) : Nat :=
  ([48, 32, 16, 0].filter (fun p => (sensor16 chip0 p).isNone)).length +
  ([48, 32].filter (fun p => (sensor16 chip1 p).isNone)).length + (if (sensorPos chip1).isNone then 1 else 0)

/-! ### Griddle (R417–R419) -/

/-- Requested on-time of a leg whose duty is num / 65,536 in a period of P pinches. -/
def onTime (num P : Int) : Int := (num * P + 32768) / 65536

/-- A leg's plan for a period and its carry after it. -/
def legPlan (on carry P dead minPulse : Int) : LegPlan × Int :=
  let req := on + carry
  if req - dead < minPulse then (.lowOn, clampInt (-P) P req)
  else if P - req < minPulse + 2 * dead then (.highOn, clampInt (-P) P (req - P))
  else
    let c := P / 2
    let a := c - req / 2
    let b := a + req
    (.pulse a (a + dead) b (b + dead), 0)

/-- Whether a plan suppresses, or holds, the period (MIO_CNT_SUPPRESS, MIO_CNT_HOLD). -/
def LegPlan.suppressed (p : LegPlan) : Bool := decide (p = .lowOn)
def LegPlan.isHeld (p : LegPlan) : Bool := decide (p = .highOn)

/-- An axis at the start of a PWM period with group output u, after dir. -/
def AxisState.period (x : AxisState) (u : Int) (P dead minPulse : Int) : AxisState :=
  let y := if x.mode = .tripped ∨ x.trip then { x with mode := .tripped } else { x with mode := x.nextMode }
  match y.mode with
  | .drive =>
    let a := legPlan (onTime (32768 + u) P) y.carryA P dead minPulse
    let b := legPlan (onTime (32768 - u) P) y.carryB P dead minPulse
    { y with legA := a.1, legB := b.1, carryA := a.2, carryB := b.2 }
  | .brake => { y with legA := .lowOn, legB := .lowOn, carryA := 0, carryB := 0 }
  | .off | .tripped => { y with legA := .idle, legB := .idle, carryA := 0, carryB := 0 }

/-- The output Griddle receives from a group: negated by dir (R399). -/
def Group.drive (g : Group) : Int := if g.dir then -g.out else g.out

/-- PWM_PERIOD_START (R417, R419). -/
def pwmPeriodStartEffect (d : Deck) (ch : Chip) : Chip :=
  let k := ch.decks.get d
  match k.profile with
  | none => ch
  | some p =>
    if ¬ k.loops.running then ch
    else
      let axes := (k.io.axes.zip k.loops.groups).map (fun x => x.1.period x.2.drive p.pwmPeriod p.deadTime p.minPulse)
      let n (f : LegPlan → Bool) : Nat :=
        (axes.toList.filter (fun x => decide (x.mode = .drive) && f x.legA)).length +
        (axes.toList.filter (fun x => decide (x.mode = .drive) && f x.legB)).length
      ch.modDeck d (fun k => { k with
        io := { k.io with axes := axes, suppress := k.io.suppress + BitVec.ofNat 32 (n LegPlan.suppressed),
                          held := k.io.held + BitVec.ofNat 32 (n LegPlan.isHeld) },
        loops := { k.loops with groups := (k.loops.groups.zip axes).map (fun x => { x.1 with driven := decide (x.2.mode = .drive) }) } })

/-- PWM_PERIOD_START (R419). -/
def execPwmPeriodStart (d : Deck) (fine : BitVec 11) (s : State) : Host.Outcome State Fault Refusal :=
  s.onChipAt fine (pwmPeriodStartEffect d)

end Sys2Proof.Machine
end

