-- ==== Sys2Proof/Machine/RegWords.lean ====
section
/-! DEFINITION. Registers that belong to power domains which may be off, what they read as, and the switching of domains with the mirror
that the always-on domain keeps of them (03: R90; 04: R108; 14: R376; 17: R437; 19: R465, R467). -/

namespace Sys2Proof.Machine

/-- A register from its fields: value and lowest bit. -/
def fields (l : List (Nat × Nat)) : W32 := BitVec.ofNat 32 ((l.map (fun x => x.1 * 2 ^ x.2)).foldl (· + ·) 0)

/-- A flag at bit n. -/
def flag (b : Bool) (n : Nat) : Nat × Nat := (bit b, n)

/-- Bits from bit 0 up. -/
def bitField (l : List Bool) : Nat := (l.zipIdx.map (fun x => if x.1 then 2 ^ x.2 else 0)).foldl (· + ·) 0

/-- Bit d for each deck d with `p`. -/
def deckBits (p : Deck → Bool) : Nat := bitField (allDecks.map p)

/-- The upper and lower words of a 64-bit value. -/
def lo32 (x : W64) : W32 := x.extractLsb' 0 32
def hi32 (x : W64) : W32 := x.extractLsb' 32 32

/-! ### Ehran ports (Table 3-8) -/

/-- EHR_CFG and SPI_CFG as staged. -/
def portCfgWord (c : PortCfg) : W32 := fields [flag c.enable 0, flag c.wide 1, (c.declRate.toNat, 8)]

def readEhran (ch : Chip) (p : EPort) (off : Nat) : W32 :=
  let e := ch.ehran.get p
  let q : Port := ⟨p.val, by omega⟩
  match off with
  | 0x00 => portCfgWord (ch.passQ.staged.ports.get q)
  | 0x04 => fields [flag e.enabled 0, flag e.width16 1, flag e.cfgPending 2, flag e.rxOpen 3, flag e.out.cur.isSome 4, flag e.sel 5,
                    flag e.dirPin 6, ((ch.kettle.ports.get q).toNat, 8), flag e.declRefused 14, (e.out.wire.length, 16)]
  | 0x08 => e.xferIn
  | 0x0C => e.xferOut
  | 0x10 => e.pktIn
  | 0x14 => e.pktOut
  | 0x18 => e.idleOut
  | 0x1C => e.runt
  | 0x20 => e.long
  | 0x24 => e.stray
  | 0x28 => e.early
  | 0x2C => e.dirGlitch
  | 0x30 => e.selGlitch
  | 0x34 => e.pace
  | 0x38 => e.wireLost
  | 0x3C => e.lastViol.setWidth 32
  | _ => 0

/-! ### Roller, Strainer, motion I/O (Tables 14-4, 17-7) -/

/-- User-area bytes of datasets not started on tape (R364). -/
def Roller.stagingBytes (r : Roller) : Nat :=
  (match r.open_ with
   | some ds => ds.user.length
   | none => 0) + ((r.buffers.filter (fun b => !b.started)).map (fun b => b.ds.user.length)).foldl (· + ·) 0

/-- The staging fill in 0.1 % (R364, R380). -/
def Roller.fill (r : Roller) : Nat := r.stagingBytes * 1000 / 393216

/-- Dataset buffers that Roller holds, 0 to 3. -/
def Roller.bufferCount (r : Roller) : Nat := min 3 (r.buffers.length + bit r.open_.isSome)

def readRoller (ch : Chip) (d : Deck) (off : Nat) : W32 :=
  let k := ch.decks.get d
  let r := k.roller
  let s := k.strainer
  let b := r.buffers.head?
  match off with
  | 0x00 => fields [flag r.gate 0, flag (b.any (·.inTrailer)) 1, flag r.skipping 2, (r.bufferCount, 3), ((b.map (fun x => min x.skips 3)).getD 0, 5),
                    flag r.eodFailed 7, ((b.map (fun x => min x.trailer 64)).getD 0, 8), (min r.fill 1000, 16)]
  | 0x04 => match b with
    | some x => if x.started then lo32 x.ds.number else 0
    | none => 0
  | 0x08 => lo32 (BitVec.ofInt 64 (k.positionAt ch.now))
  | 0x0C => r.posLatch
  | 0x10 => BitVec.ofNat 32 r.cellLen
  | 0x14 => r.datasets
  | 0x18 => r.rewrites
  | 0x1C => r.precaution
  | 0x20 => r.skips
  | 0x24 => r.failed
  | 0x28 => r.overrun
  | 0x40 => fields [flag s.aligned 0, flag ((r.buffers ++ r.tail.toList).any (fun x => !x.waiting.isEmpty)) 1, flag s.reading 2, (s.pass.toNat, 3),
                    (bitField (s.tracks.toList.map (·.locked)), 8)]
  | 0x44 => s.dataset
  | 0x48 => s.judged
  | 0x4C => s.bad
  | 0x50 => s.notFound
  | 0x54 => s.codeViol
  | 0x58 => s.c1
  | 0x5C => s.c2rows
  | 0x60 => s.c3sds
  | 0x64 => s.reread
  | 0x68 => s.unrecovered
  | 0x6C => s.alignLoss
  | 0x70 =>
    let t := s.tracks.get (Fin.ofNat 16 s.skewSel.toNat)
    fields [(s.skewSel.toNat, 0), (if t.locked then t.skew.toNat else 0, 16)]
  | _ => 0

/-- MIO_STATUS.mode of an axis. -/
def AxisMode.code : AxisMode → Nat
  | .off => 0
  | .brake => 1
  | .drive => 2
  | .tripped => 3

def readMio (io : MotionIo) (off : Nat) : W32 :=
  match off with
  | 0x00 => fields ((io.axes.toList.map (fun x => x.mode.code)).zipIdx.map (fun x => (x.1, 2 * x.2)) ++
      [(bitField (io.axes.toList.map (·.trip)), 8), (bitField (io.axes.toList.map (·.tripIn)), 12), flag io.posLo.active 16,
       flag io.posHi.active 17, flag io.cart 18, flag io.door 19, flag io.tapemk 20, flag io.home.homed 21, (io.home.step % 8, 24)])
  | 0x04 => wordOfInt 32 io.home.offset
  | 0x08 => fields ((io.axes.toList.map (fun x => x.tripCnt.toNat)).zipIdx.map (fun x => (x.1, 8 * x.2)))
  | 0x0C => io.suppress
  | 0x10 => io.held
  | 0x14 => io.encErr
  | 0x18 => io.indexErr
  | 0x1C => io.glitch
  | 0x20 => io.chatter
  | 0x24 => io.sensorInvalid
  | _ => 0

/-! ### Switching, and the mirror (R108, R465) -/

/-- Registers of one block: domain, address and present value. -/
def blockWords (n base : Nat) (offs : List Nat) (read : Nat → W32) : List (Nat × Nat × W32) :=
  offs.map (fun o => (n, base + o, read o))

/-- The registers that live in domain n: a port's EHR_ registers but EHR_CFG, which is a setting, and a deck's ROL_, STR_ and MIO_
registers. Every other register is held in a domain that is always on. While Roller's domain is off ROL_POS_HI reads the upper
half of the mirrored position. -/
def Chip.domainWords (ch : Chip) (n : Nat) : List (Nat × Nat × W32) :=
  if h : 11 ≤ n ∧ n ≤ 14 then
    let p : EPort := ⟨n - 11, by omega⟩
    blockWords n (0x1C00 + 64 * p.val) ((List.range 15).map (fun i => 4 * i + 4)) (readEhran ch p)
  else if 48 ≤ n ∧ n ≤ 71 then
    let d : Deck := Fin.ofNat 4 ((n - 48) / 6)
    match (n - 48) % 6 with
    | 2 => blockWords n (0x2200 + 128 * d.val) [0x00, 0x04, 0x08, 0x0C, 0x10, 0x14, 0x18, 0x1C, 0x20, 0x24, 0x28] (fun o =>
        if o = 0x0C then hi32 (BitVec.ofInt 64 ((ch.decks.get d).positionAt ch.now)) else readRoller ch d o)
    | 3 => blockWords n (0x2200 + 128 * d.val) [0x40, 0x54, 0x58, 0x5C, 0x60, 0x64, 0x68, 0x6C, 0x70] (readRoller ch d)
    | 4 => blockWords n (0x2200 + 128 * d.val) [0x44, 0x48, 0x4C, 0x50] (readRoller ch d)
    | 5 => blockWords n (0x2400 + 128 * d.val) [0x00, 0x04, 0x08, 0x0C, 0x10, 0x14, 0x18, 0x1C, 0x20, 0x24] (readMio (ch.decks.get d).io)
    | _ => []
  else []

/-- Switches domains on or off (R465). A domain that goes off leaves the last values of its registers in the mirror and its pending
Funnel requests are withdrawn (Table 10-7); one that comes on is read itself again (R108). -/
def Chip.switchDomains (ch : Chip) (ns : List Nat) (on : Bool) : Chip :=
  let kept := ch.domains.mirror.filter (fun x => !(on && ns.contains x.1))
  let gone := if on then [] else (ns.filter (fun n => ch.domOn n)).flatMap ch.domainWords
  let c1 := ch.modDom (fun x => { x with on := ns.foldl (fun l n => l.set n on) x.on, mirror := kept ++ gone })
  if on then c1 else c1.withdrawOff

/-- The mirrored value at address a, where a domain that is off left one. -/
def Domains.mirrored (x : Domains) (a : Nat) : Option W32 := (x.mirror.find? (fun m => m.2.1 == a)).map (fun m => m.2.2)

end Sys2Proof.Machine
end

