-- ==== Sys2Proof/Machine/Deck.lean ====
section
/-! DEFINITION. Deck sequencing's shared operations: state changes, the endings of operations, controlled stops, FAULT_STOP, trips
and the start of loops (18: R439–R460; 17: R421–R423; 14: R357; 07: R181). -/

namespace Sys2Proof.Machine

/-- The codes of Table 18-1. -/
def DeckState.code : DeckState → Nat
  | .dormant => 0
  | .empty => 1
  | .present => 2
  | .thread => 3
  | .tensionUp => 4
  | .homing => 5
  | .calibrate => 6
  | .scan => 7
  | .ready => 8
  | .streaming => 9
  | .stopping => 10
  | .faultStop => 11
  | .safe => 12
  | .unloading => 13

/-- Changes what deck sequencing keeps. -/
def DeckAll.modSeq (k : DeckAll) (f : DeckSeq → DeckSeq) : DeckAll := { k with seq := f k.seq }

/-- The loops of deck d run. -/
def Chip.loopsRun (ch : Chip) (d : Deck) : Bool := (ch.decks.get d).loops.running

/-- The nine domains of deck d (R469): its two Simmer slices, Griddle with the delay lines, and its six per-deck domains. -/
def deckDomains (d : Deck) : List Nat :=
  [36 + 2 * d.val, 37 + 2 * d.val, 44 + d.val] ++ (List.range 6).map (fun j => 48 + 6 * d.val + j)

/-- The deck cleared, with the levels on its pins: trip inputs, encoder lines, limits and tape marker (Table 19-4). What the work queues
hold stays in them (R23). -/
def DeckAll.cleared (k : DeckAll) : DeckAll :=
  { DeckAll.reset with cookQ := k.cookQ, workQ := k.workQ, io := { MotionIo.reset with
      axes := k.io.axes.map (fun x => { AxisState.reset with tripIn := x.tripIn }),
      encs := k.io.encs.map (fun e => { Encoder.reset with a := e.a, b := e.b }),
      posLo := { Limit.reset with raw := k.io.posLo.raw }, posHi := { Limit.reset with raw := k.io.posHi.raw },
      tapemk := k.io.tapemk } }

/-- A held deck is switched off when it is DORMANT, EMPTY or PRESENT and its lock is FREE: everything it holds but the lock goes
(R469, Table 19-4, deck cycle). -/
def Chip.applyHold (ch : Chip) (d : Deck) : Chip :=
  let k := ch.decks.get d
  let bit_ : BitVec 4 := BitVec.ofNat 4 (2 ^ d.val)
  if ch.domains.holdPend.getLsbD d.val ∧ (k.seq.state = .dormant ∨ k.seq.state = .empty ∨ k.seq.state = .present) ∧ k.lock.state = .free then
    let c1 := if k.seq.state = .dormant then ch else ch.postDeck d Ev.deckState (servoUnit d) 0
    ((c1.switchDomains (deckDomains d) false).modDeck d (fun k => { k.cleared with lock := k.lock })).modDom (fun x =>
      { x with deckOff := x.deckOff ||| bit_, holdPend := x.holdPend &&& ~~~bit_ }) |>.modTb (fun t =>
        { t with decks := t.decks.set d Lines.reset })
  else ch

/-- A change of state, with DECK_STATE (R439), the axis modes and the slot targets of the new state (Table 18-2); a deck that comes
to rest without tape may be switched off (R469). -/
def Chip.setDeckState (ch : Chip) (d : Deck) (st : DeckState) : Chip :=
  if (ch.decks.get d).seq.state = st then ch
  else
    ((ch.modDeck d (fun k => ((k.modSeq (fun q => { q with state := st })).askModes).retarget)).postDeck d Ev.deckState (servoUnit d)
      (BitVec.ofNat 32 st.code)).applyHold d

/-- New motion targets, written to the slots at once (R397). -/
def Chip.drive (ch : Chip) (d : Deck) (f : DeckSeq → DeckSeq) : Chip := ch.modDeck d (fun k => (k.modSeq f).retarget)

/-! ### The endings of operations (R181, R207) -/

/-- A running deck operation ends with `st`; nothing when none runs (R177: only DONE classes carry a payload). A DECK_UNLOCK whose
marker cannot be written is refused (R166, Table 7-7). -/
def Chip.endOp (ch : Chip) (d : Deck) (st : Stat) (payload : List Byte) : Chip :=
  match (ch.decks.get d).seq.op with
  | none => ch
  | some o =>
    let c1 := ch.modDeck d (fun k => k.modSeq (fun q => { q with op := none }))
    if o.silent then c1
    else c1.complete o.ctx o.tag o.rcrc (if o.op = .deckUnlock ∧ st = Stat.writeFailed then Stat.deckState else st) payload

/-- Every completion that waits for durability ends with `st` (R207). -/
def Chip.endWaiters (ch : Chip) (d : Deck) (st : Stat) : Chip :=
  (ch.decks.get d).seq.waiters.foldl (fun c w => c.complete w.ctx w.tag w.rcrc st [])
    (ch.modDeck d (fun k => k.modSeq (fun q => { q with waiters := [] })))

/-- How a DECK_STOP that waits for rest ends, when the deck comes to it or something else ends it with `st` (Table 7-7, R196). -/
def StopWaiter.ending (w : StopWaiter) (st : Stat) : Stat :=
  if st ≠ Stat.done then st else if w.failed then Stat.writeFailed else if w.already then Stat.already else st

/-- DECK_STOP commands that wait for rest complete (R188, R190). -/
def Chip.endStops (ch : Chip) (d : Deck) (st : Stat) : Chip :=
  (ch.decks.get d).seq.stopWaiters.foldl (fun c w => c.complete w.ctx w.tag w.rcrc (w.ending st) [])
    (ch.modDeck d (fun k => k.modSeq (fun q => { q with stopWaiters := [] })))

/-- A tuning slot returns to the state it had, with at_state `a` (R410, R414). -/
def Slot.endTune (s : Slot) (a : AtState) : Slot :=
  if s.state = .tuning then
    { s with state := if s.tune.wasOpen then .open else .closed, ref := s.tune.ref0, tune := { s.tune with state := a } }
  else s

/-- The auto-tune that runs on a deck fails. -/
def DeckAll.failTune (k : DeckAll) : DeckAll := { k with loops := { k.loops with slots := k.loops.slots.map (fun s => s.endTune .failed) } }

/-! ### The end of Roller's writing (R357, R53) -/

/-- The dataset being written: the first buffer, when its preamble has begun. -/
def Roller.head (r : Roller) : Option DsBuf :=
  match r.buffers with
  | b :: _ => if b.started then some b else none
  | [] => none

/-- The dataset whose cells go out: the one being written, or one whose last trailer place is under way although it is durable (R367). -/
def Roller.outgoing (r : Roller) : Option DsBuf := match r.head with
  | some b => some b
  | none => if r.skipping ∨ r.eraseFrom.isSome then none else r.tail

/-- The cell boundary at which the piece in progress at boundary m ends: a body slot's, or a trailer place's; none between pieces
(R334, R336). -/
def DsBuf.pieceEnd (b : DsBuf) (m : Nat) : Option Nat :=
  let slots := 800 / max b.ds.tracks 1
  let body := 540 + slots * 2232
  if 360 < m ∧ m < 360 + slots * 2232 ∧ (m - 360) % 2232 ≠ 0 then some (360 + ((m - 360) / 2232 + 1) * 2232)
  else if body < m ∧ (m - body) % 2232 ≠ 0 ∧ (m - body) / 2232 < b.copies.length then some (body + ((m - body) / 2232 + 1) * 2232)
  else none

/-- Where writing that has to stop now will stop: at the end of the piece in progress, if the gate is on in one. -/
def Roller.stopsAt (r : Roller) : Option Nat :=
  if r.gate then r.outgoing.bind (fun b => b.pieceEnd r.boundary) else none

/-- The objects that the open and the closed datasets carry go back to staging with their durability not reported; the dataset
being written is left incomplete on tape. Its buffer stays until the piece in progress has been written. -/
def DeckAll.endWriting (k : DeckAll) : DeckAll :=
  let stop := k.roller.stopsAt
  { k with
    staged := k.inFlight ++ k.staged, inFlight := [], orders := [],
    tape := { k.tape with incomplete := if k.roller.head.isSome then k.tape.incomplete.setIfInBounds k.tape.partition.toNat true
                            else k.tape.incomplete },
    roller := { k.roller with
      gate := stop.isSome, stopAt := stop, skipping := false, open_ := none, placed := 0, openBlocks := [],
      buffers := if stop.isSome ∧ k.roller.head.isSome then k.roller.buffers.take 1 else [], spoiled := [], wl := if stop.isSome then k.roller.wl else 0,
      tail := if stop.isSome then k.roller.tail else none, nextP0 := none, eraseFrom := none },
    matcher := { k.matcher with stallOn := false, underrun := false, runOut := none } }

/-- Requester number of deck d's Roller and Strainer (Table 9-1). -/
def rollerOwner (d : Deck) : Nat := 80 + d.val
def strainerOwner (d : Deck) : Nat := 84 + d.val

/-- Releases blocks under an owner. -/
def Chip.releaseBlocks (ch : Chip) (owner : Nat) (addresses : List Nat) : Chip :=
  addresses.foldl (fun c a => c.releaseUnit owner a) ch

/-- Blocks in use by the open dataset and the buffers. -/
def Roller.blocksUsed (r : Roller) : List Nat := r.openBlocks ++ r.buffers.flatMap (fun b => b.blocks)

/-- Releases a buffer; the standing one stays with the deck (R489). -/
def Chip.dropBuffer (ch : Chip) (d : Deck) (blocks : List Nat) : Chip :=
  ch.releaseBlocks (rollerOwner d) (minus blocks (ch.decks.get d).standing)

/-- The reading of a deck stops: its orders and its extracted segments go. -/
def DeckAll.endReading (k : DeckAll) : DeckAll :=
  { k with
    readQ := [], toExpand := [], tape := { k.tape with walk := none },
    strainer := { k.strainer with reading := false, rows := [], pass := 0, stalled := false, blocks := [] } }

/-- The reading of a deck stops, and Strainer's second buffer returns (R364). -/
def Chip.stopReading (ch : Chip) (d : Deck) : Chip :=
  (ch.modDeck d DeckAll.endReading).releaseBlocks (strainerOwner d) (ch.decks.get d).strainer.blocks

/-- Roller's writing ends, at the latest with the piece in progress, and its other buffers are released; reading stops. -/
def Chip.haltEngines (ch : Chip) (d : Deck) : Chip :=
  let c1 := (ch.stopReading d).modDeck d DeckAll.endWriting
  c1.dropBuffer d (minus (ch.decks.get d).roller.blocksUsed (c1.decks.get d).roller.blocksUsed)

/-- The piece in progress when writing had to stop is written: the gate goes off, and the last buffer returns (R357). -/
def Chip.gateOff (ch : Chip) (d : Deck) : Chip :=
  if (ch.decks.get d).roller.stopAt.isSome then
    (ch.modDeck d (fun k => { k with roller := { k.roller with gate := false, stopAt := none, buffers := [], tail := none, wl := 0 } })).dropBuffer d
      (ch.decks.get d).roller.blocksUsed
  else ch

/-! ### FAULT_STOP (R454, R455) -/

/-- FAULT_STOP causes (R454). -/
structure Cause where
  code : Byte
  ends : Stat                     -- how the running operation ends (Table 7-3)
  deriving DecidableEq, Repr

def Cause.trip : Cause := { code := 0x01, ends := Stat.byFaultStop }
def Cause.following : Cause := { code := 0x02, ends := Stat.followingError }
def Cause.chatter : Cause := { code := 0x03, ends := Stat.limitChatter }
def Cause.unexpected : Cause := { code := 0x04, ends := Stat.limitUnexpected }
def Cause.homeFailed : Cause := { code := 0x05, ends := Stat.homeFailed }
def Cause.tension : Cause := { code := 0x06, ends := Stat.tension }
def Cause.timeout : Cause := { code := 0x07, ends := Stat.stepTimeout }
def Cause.refLost : Cause := { code := 0x08, ends := Stat.refLost }
/-- Every cause with code 0x00 but an engine's. -/
def Cause.other : Cause := { code := 0x00, ends := Stat.byFaultStop }
/-- A deck engine fault ends the operation DEVICE_FAULT, ENGINE_FAULT (Table 7-3). -/
def Cause.engine : Cause := { code := 0x00, ends := Stat.engineFault }
/-- The power-fail warning ends it BY_POWER_FAIL. -/
def Cause.power : Cause := { code := 0x00, ends := Stat.byPowerFail }

/-- A HOME that ends other than DONE leaves the positioner without a home (R453). -/
def DeckAll.loseHome (k : DeckAll) : DeckAll :=
  if k.seq.state = .homing then { k with io := { k.io with home := { k.io.home with step := 0, homed := false, offset := 0 } } } else k

/-- The stop phase's targets: capstan to 0 at accel, positioner where it is; `coast` takes every axis OFF at once (R455, R522). -/
def DeckAll.beginStopPhase (k : DeckAll) (coast : Bool) : DeckAll :=
  let k1 := (k.modSeq (fun q => { q with capSpeed := 0, posTarget := k.io.posRaw - k.io.home.offset })).retarget
  if coast then
    { k1 with
      io := { k1.io with axes := k1.io.axes.map AxisState.off },
      loops := { k1.loops with groups := k1.loops.groups.map (fun g => { g with driven := false }) } }
  else k1

/-- The deck enters FAULT_STOP while its loops run; in FAULT_STOP only the event is posted; at rest nothing moves (R454, R522). -/
def Chip.faultStop (ch : Chip) (d : Deck) (c : Cause) (cartOut coast : Bool) : Chip :=
  let k := ch.decks.get d
  if k.seq.state = .faultStop then
    (ch.postDeck d Ev.faultStop (servoUnit d) (c.code.setWidth 32)).modDeck d (fun k => if coast then k.beginStopPhase true else k)
  else if ¬ k.loops.running then ch
  else if k.seq.state = .safe then ch.modDeck d (fun k => if coast then k.beginStopPhase true else k)
  else
    let c1 := ((ch.endOp d c.ends []).endWaiters d c.ends).haltEngines d
    let c2 := c1.modDeck d (fun k => (k.failTune.loseHome).modSeq (fun q =>
      { q with cause := c.code, cartOut := cartOut, rest := false, unloadAfter := false, stage := 0 }))
    let c3 := c2.postDeck d Ev.faultStop (servoUnit d) (c.code.setWidth 32)
    let modes := (c3.decks.get d).io.axes
    let c4 := c3.setDeckState d .faultStop
    -- during the stop phase the axes keep the modes they had (Table 17-1)
    c4.modDeck d (fun k => ({ k with io := { k.io with axes := modes } }).beginStopPhase coast)

/-! ### Trips (R421–R423) -/

/-- Dn_TRIP_x# is low: the axis is TRIPPED at once; a newly set latch is posted and counted and takes the deck into FAULT_STOP. -/
def Chip.tripAxis (ch : Chip) (d : Deck) (a : Axis) : Chip :=
  let x := (ch.decks.get d).io.axes.get a
  let y : AxisState :=
    { x with mode := .tripped, nextMode := .off, trip := true, tripIn := true, carryA := 0, carryB := 0, legA := .idle, legB := .idle,
             tripCnt := if x.trip then x.tripCnt else sat8 (x.tripCnt.toNat + 1) }
  let c1 := ch.modDeck d (fun k => { k with
    io := { k.io with axes := k.io.axes.set a y },
    loops := { k.loops with groups := k.loops.groups.set a { k.loops.groups.get a with driven := false } } })
  if x.trip then c1
  else (c1.post Ev.tripped (.deck d) (servoUnit d) (groupObject d a) 0).faultStop d Cause.trip false false

/-! ### Starting a running state (R441, R394) -/

/-- The loops of deck d start; a trip input that is low sets its latch at once (R423). -/
def Chip.startLoops (ch : Chip) (d : Deck) : Chip :=
  match (ch.decks.get d).profile with
  | none => ch
  | some p =>
    let c1 := ch.modDeck d (fun k =>
      let k1 : DeckAll :=
        { k with
          loops := k.loops.begin p.loopPeriod ch.now,
          io := { k.io with invalid := 0, posHold := none, anchor := true, axes := k.io.axes.map (fun x => { x with carryA := 0, carryB := 0 }) } }
      k1.askModes.retarget)
    allDecks.foldl (fun c a => if ((c.decks.get d).io.axes.get a).tripIn ∧ ¬ ((c.decks.get d).io.axes.get a).trip then c.tripAxis d a else c) c1

/-- The loops stop, and the loop load is withdrawn (R34, R394). -/
def Chip.haltLoops (ch : Chip) (d : Deck) : Chip :=
  ((ch.modDeck d DeckAll.stopLoops).declare (.deck d { ch.kettle.decks.get d with loopPeriod := 0 }) none).1

/-- The wrap target of wrap w in nm from home, with a reread offset (R443). -/
def wrapTarget (p : Profile) (w : Nat) (extra : Int) : Int := 200000 + (w * p.wrapPitch : Nat) + extra

/-- The approach and re-approach ramps in nm per sample (R434). -/
def approachRamp (p : Profile) : Nat := max 1 (roundDiv (p.homeSpeed * p.loopPeriod) 10000)
def reapproachRamp (p : Profile) : Nat := max 1 (roundDiv (approachRamp p) 8)

/-- Travel limit of homing in nm (R436). -/
def travelLimit (p : Profile) : Nat := p.maxWraps * p.wrapPitch + 2000000

/-! ### Controlled stops (R452) -/

/-- A controlled stop toward READY. -/
def Chip.controlledStop (ch : Chip) (d : Deck) : Chip := (ch.drive d (fun q => { q with capSpeed := 0 })).setDeckState d .stopping

/-- Objects an entry of staging stands for. -/
def Staged.count : Staged → Nat
  | .stored _ => 1
  | .marks _ _ n _ _ _ => n

/-- Queue number of a context's WDATA queue for a deck (Table 6-3). -/
def wdataQueue (i : Ctx) (d : Deck) : Nat := 12 * i.val + 3 + d.val

/-- Complete records of context i that Whisk has not compressed for deck d: in the WDATA queue, then held beside it (R22). -/
def Chip.waitingRecs (ch : Chip) (i : Ctx) (d : Deck) : List Rec :=
  (ch.ctxs.get i).wdata.get d ++ ch.held.filterMap (fun x => match x.2 with
    | .wdata r _ => if x.1 = wdataQueue i d then some r else none
    | _ => none)

/-- A record leaves before Whisk has taken it: its cells and its reservation return (R490). -/
def Chip.dropRec (ch : Chip) (i : Ctx) (r : Rec) : Chip := (ch.releaseCells i.val r.chain).unreserve (r.chain.length + 1)

/-- The records of the deck's owner that wait for Whisk are discarded; a WRITE_DATA that waits with one ends (R493). -/
def Chip.dropWaiting (ch : Chip) (d : Deck) (st : Option Stat) : Chip :=
  match (ch.decks.get d).lock.owner with
  | none => ch
  | some i =>
    let heldOnes := ch.held.filterMap (fun x => match x.2 with
      | .wdata r _ => if x.1 = wdataQueue i d then some r else none
      | _ => none)
    let c1 := (ch.waitingRecs i d).foldl (fun c r => c.dropRec i r) ch
    let c2 := { c1 with held := c1.held.filter (fun x => x.1 != wdataQueue i d) }.modCtx i (fun x => { x with wdata := x.wdata.set d [] })
    match st with
    | some s => heldOnes.foldl (fun c r => if r.silent then c else c.complete i r.tag r.rcrc s []) c2
    | none => c2

/-- The cells of a stored form return once Roller has copied it: Roller releases them, and then under the context's number (R227). -/
def Chip.freeStaged (ch : Chip) (d : Deck) (s : Staged) : Chip :=
  match s with
  | .stored r => (ch.releaseCells (rollerOwner d) r.chain).releaseCells r.ctx.val r.chain
  | .marks .. => ch

/-- A record, not filemarks. -/
def Staged.isRecord : Staged → Bool
  | .stored _ => true
  | .marks .. => false

/-- Holder's staged objects are discarded, and the count is logged (R455; 21: code 0x21). -/
def Chip.discardStaged (ch : Chip) (d : Deck) : Chip :=
  let all := (ch.decks.get d).staged
  let n := (all.map Staged.count).foldl (· + ·) 0 + (match (ch.decks.get d).lock.owner with
    | some i => (ch.waitingRecs i d).length
    | none => 0)
  let c1 := (all.foldl (fun c s => c.freeStaged d s) (ch.modDeck d (fun k => { k with staged := [], inFlight := [], poisoned := [] }))).dropWaiting d
    (some Stat.byFaultStop)
  if n = 0 then c1 else c1.logFault 0x21 (servoUnit d) (deckObject d) (BitVec.ofNat 32 n) 0 0

/-- FAULT_STOP_REST (R455): the loops stop, every axis is OFF; after a cartridge removal the deck enters EMPTY; in SAFE only the
phase changes. Waiting DECK_STOPs complete. -/
def faultStopRestEffect (d : Deck) (ch : Chip) : Chip :=
  let q := (ch.decks.get d).seq
  if (q.state = .faultStop ∨ q.state = .safe) ∧ ¬ q.rest then
    let c1 := (((ch.haltLoops d).gateOff d).modDeck d (fun k => k.modSeq (fun q => { q with rest := true }))).endStops d Stat.done
    if q.state = .faultStop ∧ q.cartOut then
      ((c1.discardStaged d).modDeck d (fun k => { k with tape := { k.tape with media := none, label := none, marker := false } })).setDeckState d .empty
    else c1
  else ch

/-- FAULT_STOP_REST (R455). -/
def execFaultStopRest (d : Deck) (s : State) : Host.Outcome State Fault Refusal := s.onChip (faultStopRestEffect d)

/-- Servo I/O of deck d is powered (Table 19-3). -/
def Chip.servoOn (ch : Chip) (d : Deck) : Bool := ch.domOn (servoUnit d)

/-- A level of one of the deck's inputs counts: its servo I/O is on, and while its VIOD bank is not good only the inactive level does (R464). -/
def Chip.inputMay (ch : Chip) (d : Deck) (active : Bool) : Bool := ch.servoOn d && (ch.power.viod.get d || !active)

def tripEffect (d : Deck) (a : Axis) (ch : Chip) : Chip := if ch.inputMay d true then ch.tripAxis d a else ch
/-- TRIP (R421, R422). -/
def execTrip (d : Deck) (a : Axis) (fine : BitVec 11) (s : State) : Host.Outcome State Fault Refusal := s.onChipAt fine (tripEffect d a)

/-- TRIP_INPUT_RELEASE: the input is high again; the latch stays (R422). -/
def tripInputReleaseEffect (d : Deck) (a : Axis) (ch : Chip) : Chip :=
  ch.modDeck d (fun k => { k with io := { k.io with axes := k.io.axes.set a { k.io.axes.get a with tripIn := false } } })
def execTripInputRelease (d : Deck) (a : Axis) (fine : BitVec 11) (s : State) : Host.Outcome State Fault Refusal :=
  s.onChipAt fine (tripInputReleaseEffect d a)

end Sys2Proof.Machine
end

