-- ==== Sys2Proof/Machine/Loops.lean ====
section
/-! DEFINITION. Simmer at its sample instants: measurement, law, group outputs, late samples, following errors and auto-tune
(16: R394–R411; 17: R430). -/

namespace Sys2Proof.Machine

/-- Power domain of the slice that evaluates slot k of deck d (R393, Table 19-3). -/
def sliceUnit (d : Deck) (k : Nat) : Nat := 36 + 2 * d.val + k / 6

/-- A slot takes part late: it is active and its source is not valid (R398). -/
def Slot.lateBy (s : Slot) (value : Nat → Option Int) : Bool := s.active && (value s.effSrc).isNone

/-- A slot is frozen at this sample (R401), from the flags of the one before. -/
def Slot.freezes (s : Slot) (g : Group) : Bool := s.fresh || s.clipped || !s.winner || !g.driven || g.safe

/-- One slot at sample n (R400, R403, R405, R407, R409): one whose source is not valid stands, with the sample counted in its
auto-tune (R410), and an inactive one only takes the reference of R404. -/
def Slot.evaluate (s : Slot) (g : Group) (value : Nat → Option Int) (n : W32) : Slot :=
  match value s.effSrc with
  | none => if s.state = .tuning then { s with tune := { s.tune with samples := s.tune.samples + 1 } } else s
  | some x =>
    if ¬ s.active then (if s.reseed then { s with ref := x, reseed := false } else s)
    else
      let was := s.tune.relay
      let s1 := slotSwitch (slotMeasure s x (s.freezes g) n)
      let s2 := if s1.state = .tuning then { s1 with tune := tuneStep s1.tune s1.e (s1.tune.relay && !was) } else s1
      { s2 with fresh := false, feCount := feStep s2 g.driven }

/-- A following-error fault latches (R407). -/
def Slot.latchFe (s : Slot) : Slot := if feFires s then { s with feFault := true } else s

/-- The group outputs in force from this instant (R395, R407): those of the sample before, or the safe output of a group one of
whose slots has latched. -/
def Loops.applyOutputs (l : Loops) : Loops :=
  { l with groups := (l.groups.zipIdx).map (fun x =>
      let g := x.1
      let safe := g.safe || l.slots.toList.any (fun s => s.feFault && decide (s.effAxis.val = x.2))
      { g with safe := safe, out := if safe then g.safeU else g.next }) }

/-- The outputs chosen at this sample: a group with a late slot repeats its output (R396, R402). -/
def Loops.choose (l : Loops) (late : List Slot) : Loops :=
  { l with
    groups := (l.groups.zipIdx).map (fun x =>
      let g := x.1
      let a : Axis := Fin.ofNat 4 x.2
      if late.any (fun s => decide (s.effAxis = a)) then { g with next := g.out }
      else
        let c := groupChoice l.slots.toList a g
        { g with next := c.1, winner := c.2 }),
    slots := l.slots.map (fun s => { s with
      winner := s.active && !(l.groups.get s.effAxis).safe && decide (leastOutput l.slots.toList s.effAxis = some s.u) }) }

/-- The reply of AUTOTUNE and AUTOTUNE_RESULT (Table 7-8). -/
def Tune.bytes (t : Tune) : List Byte :=
  let st : Nat := match t.state with
    | .none => 0
    | .running => 1
    | .done => 2
    | .failed => 3
    | .applied => 4
  if t.state = .none then List.replicate 16 0
  else [BitVec.ofNat 8 st, BitVec.ofNat 8 t.measured] ++ leBytes 2 t.amplitude ++ leBytes 4 t.period ++ leBytes 2 t.propH
    ++ leBytes 2 t.propKi ++ [BitVec.ofNat 8 t.propTrim, 0, 0, 0]

/-- Slot k of a deck changes. -/
def Chip.modSlot (ch : Chip) (d : Deck) (k : SlotIx) (f : Slot → Slot) : Chip :=
  ch.modDeck d (fun x => { x with loops := { x.loops with slots := x.loops.slots.set k (f (x.loops.slots.get k)) } })

def Chip.slot (ch : Chip) (d : Deck) (k : SlotIx) : Slot := (ch.decks.get d).loops.slots.get k

/-- Late samples: each late slot counts and posts LOOP_OVERRUN; the deck counts one; Kettle counts one per slice (R396, R42). -/
def Chip.lateSample (ch : Chip) (d : Deck) (ks : List SlotIx) : Chip :=
  if ks.isEmpty then ch
  else
    let c1 := ks.foldl (fun c k =>
      let c2 := c.modSlot d k (fun s => { s with overruns := min (s.overruns + 1) 65535 })
      c2.post Ev.loopOverrun (.deck d) (sliceUnit d k.val) (slotObject d k.val) (BitVec.ofNat 32 (c2.slot d k).overruns)) ch
    let c2 := c1.modDeck d (fun x => { x with loops := { x.loops with overrun := x.loops.overrun + 1 } })
    let c3 := if ks.any (fun k => decide (k.val < 6)) then c2.overrun (sliceUnit d 0) else c2
    if ks.any (fun k => decide (6 ≤ k.val)) then c3.overrun (sliceUnit d 6) else c3

/-- A completed auto-tune: the slot returns, AUTOTUNE_DONE goes out and AUTOTUNE completes (R410). -/
def Chip.tuneDone (ch : Chip) (d : Deck) (k : SlotIx) : Chip :=
  let s := ch.slot d k
  if s.state = .tuning ∧ s.tune.state = .done then
    let c1 := (ch.modSlot d k (fun s => s.endTune .done)).post Ev.autotuneDone (.deck d) (sliceUnit d k.val) (slotObject d k.val)
      (BitVec.ofNat 32 s.tune.cycles)
    c1.endOp d Stat.done s.tune.bytes
  else ch

/-- A following error of slot k at this sample: latched and posted (R407). -/
def Chip.followingError (ch : Chip) (d : Deck) (k : SlotIx) : Chip :=
  let s := ch.slot d k
  if feFires s then
    (ch.modSlot d k Slot.latchFe).post Ev.followingError (.deck d) (sliceUnit d k.val) (slotObject d k.val) (BitVec.ofInt 32 s.e)
  else ch

def allSlots : List SlotIx := [0, 1, 2, 3, 4, 5, 6, 7, 8, 9, 10, 11]

/-- The first measurement of the positioner after the loops start says where it stands at entry: THREAD holds it there, and the
first motion of homing counts from there (Table 18-2, R434, R436). -/
def DeckAll.anchored (k : DeckAll) (raw : Option Int) : DeckAll :=
  match raw with
  | none => k
  | some x =>
    if ¬ k.io.anchor then k
    else
      let k1 := { k with io := { k.io with anchor := false } }
      match k.seq.state, k.profile with
      | .thread, _ => (k1.modSeq (fun q => { q with posTarget := x - k.io.home.offset })).retarget
      | .homing, some p =>
        let move (target : Int) : DeckAll :=
          ({ k1 with io := { k1.io with home := { k1.io.home with fromPos := x } } }.modSeq (fun q => { q with posTarget := target })).retarget
        if k.io.home.step = 1 then move (x + travelLimit p + 2000000)
        else if k.io.home.step = 2 then move (x - travelLimit p - 2000000)
        else k1
      | _, _ => k1

/-- SAMPLE_INSTANT (R395): chip0 and chip1 are the two sensor-link frames, first-shifted bit in bit 63; Dn_SLDI's pull-up gives
them while its bank is not good (R428, R464). -/
def sampleInstantEffect (d : Deck) (chip0In chip1In : W64) (ch : Chip) : Chip :=
  let linked (f : W64) : W64 := if ch.power.viod.get d then f else 0xFFFFFFFFFFFFFFFF
  let chip0 := linked chip0In
  let chip1 := linked chip1In
  let k := (ch.decks.get d).anchored (sensorPos chip1)
  if ¬ k.loops.running then ch
  else
    let t := ch.now
    let value := k.signedSource chip0 chip1 t
    let l1 := k.loops.applyOutputs
    let l2 := { l1 with slots := k.loops.slots.map (fun (s : Slot) => s.evaluate (k.loops.groups.get s.effAxis) value (BitVec.ofNat 32 k.loops.n)) }
    let lateKs := allSlots.filter (fun i => (k.loops.slots.get i).lateBy value)
    let l3 := l2.choose (lateKs.map (fun i => k.loops.slots.get i))
    let bad := invalidCount chip0 chip1
    let c1 := ch.modDeck d (fun _ => { k with
      loops := { l3 with n := k.loops.n + 1 },
      io := { k.io with posRaw := (sensorPos chip1).getD k.io.posRaw, sldo := BitVec.ofNat 64 (k.loops.n % 65536 * 2 ^ 48), invalid := if bad = 0 then 0 else k.io.invalid + 1,
                        badSrc := ((List.range 11).find? (fun i => (k.source chip0 chip1 t i).isNone)).getD 0,
                        sensorInvalid := k.io.sensorInvalid + BitVec.ofNat 32 bad } })
    let c2 := c1.lateSample d lateKs
    let c3 := allSlots.foldl (fun c i => c.tuneDone d i) c2
    let errs := allSlots.filter (fun i => feFires (c3.slot d i) && !lateKs.contains i)
    let c4 := errs.foldl (fun c i => c.followingError d i) c3
    if errs.isEmpty then c4 else c4.faultStop d Cause.following false false

/-- SAMPLE_OVERRUN (R396): the slots had not finished by the next instant; their groups repeat the output. -/
def sampleOverrunEffect (d : Deck) (slots : List SlotIx) (ch : Chip) : Chip :=
  let k := ch.decks.get d
  let late := allSlots.filter (fun i => slots.contains i && (k.loops.slots.get i).active)
  if ¬ k.loops.running ∨ late.isEmpty then ch
  else
    (ch.modDeck d (fun x => { x with loops := { x.loops with
      groups := (x.loops.groups.zipIdx).map (fun g =>
        if late.any (fun i => decide ((k.loops.slots.get i).effAxis.val = g.2)) then { g.1 with next := g.1.out } else g.1) } })).lateSample d late

/-- AUTOTUNE_TIMEOUT (R410). -/
def autotuneTimeoutEffect (d : Deck) (k : SlotIx) (ch : Chip) : Chip :=
  let s := ch.slot d k
  if s.state = .tuning ∧ 4096 * s.tune.cycles ≤ s.tune.samples then
    (ch.modSlot d k (fun s => s.endTune .failed)).endOp d Stat.stepTimeout []
  else ch

/-- SENSOR_INVALID_FAULT (R430): 16 consecutive instants with a source that is not valid; the log names the lowest
source not valid at the last of them. -/
def sensorInvalidFaultEffect (d : Deck) (ch : Chip) : Chip :=
  let n := (ch.decks.get d).io.invalid
  if 16 ≤ n ∧ (ch.decks.get d).loops.running then
    ((ch.logFault 0x34 (servoUnit d) (deckObject d) (BitVec.ofNat 32 (ch.decks.get d).io.badSrc) (BitVec.ofNat 32 n) 0).postDeck d Ev.engineFault (servoUnit d)
      (BitVec.ofNat 32 (servoUnit d))).faultStop d Cause.engine false false
  else ch

/-- SAMPLE_INSTANT (R395). -/
def execSampleInstant (d : Deck) (chip0 chip1 : W64) (fine : BitVec 11) (s : State) : Host.Outcome State Fault Refusal :=
  s.onChipAt fine (sampleInstantEffect d chip0 chip1)
/-- SAMPLE_OVERRUN (R396). -/
def execSampleOverrun (d : Deck) (slots : List SlotIx) (s : State) : Host.Outcome State Fault Refusal :=
  s.onChip (sampleOverrunEffect d slots)
/-- AUTOTUNE_TIMEOUT (R410). -/
def execAutotuneTimeout (d : Deck) (k : SlotIx) (s : State) : Host.Outcome State Fault Refusal := s.onChip (autotuneTimeoutEffect d k)
/-- SENSOR_INVALID_FAULT (R430). -/
def execSensorInvalidFault (d : Deck) (s : State) : Host.Outcome State Fault Refusal := s.onChip (sensorInvalidFaultEffect d)

end Sys2Proof.Machine
end

