-- ==== Sys2Proof/Machine/SlotRegs.lean ====
section
/-! DEFINITION. The slot register map that LOOP_READ and LOOP_WRITE reach (16: R406, R412, R413, Tables 16-4 and 16-5). -/

namespace Sys2Proof.Machine

/-- A signed 16-bit field. -/
def field16 (x : Int) : W32 := (BitVec.ofInt 16 x).setWidth 32

/-- SLOT_CFG: the axis and src fields read the effective ones. -/
def Slot.cfgWord (s : Slot) : W32 :=
  BitVec.ofNat 32 (bit s.enable + 16 * s.role + 256 * s.effAxis.val + 4096 * s.effSrc)

/-- SLOT_STATUS. -/
def Slot.statusWord (s : Slot) : W32 :=
  let st : Nat := match s.state with
    | .closed => 0
    | .open => 1
    | .tuning => 2
  let high := if s.state = .tuning then s.tune.relay else s.high
  BitVec.ofNat 32 (st + 4 * bit high + 8 * bit s.frozen + 16 * bit s.clipped + 32 * bit s.winner + 64 * bit s.feFault)

/-- GRP_OUT of a slot's group. -/
def Group.outWord (g : Group) : W32 :=
  field16 g.out ||| BitVec.ofNat 32 (65536 * g.winner.toNat + 1048576 * bit g.dir + 2097152 * bit g.safe + 4194304 * bit g.driven)

/-- The value at a slot register offset; none where Table 16-4 defines nothing. -/
def Loops.readSlot (l : Loops) (k : SlotIx) (offset : Nat) : Option W32 :=
  let s := l.slots.get k
  let g := l.groups.get s.effAxis
  match offset with
  | 0x00 => some s.cfgWord
  | 0x04 => some (BitVec.ofInt 32 s.gain)
  | 0x08 => some (BitVec.ofNat 32 s.ki)
  | 0x0C => some (BitVec.ofNat 32 s.trim)
  | 0x10 => some (BitVec.ofNat 32 s.h)
  | 0x14 => some (field16 s.bias)
  | 0x18 => some (BitVec.ofNat 32 s.swing)
  | 0x1C => some (field16 s.umin)
  | 0x20 => some (field16 s.umax)
  | 0x24 => some (BitVec.ofNat 32 s.feLimit)
  | 0x28 => some (BitVec.ofNat 32 s.feSamples)
  | 0x2C => some (BitVec.ofNat 32 s.ramp)
  | 0x30 => some (BitVec.ofInt 32 s.target)
  | 0x34 => some (BitVec.ofInt 32 s.integ)
  | 0x38 => some ((BitVec.ofInt 40 s.integ).extractLsb' 32 8 |>.setWidth 32)
  | 0x3C => some (BitVec.ofInt 32 s.ref)
  | 0x40 => some (BitVec.ofInt 32 s.x)
  | 0x44 => some (field16 s.e ||| (field16 s.t <<< 16))
  | 0x48 => some ((BitVec.ofInt 17 s.z).setWidth 32)
  | 0x4C => some s.statusWord
  | 0x50 => some (field16 s.u)
  | 0x54 => some (BitVec.ofNat 32 (min s.feCount 65535 + 65536 * min s.overruns 65535))
  | 0x58 => some s.sample
  | 0x80 => some g.outWord
  | 0x84 => some (field16 g.safeU)
  | 0x88 => some (BitVec.ofNat 32 (l.period.toNat + 4096 * bit l.running))
  | 0x8C => some l.overrun
  | _ => none

/-- A write entry's value is inside its field's range, at an offset that LOOP_WRITE may write in a slot whose resulting role is
`role` (Table 16-5, R412). -/
def slotEntryOk (role : Nat) (offset : Nat) (value : W32) : Bool :=
  let v := value.toNat
  match offset with
  | 0x00 => decide (v < 65536) && decide (v / 2 % 8 = 0) && decide (v / 1024 % 4 = 0) && decide (v / 16 % 16 ≤ 10) && decide (v / 4096 ≤ 10)
  | 0x04 | 0x34 => true
  | 0x08 | 0x10 | 0x18 | 0x24 => decide (v ≤ 32767)
  | 0x0C => decide (v ≤ 39)
  | 0x14 | 0x1C | 0x20 | 0x28 | 0x84 => decide (v ≤ 65535)
  | 0x38 => decide (v ≤ 255)
  | 0x2C | 0x30 => decide (role = 0)
  | _ => false

/-- A 16-bit field as a signed number. -/
def signed16 (v : W32) : Int := (v.setWidth 16 : W16).toInt

/-- One entry written into its slot (the group's safe output apart). -/
def Slot.write (s : Slot) (offset : Nat) (value : W32) : Slot :=
  let v := value.toNat
  match offset with
  | 0x00 => { s with enable := value.getLsbD 0, role := v / 16 % 16, axis := Fin.ofNat 4 (v / 256 % 4), src := v / 4096 % 16 }
  | 0x04 => { s with gain := value.toInt }
  | 0x08 => { s with ki := v }
  | 0x0C => { s with trim := v }
  | 0x10 => { s with h := v }
  | 0x14 => { s with bias := signed16 value }
  | 0x18 => { s with swing := v }
  | 0x1C => { s with umin := signed16 value }
  | 0x20 => { s with umax := signed16 value }
  | 0x24 => { s with feLimit := v }
  | 0x28 => { s with feSamples := v }
  | 0x2C => { s with ramp := v }
  | 0x30 => { s with target := value.toInt }
  | 0x34 => { s with integ := ((BitVec.ofInt 40 s.integ).extractLsb' 32 8 ++ value : BitVec 40).toInt }
  | 0x38 => { s with integ := (value.setWidth 8 ++ (BitVec.ofInt 32 s.integ) : BitVec 40).toInt }
  | _ => s

/-- The (offset, value) entries of a LOOP_WRITE payload (Table 7-8). -/
def loopEntries (p : List Byte) : List (Nat × W32) :=
  (List.range (byteAt p 2).toNat).map (fun i => (leAt p (4 + 8 * i) 2, BitVec.ofNat 32 (leAt p (8 + 8 * i) 4)))

/-- The slot after every entry, in order (R192). -/
def Slot.writeAll (s : Slot) (es : List (Nat × W32)) : Slot := es.foldl (fun t e => t.write e.1 e.2) s

/-- Every entry of the command is acceptable, and umin stays at most umax (R192, R406). -/
def Slot.accepts (s : Slot) (es : List (Nat × W32)) : Bool :=
  let t := s.writeAll es
  es.all (fun e => slotEntryOk t.role e.1 e.2) && decide (t.umin ≤ t.umax)

/-- The offsets of a LOOP_READ payload. -/
def loopOffsets (p : List Byte) : List Nat := (List.range (byteAt p 2).toNat).map (fun i => leAt p (4 + 2 * i) 2)

/-- Every entry of a LOOP_WRITE takes effect (R192); deck sequencing then writes the targets of a slot that has a role (R397). -/
def Chip.writeSlot (ch : Chip) (d : Deck) (k : SlotIx) (es : List (Nat × W32)) : Chip :=
  let c1 := ch.modSlot d k (fun s => s.writeAll es)
  let a := (c1.slot d k).effAxis
  let c2 := es.foldl (fun c e => if e.1 = 0x84 then c.modDeck d (fun x => { x with loops := { x.loops with
      groups := x.loops.groups.set a { x.loops.groups.get a with safeU := signed16 e.2 } } }) else c) c1
  c2.modDeck d DeckAll.retarget

end Sys2Proof.Machine
end

