-- ==== Sys2Proof/Machine/MotionIo.lean ====
section
/-! DEFINITION. Encoder, index, limit, presence and marker inputs (17: R424–R436; 18: R440, R444, R446, R447). -/

namespace Sys2Proof.Machine

/-! ### Encoders (R424, R425, R427, R444, R447) -/

def Chip.modIo (ch : Chip) (d : Deck) (f : MotionIo → MotionIo) : Chip := ch.modDeck d (fun k => { k with io := f k.io })

/-- States in which the reel quantities are measured (R444). -/
def measuring (st : DeckState) : Bool :=
  match st with
  | .calibrate | .scan | .ready | .streaming | .stopping | .unloading => true
  | _ => false

/-- Counts of the three encoders. -/
def MotionIo.counts (io : MotionIo) : Int × Int × Int := ((io.encs.get 0).count, (io.encs.get 1).count, (io.encs.get 2).count)

/-- A full 20 mm of capstan travel since the last mark takes both ρ (R444); in CALIBRATE the fifteenth such length, 300 mm, turns
the search back (Table 18-3). -/
def DeckAll.measureReels (k : DeckAll) (p : Profile) : DeckAll :=
  let now := k.io.counts
  let q := k.seq
  if measuring q.state ∧ 80000000000 ≤ (now.1 - q.marks.1).natAbs * p.linePitch then
    let turn := decide (q.state = .calibrate ∧ ¬ q.reverse ∧ q.stage + 1 = 15)
    (k.modSeq (fun q => { q with
      rhoSup := some (now.2.1 - q.marks.2.1).natAbs, rhoTku := some (now.2.2 - q.marks.2.2).natAbs, marks := now,
      stage := if q.state = .calibrate then q.stage + 1 else q.stage, reverse := q.reverse || turn })).retarget
  else k

/-- Crumbs of a length in mm (Table 8-8). -/
def mmCrumbs (p : Profile) (mm : Nat) : Nat := mm * 1000000000 * 4096 / p.linePitch

/-- States in which a tape is loaded and its ends count (R447). -/
def tapeLoaded (st : DeckState) : Bool :=
  match st with
  | .ready | .streaming | .stopping | .unloading => true
  | _ => false

/-- The distance to the bound ahead, 5 mm beyond either end, is no more than the tape needs to come to rest at accel from its measured speed
(R447). The unload goes on beyond position 0 (R458). -/
def DeckAll.mustBrake (k : DeckAll) (p : Profile) (t : W64) : Bool :=
  let e := k.io.encs.get 0
  let v := (e.speed capScale t).natAbs * p.linePitch
  let room : Int := if e.fwd then (mmCrumbs p (15 + p.wrapLength) : Int) - k.pos else k.pos + mmCrumbs p 5
  tapeLoaded k.seq.state && !(decide (k.seq.state = .unloading) && !e.fwd) &&
  decide (room * (2 * p.accel * p.linePitch * 1048576 ^ 2 : Nat) ≤ (v * v * 4096000000 : Nat))

/-- Reaching 0 in reverse posts BOT, and lead + wrap_length forward EOT; the capstan brakes within the bounds (R447). -/
def Chip.passEnds (ch : Chip) (d : Deck) (p : Profile) (old new : Int) : Chip :=
  let k := ch.decks.get d
  let wrap : W32 := k.tape.wrap.setWidth 32
  let end_ : Int := mmCrumbs p (10 + p.wrapLength)
  let c1 :=
    if ¬ tapeLoaded k.seq.state then ch
    else if new ≤ 0 ∧ 0 < old then ch.postDeck d Ev.bot (servoUnit d) wrap
    else if old < end_ ∧ end_ ≤ new then ch.postDeck d Ev.eot (servoUnit d) wrap
    else ch
  if k.mustBrake p ch.now ∧ k.seq.capSpeed ≠ 0 then c1.drive d (fun q => { q with capSpeed := 0 }) else c1

/-- ENCODER_EDGE: encoder 0 CAP, 1 SUP, 2 TKU (R424, R348). -/
def encoderEdgeEffect (d : Deck) (enc : Fin 3) (a b : Bool) (ch : Chip) : Chip :=
  if ¬ ch.inputMay d true then ch
  else
    let k := ch.decks.get d
    let r := (k.io.encs.get enc).edge a b ch.now
    let io1 := { k.io with encs := k.io.encs.set enc r.1, encErr := if r.2.2 then k.io.encErr + 1 else k.io.encErr }
    let pos1 : Int := if enc = 0 then k.pos + 1024 * r.2.1 else k.pos
    let c1 := ch.modDeck d (fun k => { k with io := io1, pos := pos1 })
    match k.profile with
    | none => c1
    | some p => if enc = 0 then (c1.modDeck d (fun k => k.measureReels p)).passEnds d p k.pos pos1 else c1

/-- ENCODER_ERROR_FAULT (R425; 21: code 0x33). -/
def encoderErrorFaultEffect (d : Deck) (enc : Fin 3) (ch : Chip) : Chip :=
  let n := ((ch.decks.get d).io.encs.get enc).illegal.length
  if 16 < n then
    (((ch.logFault 0x33 (servoUnit d) (deckObject d) (BitVec.ofNat 32 n) (BitVec.ofNat 32 enc.val) 0).postDeck d Ev.engineFault
      (servoUnit d) (BitVec.ofNat 32 (servoUnit d))).modIo d (fun io =>
        { io with encs := io.encs.set enc { io.encs.get enc with illegal := [] } })).faultStop d Cause.engine false false
  else ch

/-- INDEX_EDGE (R427). -/
def indexEdgeEffect (d : Deck) (ch : Chip) : Chip :=
  if ¬ ch.inputMay d true then ch
  else
    let k := ch.decks.get d
    let e := k.io.encs.get 0
    let bad := match e.indexAt, k.profile with
      | some c, some p => decide ((e.count - c).natAbs ≠ 4 * p.capLines) || e.mixed
      | _, _ => false
    ch.modIo d (fun io => { io with encs := io.encs.set 0 { e with indexAt := some e.count, way := none, mixed := false },
                                    indexErr := if bad then io.indexErr + 1 else io.indexErr })

/-! ### Limits and homing latches (R431, R432, R434–R436) -/

/-- The position at an edge `into` pinches after the sample that read `before`, of a loop period of `period` · 100 ns, with
`after` read at the next sample (R435): to the nearest nm, ties upward. -/
def latchPosition (before after : Int) (into period : Nat) : Int :=
  if period = 0 then before
  else
    let den : Nat := 1600 * period
    before + (2 * (after - before) * into + den) / (2 * den : Nat)

/-- The limit input on a side. -/
def MotionIo.limit (io : MotionIo) (hi : Bool) : Limit := if hi then io.posHi else io.posLo
def MotionIo.setLimit (io : MotionIo) (hi : Bool) (l : Limit) : MotionIo := if hi then { io with posHi := l } else { io with posLo := l }

/-- The positioner stops where it is, its target kept for a glitch (R432, R436). -/
def Chip.holdPositioner (ch : Chip) (d : Deck) (raw : Int) : Chip :=
  let k := ch.decks.get d
  let c1 := ch.modIo d (fun io => { io with posHold := some (io.posHold.getD k.seq.posTarget) })
  c1.drive d (fun q => { q with posTarget := raw - k.io.home.offset })

/-- What the opening edge of a window does: latches 1 and 2 in homing, or a hold (R432, R434, R436). -/
def Chip.windowOpens (ch : Chip) (d : Deck) (hi : Bool) (raw : Int) (t : W64) : Chip :=
  let k := ch.decks.get d
  let h := k.io.home
  if ¬ k.loops.running ∨ (k.io.limit hi).active then ch
  else if k.seq.state = .homing ∧ ¬ hi then
    if h.step = 2 then
      (ch.modIo d (fun io => { io with home := { io.home with latch1 := raw, step := 3 } })).drive d (fun q => { q with posTarget := raw })
    else if h.step = 5 then
      (ch.modIo d (fun io => { io with home := { io.home with latch2 := raw, latch2At := t, step := 6 } })).drive d
        (fun q => { q with posTarget := raw })
    else ch
  else ch.holdPositioner d raw

/-- LIMIT_EDGE (R431, R432, R435). -/
def limitEdgeEffect (d : Deck) (hi active : Bool) (before after : Int) (into : Nat) (ch : Chip) : Chip :=
  let k := ch.decks.get d
  let l := k.io.limit hi
  let t := ch.now
  if ¬ ch.inputMay d active ∨ active = l.raw then ch
  else match l.window with
    | some (n, t0) => ch.modIo d (fun io => io.setLimit hi { l with raw := active, window := some (n + 1, t0) })
    | none =>
      (ch.windowOpens d hi (latchPosition before after into k.loops.period.toNat) t).modIo d (fun io =>
        io.setLimit hi { l with raw := active, window := some (1, t) })

/-- The approach of step 2 toward POSLO# from raw position `pos`, and the re-approach of step 5 (R434). -/
def Chip.approach (ch : Chip) (d : Deck) (p : Profile) (pos : Int) : Chip :=
  (ch.modIo d (fun io => { io with home := { io.home with step := 2, fromPos := pos } })).drive d (fun q =>
    { q with posTarget := pos - travelLimit p - 2000000, posRamp := approachRamp p })
def Chip.reapproach (ch : Chip) (d : Deck) (p : Profile) : Chip :=
  (ch.modIo d (fun io => { io with home := { io.home with step := 5 } })).drive d (fun q =>
    { q with posTarget := (ch.decks.get d).io.home.latch1 - 1000000, posRamp := reapproachRamp p })

/-- A debounced change of POSLO# to active in homing: step 3 or 6 ends (R434, Table 17-6). -/
def Chip.latchHolds (ch : Chip) (d : Deck) (p : Profile) : Chip :=
  let h := (ch.decks.get d).io.home
  if h.step = 3 then
    (ch.modIo d (fun io => { io with home := { io.home with step := 4 } })).drive d (fun q =>
      { q with posTarget := h.latch1 + 200000, posRamp := approachRamp p })
  else if h.step = 6 then
    if 20000 < (h.latch2 - h.latch1).natAbs then ch.faultStop d Cause.homeFailed false false
    else
      (ch.modIo d (fun io => { io with home := { io.home with step := 7, offset := h.latch2 } })).drive d (fun q =>
        { q with posTarget := 200000, posRamp := approachRamp p })
  else ch

/-- A glitch on POSLO# in step 3 or 6: back to the approach before it; the third in one HOME fails it (Table 17-6). -/
def Chip.latchGlitch (ch : Chip) (d : Deck) (p : Profile) : Chip :=
  let h := (ch.decks.get d).io.home
  let c1 := ch.modIo d (fun io => { io with home := { io.home with glitches := io.home.glitches + 1 } })
  if 3 ≤ h.glitches + 1 then c1.faultStop d Cause.homeFailed false false
  else if h.step = 3 then
    (c1.modIo d (fun io => { io with home := { io.home with step := 2 } })).drive d (fun q =>
      { q with posTarget := h.fromPos - travelLimit p - 2000000, posRamp := approachRamp p })
  else c1.reapproach d p

/-- The former target of a held positioner is restored (R432). -/
def Chip.releasePositioner (ch : Chip) (d : Deck) : Chip :=
  match (ch.decks.get d).io.posHold with
  | some x => (ch.modIo d (fun io => { io with posHold := none })).drive d (fun q => { q with posTarget := x })
  | none => ch

/-- LIMIT_WINDOW_END (R431, R432, R434, R436). -/
def limitWindowEndEffect (d : Deck) (hi : Bool) (ch : Chip) : Chip :=
  let k := ch.decks.get d
  let l := k.io.limit hi
  match l.window with
  | none => ch
  | some (n, t0) =>
    let homing := decide (k.seq.state = .homing)
    let c1 := ch.modIo d (fun io => io.setLimit hi { l with window := none })
    if 4 < n then
      let c2 := (c1.modIo d (fun io => { io with chatter := io.chatter + 1 })).postDeck d Ev.limitChatter (servoUnit d) (BitVec.ofNat 32 n)
      if homing ∨ ¬ l.active then c2.faultStop d Cause.chatter false false else c2
    else if l.raw ≠ l.active then
      let c2 := c1.modIo d (fun io => io.setLimit hi { l with window := none, active := l.raw })
      if ¬ l.raw then c2
      else
        let c3 := c2.postAt t0 Ev.limitHit (.deck d) (servoUnit d) (deckObject d) (BitVec.ofNat 32 (bit hi))
        match k.profile with
        | some p => if homing ∧ ¬ hi then c3.latchHolds d p else c3.faultStop d Cause.unexpected false false
        | none => c3
    else
      let c2 := c1.modIo d (fun io => { io with glitch := io.glitch + 1 })
      match k.profile with
      | some p =>
        if homing ∧ ¬ hi ∧ (k.io.home.step = 3 ∨ k.io.home.step = 6) then c2.latchGlitch d p else c2.releasePositioner d
      | none => c2

/-! ### Presence and the tape marker (R433, R440, R446, R447) -/

/-- PRESENCE_CHANGE: a level that held for 20 ms (R433, R440; 18: R454, R460). -/
def presenceChangeEffect (d : Deck) (door level : Bool) (ch : Chip) : Chip :=
  let k := ch.decks.get d
  if ¬ ch.inputMay d level ∨ (if door then k.io.door else k.io.cart) = level then ch
  else
    let c1 := ch.modIo d (fun io => if door then { io with door := level } else { io with cart := level })
    let code := match door, level with
      | true, true => Ev.doorClosed
      | true, false => Ev.doorOpened
      | false, true => Ev.cartInserted
      | false, false => Ev.cartRemoved
    let c2 := c1.post code .all (servoUnit d) (deckObject d) 0
    if door then
      if ¬ level ∧ k.loops.running then c2.faultStop d Cause.other false false else c2
    else if k.loops.running ∧ ¬ level then c2.faultStop d Cause.other true false
    else if k.seq.state = .empty ∧ level then c2.setDeckState d .present
    else if k.seq.state = .present ∧ ¬ level then c2.setDeckState d .empty
    else c2

/-- The end marker: a controlled stop, EOT, and MEDIA, END_OF_TAPE (R447). A LOAD that meets it in SCAN is over, and the deck goes where a
stopped LOAD goes (Table 18-4). -/
def Chip.endMarker (ch : Chip) (d : Deck) : Chip :=
  let k := ch.decks.get d
  let c0 := ch.postDeck d Ev.eot (servoUnit d) (k.tape.wrap.setWidth 32)
  let c1 := if (k.seq.op.isSome ∨ k.seq.waiters ≠ []) ∧ k.tape.label.any (fun l => l.lastWrap k.tape.partition.toNat k.tape.wrap.toNat) then
      c0.postDeck d Ev.partitionEnd (servoUnit d) (k.tape.partition.setWidth 32)
    else c0
  let c2 := ((c1.endOp d Stat.endOfTape []).endWaiters d Stat.endOfTape).haltEngines d
  match (c2.decks.get d).seq.state with
  | .ready => c2
  | .scan => c2.drive d (fun q => { q with capSpeed := 0 })
  | _ => c2.controlledStop d

/-- TAPE_MARKER_EDGE (R433, R446, R447). -/
def tapeMarkerEdgeEffect (d : Deck) (rising : Bool) (ch : Chip) : Chip :=
  let k := ch.decks.get d
  if ¬ ch.inputMay d rising ∨ k.io.tapemk = rising then ch
  else
    let here := k.positionAt ch.now
    let fwd := (k.io.encs.get 0).fwd
    let mm : Int := match k.profile with
      | some p => mmCrumbs p 1
      | none => 0
    let c1 := ch.modIo d (fun io => { io with tapemk := rising, markAt := here })
    if rising ≠ fwd ∧ (k.seq.state = .calibrate ∨ (measuring k.seq.state ∧ here ≤ mm)) then
      c1.modDeck d (fun k => { k.modSeq (fun q => { q with zeroed := true }) with pos := k.pos - here })
    else if rising ∧ fwd ∧ mm < here ∧ (k.seq.state = .scan ∨ tapeLoaded k.seq.state) then c1.endMarker d
    else c1

/-- DECK_LEAVE_DORMANT (R440, R464, R469). -/
def Chip.leaveDormant (ch : Chip) (d : Deck) : Chip :=
  let k := ch.decks.get d
  if k.seq.state = .dormant ∧ ch.power.control ∧ ch.servoOn d ∧ ch.power.viod.get d ∧ ch.timebase.refState = .locked ∧ (ch.timebase.decks.get d).valid then
    ch.setDeckState d (if k.io.cart then .present else .empty)
  else ch

/-- MIO_CTRL.clear_counts (R437). -/
def mioClearCountsEffect (d : Deck) (ch : Chip) : Chip :=
  ch.modIo d (fun io => { io with
    suppress := 0, held := 0, encErr := 0, indexErr := 0, glitch := 0, chatter := 0, sensorInvalid := 0,
    axes := io.axes.map (fun x => { x with tripCnt := 0 }) })

/-! ### The commands -/

/-- ENCODER_EDGE (R424). -/
def execEncoderEdge (d : Deck) (enc : Fin 3) (a b : Bool) (fine : BitVec 11) (s : State) : Host.Outcome State Fault Refusal :=
  s.onChipAt fine (encoderEdgeEffect d enc a b)
/-- ENCODER_ERROR_FAULT (R425). -/
def execEncoderErrorFault (d : Deck) (enc : Fin 3) (s : State) : Host.Outcome State Fault Refusal :=
  s.onChip (encoderErrorFaultEffect d enc)
/-- INDEX_EDGE (R427). -/
def execIndexEdge (d : Deck) (fine : BitVec 11) (s : State) : Host.Outcome State Fault Refusal := s.onChipAt fine (indexEdgeEffect d)
/-- LIMIT_EDGE (R431). -/
def execLimitEdge (d : Deck) (hi active : Bool) (fine : BitVec 11) (before after : Int) (into : Nat) (s : State) :
    Host.Outcome State Fault Refusal := s.onChipAt fine (limitEdgeEffect d hi active before after into)
/-- LIMIT_WINDOW_END (R431). -/
def execLimitWindowEnd (d : Deck) (hi : Bool) (s : State) : Host.Outcome State Fault Refusal := s.onChip (limitWindowEndEffect d hi)
/-- PRESENCE_CHANGE (R433). -/
def execPresenceChange (d : Deck) (door level : Bool) (fine : BitVec 11) (s : State) : Host.Outcome State Fault Refusal :=
  s.onChipAt fine (presenceChangeEffect d door level)
/-- TAPE_MARKER_EDGE (R446). -/
def execTapeMarkerEdge (d : Deck) (rising : Bool) (fine : BitVec 11) (s : State) : Host.Outcome State Fault Refusal :=
  s.onChipAt fine (tapeMarkerEdgeEffect d rising)
/-- DECK_LEAVE_DORMANT (R440). -/
def execDeckLeaveDormant (d : Deck) (s : State) : Host.Outcome State Fault Refusal := s.onChip (fun ch => ch.leaveDormant d)
/-- MIO_CLEAR_COUNTS (R437). -/
def execMioClearCounts (d : Deck) (s : State) : Host.Outcome State Fault Refusal := s.onRegister (mioClearCountsEffect d)

end Sys2Proof.Machine
end

