-- ==== Sys2Proof/Machine/SpeedLaw.lean ====
section
/-! DEFINITION. The speed matcher's arithmetic: bounds, retarget, run-out and restart targets (15: R378–R390; 08: R221; 13: R338). -/

namespace Sys2Proof.Machine

/-- The integer square root, bit by bit from bit b down. -/
def isqrtFrom : Nat → Nat → Nat → Nat
  | 0, _, r => r
  | b + 1, n, r => isqrtFrom b n (if (r + 2 ^ b) * (r + 2 ^ b) ≤ n then r + 2 ^ b else r)

def isqrt (n : Nat) : Nat := isqrtFrom 64 n 0

/-- Cells per track of a dataset with no trailer (R338, R379). -/
def c0Cells (n : Nat) : Nat := datasetCells n 0

/-- Denominator of a length in µm given in crumbs: crumbs · line_pitch / (4,096 · 10⁶) (Table 8-8). -/
def crumbDen : Nat := 4096000000

/-- The speed bounds lo and hi, for a tape of n tracks and cell length `cell` in crumbs (R221, R379). -/
def speedBounds (pol : SpeedPolicy) (p : Profile) (n cell : Nat) : Nat × Nat :=
  let sMin := ceilDiv (p.speedMin * 10000) p.speedMax
  let lo := if pol.floor = 0 then sMin else pol.floor
  let vb := isqrt (2 * p.accel * 1000)
  let vBrake := isqrt (vb * vb + 2 * p.accel * c0Cells n * cell * p.linePitch / crumbDen)
  let top := p.cellRateMax * 100000 * cell * p.linePitch * 10000 / (crumbDen * p.speedMax)
  let hi := min (min (if pol.ceiling = 0 then 10000 else pol.ceiling) (min 10000 top)) (vBrake * 10000 / p.speedMax)
  (min lo hi, hi)

/-- Tape speed of a target in µm/s (R378). -/
def speedOf (p : Profile) (s : Nat) : Nat := s * p.speedMax / 10000

/-- The run-out speed v_b (R379). -/
def runOutSpeed (p : Profile) : Nat := isqrt (2 * p.accel * 1000)

/-- The next target from the present one and the staging fill in 0.1 % (R380). -/
def retargetLaw (lo hi s fill : Nat) : Nat :=
  let d : Int := Int.tdiv ((s : Int) * ((fill : Int) - 500)) 5000
  let lim : Int := max 1 (s / 50 : Nat)
  let d1 := if lim < d then lim else if d < -lim then -lim else d
  let x := ((s : Int) + d1).toNat
  if x < lo then lo else if hi < x then hi else x

/-- The restart target: `bytes` stored in `t` pinches (R389). -/
def restartLaw (lo hi : Nat) (p : Profile) (n cell bytes t : Nat) : Nat :=
  let s := if t < 16000000 then hi
    else ceilDiv (bytes * 16000000000 * c0Cells n * cell * p.linePitch * 10000) (131072 * p.speedMax * t * crumbDen)
  if s < lo then lo else if hi < s then hi else s

end Sys2Proof.Machine
end

