-- ==== Sys2Proof/Machine/Tape.lean ====
section
/-! DEFINITION. What the deck knows of its tape: wraps, lengths, objects of a dataset, positions, staging and the reading of decoded
datasets by the operation that runs (08: R197–R216; 13: R314–R345; 14: R375; 15: R364, R378). -/

namespace Sys2Proof.Machine

def Chip.modTape (ch : Chip) (d : Deck) (f : TapeInfo → TapeInfo) : Chip := ch.modDeck d (fun k => { k with tape := f k.tape })

/-! ### Wraps and lengths (R314–R316, R338) -/

/-- Length of n cells in crumbs. -/
def Label.cells (l : Label) (n : Nat) : Nat := n * l.cellLength

/-- Crumbs left on the present wrap in its direction (R446; odd wraps run in reverse). -/
def DeckAll.leftOnWrap (k : DeckAll) (p : Profile) : Nat :=
  let start : Int := mmCrumbs p 10
  let end_ : Int := mmCrumbs p (10 + p.wrapLength)
  (if k.tape.wrap.getLsbD 0 then k.pos - start else end_ - k.pos).toNat

/-- Crumbs left in the present partition from the present place (R208). -/
def DeckAll.leftInPartition (k : DeckAll) (p : Profile) (l : Label) : Nat :=
  let w := k.tape.wrap.toNat
  let last := l.firstWrap k.tape.partition.toNat + l.wrapCount k.tape.partition.toNat
  k.leftOnWrap p + (last - (w + 1)) * mmCrumbs p p.wrapLength

/-! ### Objects (R197, R323) -/

def Staged.object : Staged → W64
  | .stored r => r.object
  | .marks _ o _ _ _ _ => o

/-- The object after it. -/
def Staged.after (s : Staged) : W64 := s.object + BitVec.ofNat 64 s.count

/-- Records and filemarks that follow discarded ones take the numbers these leave free. -/
def Staged.renumber (s : Staged) (gone : List W64) : Staged :=
  let n : W64 := BitVec.ofNat 64 (gone.filter (fun x => decide (x.toNat < s.object.toNat))).length
  match s with
  | .stored r => .stored { r with object := r.object - n }
  | .marks i x c du tag rc => .marks i (x - n) c du tag rc

/-- A record with a number below x still waits for Whisk. -/
def Chip.recordBefore (ch : Chip) (d : Deck) (x : W64) : Bool :=
  match (ch.decks.get d).lock.owner with
  | some i => (ch.waitingRecs i d).any (fun r => decide (r.object.toNat < x.toNat))
  | none => false

/-- Objects of the deck that are handed to staging and not durable, in the pipeline and in the holder's WDATA queue (Table 8-7). -/
def Chip.stagedObjects (ch : Chip) (d : Deck) : Nat :=
  let k := ch.decks.get d
  ((k.inFlight ++ k.staged).map Staged.count).foldl (· + ·) 0 +
    (match k.lock.owner with
     | some i => (ch.waitingRecs i d).length
     | none => 0)

/-- Number of the object after the last one that ends in the dataset (R323). -/
def Dataset.after (ds : Dataset) : W64 :=
  let begun := ds.first + BitVec.ofNat 64 (bit ds.continues + (ds.entries.map (·.begins)).foldl (· + ·) 0)
  match ds.entries.getLast? with
  | some (.segment _ false _ _ _ _) => begun - 1
  | _ => begun

/-- Number of the object after the last one that begins in the dataset. -/
def Dataset.begunAfter (ds : Dataset) : W64 :=
  ds.first + BitVec.ofNat 64 (bit ds.continues + (ds.entries.map (·.begins)).foldl (· + ·) 0)

/-- The entries of a dataset with their object numbers and user-area offsets (R323, R322). -/
def numberEntries : List DitEntry → W64 → Nat → List (W64 × DitEntry × Nat)
  | [], _, _ => []
  | e :: es, next, off =>
    match e with
    | .marks n => (next, e, off) :: numberEntries es (next + BitVec.ofNat 64 n) off
    | .segment _ _ _ _ len _ => (next, e, off) :: numberEntries es (next + 1) (off + len)

def Dataset.numbered (ds : Dataset) : List (W64 × DitEntry × Nat) := numberEntries ds.entries ds.first 0

/-- The entry that object x lies in. -/
def Dataset.entryOf (ds : Dataset) (x : W64) : Option (W64 × DitEntry × Nat) :=
  ds.numbered.find? (fun e => decide (e.1.toNat ≤ x.toNat) && decide (x.toNat < e.1.toNat + (match e.2.1 with
    | .marks n => n
    | .segment .. => 1)))

/-! ### Positions (R197, R198, Table 8-7) -/

def TapeInfo.eodObject (t : TapeInfo) : W64 := t.eodObj.get (Fin.ofNat 4 t.partition.toNat)
def TapeInfo.eodDataset (t : TapeInfo) : W64 := t.eodDs.get (Fin.ofNat 4 t.partition.toNat)
def TapeInfo.genHere (t : TapeInfo) : W32 := t.gen.get (Fin.ofNat 4 t.partition.toNat)
def TapeInfo.atEod (t : TapeInfo) : Bool := !t.mid && decide (t.eodObject.toNat ≤ t.object.toNat)
def TapeInfo.atBop (t : TapeInfo) : Bool := !t.mid && decide (t.object = 0)
def TapeInfo.incompleteHere (t : TapeInfo) : Bool := t.incomplete.get (Fin.ofNat 4 t.partition.toNat)

/-- Beyond the early-warning point of the partition (R208). -/
def DeckAll.pastEw (k : DeckAll) (p : Profile) (l : Label) : Bool :=
  l.lastWrap k.tape.partition.toNat k.tape.wrap.toNat && decide (k.leftOnWrap p < mmCrumbs p p.ewDistance)

/-- The position block (Table 8-7). -/
def Chip.positionBlock (ch : Chip) (d : Deck) : List Byte :=
  let t := (ch.decks.get d).tape
  let staged := match (ch.decks.get d).lock.holder with
    | some _ => ch.stagedObjects d
    | none => 0
  [t.partition.setWidth 8, BitVec.ofNat 8 (bit t.atBop + 2 * bit t.atEod + 4 * bit t.beyondEw + 8 * bit t.mid)]
    ++ leBytes 2 t.wrap.toNat ++ leBytes 4 (t.dataset.toNat % 4294967296) ++ leBytes 8 t.object.toNat ++ leBytes 4 staged
    ++ leBytes 4 (if t.mid then t.offset else 0)

/-- The position moves to an object in a dataset; a mid-record state ends (R198). -/
def TapeInfo.moveTo (t : TapeInfo) (object dataset : W64) : TapeInfo :=
  { t with object := object, dataset := dataset, mid := false, offset := 0, walk := none, current := none }

/-- The position moves into partition p, on wrap w of it; what Strainer holds of another partition is of no use there. -/
def TapeInfo.enter (t : TapeInfo) (p : BitVec 2) (w : BitVec 6) : TapeInfo :=
  if t.partition = p then { t with wrap := w } else { t with partition := p, wrap := w, ds := none, ahead := .unknown }

/-- The EOD of partition p. -/
def TapeInfo.toEod (t : TapeInfo) (p : BitVec 2) : TapeInfo :=
  let i : Fin 4 := Fin.ofNat 4 p.toNat
  (t.moveTo (t.eodObj.get i) (t.eodDs.get i)).enter p (t.eodWrap.get i)

/-- BOP of partition p. The position has not passed the early-warning point any more (R208, Table 8-7). -/
def TapeInfo.toBop (t : TapeInfo) (p : BitVec 2) : TapeInfo :=
  { (t.moveTo 0 0).enter p (match t.label with
      | some l => BitVec.ofNat 6 (l.firstWrap p.toNat)
      | none => 0) with beyondEw := false }

/-- The tape has come to its position: it lies beyond the early-warning point or not (R208, Table 8-7). -/
def DeckAll.noteEw (k : DeckAll) : DeckAll :=
  match k.profile, k.tape.label with
  | some p, some l => { k with tape := { k.tape with beyondEw := k.pastEw p l } }
  | _, _ => k

/-! ### Staging and flushing (R202, R364) -/

/-- A flush, with the end-of-data marker, comes first (R202). -/
def Chip.flushNeeded (ch : Chip) (d : Deck) : Bool :=
  decide (0 < ch.stagedObjects d) || (ch.decks.get d).tape.marker

/-! ### The ends of operations -/

/-- Changes the operation that runs. -/
def Chip.modOp (ch : Chip) (d : Deck) (f : DeckOp → DeckOp) : Chip :=
  ch.modDeck d (fun k => k.modSeq (fun q => { q with op := q.op.map f }))

/-- A deck operation ends by the work of an engine: its notice goes to the Cook, which has the tape stopped too, unless Roller still writes (R20, R21, R452, R370).
Only DONE classes carry a payload (R177); a DECK_UNLOCK whose marker cannot be written is refused (R166, Table 7-7). -/
def Chip.engineEnds (ch : Chip) (d : Deck) (st : Stat) (payload : List Byte) (stops : Bool := true) : Chip :=
  match (ch.decks.get d).seq.op with
  | none => ch
  | some o =>
    let st' := if o.op = .deckUnlock ∧ st = Stat.writeFailed then Stat.deckState else st
    let n : Notice := { ctx := o.ctx, tag := o.tag, rcrc := o.rcrc, stat := st', payload := if st'.toNat < 512 then payload else [] }
    let c1 := (ch.stopReading d).modDeck d (fun k => k.noteEw.modSeq (fun q => { q with op := none }))
    if stops then c1.tellCook d (.endedMove (if o.silent then none else some n))
    else if o.silent then c1 else c1.notice d n

/-- An operation ends: one that has begun to move tape by its engine's notice, another at once. -/
def Chip.finish (ch : Chip) (d : Deck) (st : Stat) (payload : List Byte) : Chip :=
  match (ch.decks.get d).seq.op with
  | some o => if o.moving then ch.engineEnds d st payload else ch.endOp d st payload
  | none => ch

/-- DONE, or DONE_RECOVERED with the highest recovery used (R375). -/
def DeckOp.recovered (o : DeckOp) (plain : Stat) : Stat :=
  if o.rereads ≠ 0 then Stat.reread else if o.c3 ≠ 0 then Stat.c3Used else if o.c2Data ≠ 0 then Stat.c2Used else plain

/-- VERIFY's reply (Table 8-5). -/
def DeckOp.verifyReply (o : DeckOp) : List Byte :=
  leBytes 4 o.objects ++ leBytes 4 o.c2 ++ leBytes 4 o.c3 ++ leBytes 4 o.rereads ++ leBytes 4 o.poisoned ++ leBytes 4 0

/-- READ_RECORD's and READ_MORE's reply (Table 8-5). -/
def TapeInfo.readReply (t : TapeInfo) (length delivered offset : Nat) : List Byte :=
  leBytes 8 t.object.toNat ++ leBytes 4 length ++ leBytes 4 delivered ++ leBytes 4 offset ++ leBytes 4 (t.dataset.toNat % 4294967296)

/-- SPACE's reply. -/
def Chip.spaceReply (ch : Chip) (d : Deck) (rest : Int) : List Byte :=
  leBytes 4 (BitVec.ofInt 32 rest).toNat ++ leBytes 4 0 ++ ch.positionBlock d

/-- An operation that meets EOD: MEDIA, INCOMPLETE_DATASET beyond an incomplete one, SPACE apart; else DONE, EOD with its reply
(R212–R215, R345). -/
def Chip.meetEod (ch : Chip) (d : Deck) : Chip :=
  let t := (ch.decks.get d).tape
  match (ch.decks.get d).seq.op with
  | none => ch
  | some o =>
    let c1 := ch.postDeck d Ev.eod (engineUnit d 3) (t.eodDataset.setWidth 32)
    match o.op with
    | .space => c1.finish d Stat.eod (c1.spaceReply d o.rest)
    | op =>
      if t.incompleteHere then c1.finish d Stat.incompleteDataset []
      else match op with
        | .locate => c1.finish d Stat.eod (c1.positionBlock d)
        | .verify => c1.finish d (o.recovered Stat.eod) o.verifyReply
        | _ => c1.finish d Stat.eod (t.readReply 0 0 0)

/-- A read, VERIFY or SPACE ends MEDIA at an object: the position is before it (Table 8-6). -/
def Chip.failRead (ch : Chip) (d : Deck) (st : Stat) : Chip :=
  (ch.modTape d (fun t => t.moveTo t.object t.dataset)).finish d st []

/-! ### Datasets in hand (R325, R326, R363) -/

/-- The first object of a dataset that is void: from the first object of the next valid dataset on, when a truncation lies between; a
generation that is the partition's shows that none does (R325). None while the next dataset is not known. -/
def TapeInfo.validTo (t : TapeInfo) (ds : Dataset) : Option W64 :=
  if t.eodDataset.toNat ≤ ds.number.toNat + 1 then some t.eodObject
  else if ds.gen = t.genHere then some ds.begunAfter
  else match t.ahead with
    | .known a => some (a.first + BitVec.ofNat 64 (bit a.continues))
    | .lost => some ds.begunAfter
    | .unknown => none

/-- The dataset in which object x begins, when the object before it ends in `ds`, whose objects are void from `valid` on. -/
def TapeInfo.placeOf (t : TapeInfo) (ds : Dataset) (valid x : W64) : W64 :=
  if t.eodObject.toNat ≤ x.toNat then t.eodDataset
  else if x.toNat < min valid.toNat ds.begunAfter.toNat then ds.number
  else ds.number + 1

/-- Strainer turns to dataset n, when it is the one after that in hand. -/
def TapeInfo.turnTo (t : TapeInfo) (n : W64) : TapeInfo :=
  if t.ds.any (fun ds => ds.number == n && ds.partition == t.partition) then t
  else match t.ahead with
    | .known a => if a.number = n ∧ a.partition = t.partition then { t with ds := some a, ahead := .unknown } else { t with ds := none, ahead := .unknown }
    | _ => { t with ds := none, ahead := .unknown }

/-- The Cook orders a dataset read (pipeline queue j = 4). -/
def Chip.orderRead (ch : Chip) (d : Deck) (o : ReadOrder) : Chip := ch.modDeck d (fun k => { k with readQ := [o] })

/-- Dataset n with the first void object of it, when both are at hand; else the order to read what is missing. -/
def Chip.reach (ch : Chip) (d : Deck) (n : W64) : Chip × Option (Dataset × W64) :=
  let c1 := ch.modTape d (fun t => t.turnTo n)
  let t := (c1.decks.get d).tape
  match t.ds with
  | none => (c1.orderRead d (.read n), none)
  | some ds => match t.validTo ds with
    | some x => (c1, some (ds, x))
    | none => (c1.orderRead d (.ahead (n + 1)), none)

/-- Dataset n, whatever of it is void. -/
def Chip.reachAny (ch : Chip) (d : Deck) (n : W64) : Chip × Option Dataset :=
  let c1 := ch.modTape d (fun t => t.turnTo n)
  match (c1.decks.get d).tape.ds with
  | none => (c1.orderRead d (.read n), none)
  | some ds => (c1, some ds)

/-! ### Reading, verifying, spacing, locating over decoded datasets (R211–R215) -/

/-- What a dataset holds of object x: filemarks, with how many are left from x on, or a segment of a record. -/
inductive Found where
  | marks (left : Nat)
  | part (e : Extract)
  | absent
  deriving DecidableEq, Repr

def Dataset.lookup (ds : Dataset) (x : W64) : Found :=
  match ds.entryOf x with
  | some (n, .marks c, _) => .marks (n.toNat + c - x.toNat)
  | some (_, .segment f l raw p len recLen, off) =>
    .part { object := x, raw := raw, recLen := recLen, first := f, last := l, marked := p, ds := ds.number, bytes := (ds.user.drop off).take len }
  | none => .absent

/-- A record's segments so far with one more; none when they do not belong together, or when the whole breaks R327. -/
def ReadRec.add (r : Option ReadRec) (e : Extract) : Option ReadRec :=
  let next : Option ReadRec := match r with
    | none =>
      if e.first then some { object := e.object, length := e.recLen, raw := e.raw, marked := e.marked, bytes := e.bytes, whole := e.last, ds := e.ds }
      else none
    | some r =>
      if e.first ∨ e.object ≠ r.object ∨ e.raw ≠ r.raw ∨ e.recLen ≠ r.length then none
      else some { r with marked := r.marked || e.marked, bytes := r.bytes ++ e.bytes, whole := e.last, ds := e.ds }
  next.bind (fun r => if r.whole ∧ (if r.raw then r.bytes.length ≠ r.length + 4 else r.bytes.length < 4) then none else some r)

/-- READ_RECORD and READ_MORE with the dataset they want: a filemark ends them; a segment goes to Whisk (queue j = 5); what is left of a
record that the host read in part is skipped first (R211). -/
def Chip.readSteps (d : Deck) : Nat → Chip → Chip
  | 0, ch => ch
  | fuel + 1, ch =>
    let k := ch.decks.get d
    let t := k.tape
    match k.seq.op with
    | none => ch
    | some o =>
      let skips := t.mid && decide (o.op = .readRecord)
      if ¬ k.toExpand.isEmpty then ch
      else if t.atEod then ch.meetEod d
      else if ¬ skips ∧ t.current.isSome ∧ t.walk = none then ch
      else match ch.reach d (t.walk.getD (if skips then (t.current.map (·.ds)).getD t.dataset else t.dataset)) with
        | (c1, none) => c1
        | (c1, some (ds, valid)) =>
          match ds.lookup t.object with
          | .marks _ =>
            (c1.modTape d (fun t => t.moveTo (t.object + 1) (t.placeOf ds valid (t.object + 1)))).finish d Stat.filemark (t.readReply 0 0 0)
          | .part e =>
            if skips then
              if e.last then
                Chip.readSteps d fuel (c1.modTape d (fun t => t.moveTo (t.object + 1) (t.placeOf ds valid (t.object + 1))))
              else Chip.readSteps d fuel (c1.modTape d (fun t => { t with walk := some (ds.number + 1) }))
            else if (ReadRec.add t.current e).isNone then c1.failRead d Stat.formatError
            else c1.modDeck d (fun k => { k with toExpand := [e], tape := { k.tape with walk := none } })
          | .absent =>
            if t.current.isSome ∨ t.object.toNat < ds.first.toNat then c1.failRead d Stat.formatError
            else Chip.readSteps d fuel (c1.modTape d (fun t => { t with walk := some (ds.number + 1) }))

/-- How VERIFY judges a whole record: the malformation kind logged, if any, and whether the record fails (R213, R305, Table 8-6). -/
def verifyEnding (r : ReadRec) : Option Nat × Bool :=
  match (whiskExpand r.raw r.marked true (fun _ => false) r.length r.bytes).ending with
  | .malformed k => (some k.val, !r.marked)
  | .crcFail => (none, true)
  | .good | .poison => (none, false)

/-- A malformed stream is logged with its kind, its dataset and its deck (R305, code 0x20); a record that fails is announced. -/
def Chip.reportRecord (ch : Chip) (d : Deck) (kind : Option Nat) (failed : Bool) : Chip :=
  let ds := (ch.decks.get d).tape.dataset.setWidth 32
  let c1 := match kind with
    | some n => ch.logFault 0x20 (engineUnit d 1) (deckObject d) (BitVec.ofNat 32 n) ds (BitVec.ofNat 32 d.val)
    | none => ch
  if failed then c1.postDeck d Ev.recordCrcFail (engineUnit d 1) ds else c1

/-- VERIFY over objects, `fuel` steps at most (R213). -/
def Chip.verifySteps (d : Deck) (count : Option Nat) : Nat → Chip → Chip
  | 0, ch => ch
  | fuel + 1, ch =>
    let t := (ch.decks.get d).tape
    match (ch.decks.get d).seq.op with
    | none => ch
    | some o =>
      if count = some o.objects then ch.finish d (o.recovered Stat.done) o.verifyReply
      else if t.atEod then ch.meetEod d
      else match ch.reach d (t.walk.getD t.dataset) with
        | (c1, none) => c1
        | (c1, some (ds, valid)) =>
          match ds.lookup t.object with
          | .marks left =>
            let n := match count with
              | some c => min left (c - o.objects)
              | none => left
            let x := t.object + BitVec.ofNat 64 n
            Chip.verifySteps d count fuel (((c1.postDeck d Ev.filemarkPassed (engineUnit d 3) (ds.number.setWidth 32)).modTape d (fun t =>
              t.moveTo x (t.placeOf ds valid x))).modOp d (fun o => { o with objects := o.objects + n }))
          | .part e =>
            match ReadRec.add t.current e with
            | none => c1.failRead d Stat.formatError
            | some r =>
              if ¬ r.whole then
                Chip.verifySteps d count fuel (c1.modTape d (fun t => { t with current := some r, walk := some (ds.number + 1) }))
              else
                let v := verifyEnding r
                let c2 := c1.reportRecord d v.1 v.2
                if v.2 then c2.failRead d Stat.recordCrc
                else
                  Chip.verifySteps d count fuel ((c2.modTape d (fun t => t.moveTo (t.object + 1) (t.placeOf ds valid (t.object + 1)))).modOp d
                    (fun o => { o with objects := o.objects + 1, poisoned := o.poisoned + bit r.marked }))
          | .absent =>
            if t.current.isSome ∨ t.object.toNat < ds.first.toNat then c1.failRead d Stat.formatError
            else Chip.verifySteps d count fuel (c1.modTape d (fun t => { t with walk := some (ds.number + 1) }))

/-- SPACE forward (R215): kind 0 records, 1 filemarks. -/
def Chip.spaceForward (d : Deck) (kind : Nat) : Nat → Chip → Chip
  | 0, ch => ch
  | fuel + 1, ch =>
    let t := (ch.decks.get d).tape
    match (ch.decks.get d).seq.op with
    | none => ch
    | some o =>
      if o.rest = 0 then ch.finish d Stat.done (ch.spaceReply d 0)
      else if t.atEod then ch.meetEod d
      else match ch.reach d (t.walk.getD t.dataset) with
        | (c1, none) => c1
        | (c1, some (ds, valid)) =>
          let go (n : Nat) (c : Chip) : Chip :=
            c.modTape d (fun t => t.moveTo (t.object + BitVec.ofNat 64 n) (t.placeOf ds valid (t.object + BitVec.ofNat 64 n)))
          match ds.lookup t.object with
          | .marks left =>
            let c2 := c1.postDeck d Ev.filemarkPassed (engineUnit d 3) (ds.number.setWidth 32)
            if kind = 0 then
              let c3 := go 1 c2
              c3.finish d Stat.filemark (c3.spaceReply d o.rest)
            else
              let m := min left o.rest.toNat
              Chip.spaceForward d kind fuel ((go m c2).modOp d (fun o => { o with rest := o.rest - m }))
          | .part e =>
            if e.last then
              Chip.spaceForward d kind fuel ((go 1 c1).modOp d (fun o => { o with rest := if kind = 0 then o.rest - 1 else o.rest }))
            else Chip.spaceForward d kind fuel (c1.modTape d (fun t => { t with walk := some (ds.number + 1) }))
          | .absent =>
            if t.object.toNat < ds.first.toNat then c1.failRead d Stat.formatError
            else Chip.spaceForward d kind fuel (c1.modTape d (fun t => { t with walk := some (ds.number + 1) }))

/-- SPACE backward (R215): the object before the position is met in the position's dataset or in one before it; a record counts where its
first segment stands. -/
def Chip.spaceBackward (d : Deck) (kind : Nat) : Nat → Chip → Chip
  | 0, ch => ch
  | fuel + 1, ch =>
    let t := (ch.decks.get d).tape
    match (ch.decks.get d).seq.op with
    | none => ch
    | some o =>
      if o.rest = 0 ∨ t.object = 0 then ch.finish d Stat.done (ch.spaceReply d o.rest)
      else match ch.reachAny d (t.walk.getD (if t.atEod then t.dataset - 1 else t.dataset)) with
        | (c1, none) => c1
        | (c1, some ds) =>
          let before : Chip :=
            if ds.number = 0 then c1.failRead d Stat.formatError
            else Chip.spaceBackward d kind fuel (c1.modTape d (fun t => { t with walk := some (ds.number - 1) }))
          let go (n : Nat) (c : Chip) : Chip := c.modTape d (fun t => t.moveTo (t.object - BitVec.ofNat 64 n) ds.number)
          match ds.entryOf (t.object - 1) with
          | some (n, .marks _, _) =>
            let c2 := c1.postDeck d Ev.filemarkPassed (engineUnit d 3) (ds.number.setWidth 32)
            if kind = 0 then
              let c3 := go 1 c2
              c3.finish d Stat.filemark (c3.spaceReply d o.rest)
            else
              let m := min (t.object.toNat - n.toNat) o.rest.natAbs
              Chip.spaceBackward d kind fuel ((go m c2).modOp d (fun o => { o with rest := o.rest + m }))
          | some (_, .segment true .., _) =>
            Chip.spaceBackward d kind fuel ((go 1 c1).modOp d (fun o => { o with rest := if kind = 0 then o.rest + 1 else o.rest }))
          | some (_, .segment false .., _) => before
          | none => if (t.object - 1).toNat < ds.first.toNat then before else c1.failRead d Stat.formatError

/-- LOCATE arrives at object x. -/
def Chip.located (ch : Chip) (d : Deck) (x dataset : W64) : Chip :=
  let c1 := ch.modTape d (fun t => t.moveTo x dataset)
  if (c1.decks.get d).tape.atEod then c1.meetEod d else c1.finish d Stat.done (c1.positionBlock d)

/-- LOCATE by dataset (R214): the first object that begins in it, and is not void, or where none does the next object. -/
def Chip.locateDataset (ch : Chip) (d : Deck) (target : W64) : Chip :=
  match ch.reach d target with
  | (c1, none) => c1
  | (c1, some (ds, valid)) =>
    let x := ds.first + BitVec.ofNat 64 (bit ds.continues)
    let y := if x.toNat < valid.toNat then x else valid
    c1.located d y ((c1.decks.get d).tape.placeOf ds valid y)

/-- LOCATE by object (R214): among the datasets that pass, the one in which the object begins and is not void. -/
def Chip.locateObject (ch : Chip) (d : Deck) (target : W64) : Chip :=
  let t := (ch.decks.get d).tape
  match t.ds with
  | none => ch.orderRead d .scan
  | some ds =>
    match ds.entryOf target with
    | none => ch.orderRead d .scan
    | some (_, .segment false .., _) => if ds.number = 0 then ch.finish d Stat.formatError [] else ch.orderRead d (.read (ds.number - 1))
    | some _ =>
      match t.validTo ds with
      | none => ch.orderRead d (.ahead (ds.number + 1))
      | some v => if target.toNat < v.toNat then ch.located d target ds.number else ch.orderRead d .scan

/-- The operation that runs goes on with what Strainer has in hand. -/
def Chip.readOn (ch : Chip) (d : Deck) : Chip :=
  match (ch.decks.get d).seq.op with
  | none => ch
  | some o =>
    if ¬ o.moving then ch
    else match o.op with
      | .readRecord | .readMore => Chip.readSteps d 640 ch
      | .verify => Chip.verifySteps d (if byteAt o.payload 1 = 0#8 then some (leAt o.payload 2 2) else none) 1280 ch
      | .space =>
        if o.rest < 0 then Chip.spaceBackward d (byteAt o.payload 1).toNat 1280 ch else Chip.spaceForward d (byteAt o.payload 1).toNat 1280 ch
      | .locate =>
        let target : W64 := BitVec.ofNat 64 (leAt o.payload 8 8)
        if byteAt o.payload 1 = 1#8 then ch.locateDataset d target else ch.locateObject d target
      | _ => ch

/-! ### The start of an operation's own motion (R201, R202) -/

/-- The tape moves under an operation at `speed` (R448). -/
def Chip.startTape (ch : Chip) (d : Deck) (speed : Nat) : Chip :=
  (ch.drive d (fun q => { q with capSpeed := speed })).setDeckState d .streaming

/-- The speed of reading moves: hi (R383). -/
def DeckAll.readSpeed (k : DeckAll) : Nat := match k.profile with
  | some p => speedOf p k.matcher.hi
  | none => 0

/-- The Cook asks for an operation's motion (R20), with hi as the target (R383); from then on the engines end the operation. A later write
starts wherever the position has come to. -/
def Chip.askMove (ch : Chip) (d : Deck) (speed : Nat) : Chip :=
  (((ch.ask d (.move speed)).modDeck d (fun k => { k with
    matcher := { k.matcher with target := k.matcher.hi }, roller := { k.roller with nextP0 := none, eraseFrom := none } })).modOp d
    (fun o => { o with moving := true }))

/-- An operation that reads begins its motion; one that is already where it ends completes at once. -/
def Chip.startReading (ch : Chip) (d : Deck) (o : DeckOp) : Chip :=
  let moves (c : Chip) : Chip := (c.askMove d (c.decks.get d).readSpeed).readOn d
  let jump (c : Chip) (p : BitVec 2) : Chip := ((c.modTape d (fun t => t.toEod p)).askMove d (c.decks.get d).readSpeed).meetEod d
  let stay (c : Chip) : Chip := c.modTape d (fun t => t.moveTo t.object t.dataset)
  match o.op with
  | .readRecord => if (ch.decks.get d).tape.atEod then ch.meetEod d else moves (ch.modTape d (fun t => { t with walk := none }))
  | .readMore => if (ch.decks.get d).tape.mid then moves ch else ch.endOp d Stat.deckState []
  | .verify => if (ch.decks.get d).tape.atEod then ch.meetEod d else moves (stay ch)
  | .locate =>
    let t := (ch.decks.get d).tape
    let mode := (byteAt o.payload 1).toNat
    let p : BitVec 2 := BitVec.ofNat 2 (byteAt o.payload 2).toNat
    let i : Fin 4 := Fin.ofNat 4 p.toNat
    let target := leAt o.payload 8 8
    let beyond := decide (mode = 2) || (decide (mode = 0) && decide ((t.eodObj.get i).toNat ≤ target)) ||
      (decide (mode = 1) && decide ((t.eodDs.get i).toNat ≤ target))
    if beyond then jump ch p else moves ((stay ch).modTape d (fun t => t.enter p (if t.partition = p then t.wrap else (t.toBop p).wrap)))
  | .space =>
    let c1 := stay ch
    let t := (c1.decks.get d).tape
    if byteAt o.payload 1 = 2#8 then jump c1 t.partition
    else if 0 < o.rest ∧ t.atEod then c1.meetEod d
    else if o.rest < 0 ∧ t.atBop then c1.finish d Stat.done (c1.spaceReply d o.rest)
    else moves c1
  | .rewind =>
    if (ch.decks.get d).tape.atBop ∧ (ch.decks.get d).tape.partition = 0 then ch.finish d Stat.already []
    else (stay ch).askMove d (ch.decks.get d).readSpeed
  | _ => ch

/-! ### The starts of LOAD, HOME and AUTOTUNE (Table 18-2, Table 18-3, Table 17-5; 16: R409) -/

/-- THREAD begins: the load sequence of a LOAD, or of an UNLOAD from FAULT_STOP (R449, R456). -/
def Chip.startLoad (ch : Chip) (d : Deck) (forUnload : Bool) : Chip :=
  match (ch.decks.get d).profile with
  | none => ch
  | some p =>
    let c1 := ch.modDeck d (fun k => ({ k with
      tape := { k.tape with media := none, mid := false, offset := 0, ds := none, ahead := .unknown, declared := none, walk := none, current := none } }).modSeq (fun q => { q with
        tension := p.tensionSet / 4, capSpeed := 0, reverse := false, posTarget := k.io.posRaw - k.io.home.offset,
        offset := 0, posRamp := approachRamp p, rhoSup := none, rhoTku := none, stage := 0, unloadAfter := forUnload, rest := false }))
    (c1.setDeckState d .thread).startLoops d

/-- Homing begins from the present raw position: step 1 when POSLO# is active, else step 2 (Table 17-5). -/
def Chip.beginHoming (ch : Chip) (d : Deck) (p : Profile) : Chip :=
  let pos := (ch.decks.get d).io.posRaw
  let c1 := (ch.modIo d (fun io => { io with posHold := none, home :=
    { step := 1, homed := false, offset := 0, latch1 := 0, latch2 := 0, latch2At := 0, glitches := 0, fromPos := pos } })).setDeckState d .homing
  if (c1.decks.get d).io.posLo.active then
    c1.drive d (fun q => { q with posTarget := pos + travelLimit p + 2000000, posRamp := approachRamp p })
  else c1.approach d p pos

/-- HOME on its own: with the loops started when it begins at rest (R441). -/
def Chip.startHome (ch : Chip) (d : Deck) : Chip :=
  match (ch.decks.get d).profile with
  | none => ch
  | some p =>
    let idle := !(ch.decks.get d).loops.running
    let c1 := ch.modDeck d (fun k => k.modSeq (fun q => { q with capSpeed := 0, rest := false, posTarget := k.io.posRaw - k.io.home.offset }))
    let c2 := c1.beginHoming d p
    if idle then c2.startLoops d else c2

/-- AUTOTUNE puts the slot of its request in TUNING; the relay starts in the slot's switch state (R409, R403). -/
def Slot.startTune (s : Slot) (cycles : Nat) (swing band : Int) : Slot :=
  { s with
    state := .tuning,
    tune := { Tune.reset with state := .running, cycles := cycles, swing := swing, band := band, wasOpen := decide (s.state = .open),
                              ref0 := s.ref, relay := s.high } }

def Chip.startTune (ch : Chip) (d : Deck) (p : List Byte) : Chip :=
  ch.modSlot d (Fin.ofNat 12 (byteAt p 1).toNat) (fun s => s.startTune (byteAt p 2).toNat (leAt p 4 2) (leAt p 6 2))

/-! ### The end of a declaration and of a lock (R489, R166) -/

/-- The declaration of a write or a read ends: its load is withdrawn and the standing buffer returns (R489, R34). The next write-side
or read-side opcode declares again (R203; log entry 85). -/
def Chip.endDeclaration (ch : Chip) (d : Deck) : Chip :=
  let c1 := (ch.releaseBlocks (rollerOwner d) (ch.decks.get d).standing).modDeck d (fun k => { k with standing := [], tape.declared := none })
  (c1.declare (.deck d { c1.kettle.decks.get d with tracks := 0, reading := false, compress := false, decompress := false, cellRate := 0 }) none).1

/-- A lock becomes FREE: LOCK_FREED goes out, the declaration ends, and a held deck may be switched off (R166, R169, R489, R469). -/
def Chip.freeLock (ch : Chip) (d : Deck) : Chip :=
  ((((ch.setLock d DeckLock.reset).post Ev.lockFreed .all 9 (deckObject d) 0).endDeclaration d)).applyHold d

end Sys2Proof.Machine
end

