-- ==== Sys2Proof/Machine/Roller.lean ====
section
/-! DEFINITION. Roller and verify: assembly of datasets, orders, the write link, trailers, skips, durability and what
follows it (13: R322–R326, R336–R341; 14: R350–R370; 08: R202, R205, R208, R210; 20: R489). -/

namespace Sys2Proof.Machine

def Chip.modRoller (ch : Chip) (d : Deck) (f : Roller → Roller) : Chip := ch.modDeck d (fun k => { k with roller := f k.roller })

/-! ### Labels and end-of-data markers (R339–R341) -/

/-- A map entry of the present EOD of partition q. -/
def TapeInfo.mapEntry (t : TapeInfo) (q : Fin 4) : MapEntry :=
  { dataset := t.eodDs.get q, object := t.eodObj.get q, gen := t.gen.get q, wrap := t.eodWrap.get q }

/-- The dataset of a label (R339); partition 0's carries the tape map. -/
def labelDataset (l : Label) (gen : W32) : Dataset :=
  { kind := .label, number := l.seq.setWidth 64, first := 0, gen := gen, partition := l.partition,
    wrap := BitVec.ofNat 6 (l.firstWrap l.partition.toNat), tracks := l.tracks, entries := [], user := l.bytes }

/-- Tracks of the tape in the deck. -/
def TapeInfo.tracks (t : TapeInfo) : Nat :=
  match t.label with
  | some l => l.tracks
  | none => 0

/-- The end-of-data marker of partition q with dataset number n, next object x (R341). -/
def TapeInfo.eodDataset' (t : TapeInfo) (q : Fin 4) (n x : W64) : Dataset :=
  { kind := .eod, number := n, first := x, gen := t.gen.get q, partition := BitVec.ofNat 2 q.val, wrap := t.wrap, tracks := t.tracks,
    entries := [], user := [] }

/-- The rewrite of the label in force (R340): one above the higher seq, with the state and the map given. -/
def TapeInfo.newLabel (t : TapeInfo) (l : Label) (open_ : Bool) : Label :=
  { l with seq := l.seq + 1, isOpen := open_, partition := 0, map := ([0, 1, 2, 3] : List (Fin 4)).map t.mapEntry }

/-! ### Buffers (R364, R489) -/

/-- Draws n blocks for a deck's Roller or Strainer; all or none. -/
def Chip.drawBlocks (ch : Chip) (owner : Nat) (critical : Bool) : Nat → List Nat → Chip × Option (List Nat)
  | 0, got => (ch, some got)
  | n + 1, got =>
    if ch.ladle.freeBlocks.isEmpty then (ch.releaseBlocks owner got, none)
    else
      let c1 := ch.allocBlock owner owner critical
      match c1.ladleAnswer with
      | .done a => c1.drawBlocks owner critical n (got ++ [a])
      | _ => (c1.releaseBlocks owner got, none)

/-- A dataset buffer of `n` blocks: the standing one when it is not in use (R489). -/
def Chip.drawBuffer (ch : Chip) (d : Deck) (n : Nat) (critical : Bool) : Chip × Option (List Nat) :=
  let k := ch.decks.get d
  if k.standing ≠ [] ∧ ¬ k.standing.any (fun a => k.roller.blocksUsed.contains a) then (ch, some k.standing)
  else ch.drawBlocks (rollerOwner d) critical n []

/-- Buffers held by Roller (ROL_STATUS.buffers). -/
def Roller.held (r : Roller) : Nat := r.buffers.length + (if r.open_.isSome then 1 else 0)

/-- Every body piece in the order written: slot by slot, track by track (R334, R335). -/
def bodyOrder (n : Nat) : List (Nat × Nat) :=
  (List.range (800 / n)).flatMap (fun s => (List.range n).map (fun t => slotPiece n t s))

/-- A buffer whose dataset is closed and not yet started. -/
def DsBuf.fresh (ds : Dataset) (blocks : List Nat) (skips : Nat) : DsBuf :=
  { ds := ds, started := false, p0 := 0, bad := [], waiting := (bodyOrder (max ds.tracks 1)).map (fun x => (x, 0)), settled := [], copies := [],
    trailer := 0, inTrailer := false, skips := skips, rewrites := 0, everBad := [], blocks := blocks }

/-! ### Assembly (R322, R324) -/

/-- The open dataset closes; in a run-out the former target is posted again (R386). -/
def Chip.closeOpen (ch : Chip) (d : Deck) : Chip :=
  (ch.modRoller d (fun r => match r.open_ with
    | some ds => { r with open_ := none, openBlocks := [], buffers := r.buffers ++ [DsBuf.fresh ds r.openBlocks 0] }
    | none => r)).modDeck d (fun k =>
      let k1 : DeckAll := { k with matcher := { k.matcher with stallOn := false } }
      match k.matcher.runOut, k.profile with
      | some s, some p =>
        { k1 with matcher := { k1.matcher with runOut := none, target := s }, workQ := k1.workQ ++ [.speed (speedOf p s)] }
      | _, _ => k1)

/-- Bytes `a` to `a + n` of a stored form in its cells, by storage word. -/
def StoredRec.runs (r : StoredRec) (a n : Nat) : List (Nat × List Nat) := wordRuns (((chainBytes r.chain).drop a).take n)

/-- Roller can read the cells of a stored form: F-BANK serves every bank that they lie in. -/
def Chip.canCopy (ch : Chip) : Staged → Bool
  | .stored r => !r.bytes.isEmpty || (r.runs 0 r.size).all (fun x => ch.bankServes (BitVec.ofNat 18 x.1))
  | .marks .. => true

/-- Roller reads a stored form out of its cells, through its input of F-BANK (Table 10-2); one that it has copied already it keeps. A
word read as poison, that Whisk did not mark, poisons the record at Roller (R276, R322, R210). -/
def Chip.copyIn (ch : Chip) (d : Deck) (r : StoredRec) : Chip × StoredRec :=
  if ¬ r.bytes.isEmpty then (ch, r)
  else
    let got := ch.readRuns (8 + d.val) [] (r.runs 0 r.size)
    let r1 := { r with bytes := got.2 }
    (got.1.modDeck d (fun k => { k with
      staged := .stored r1 :: k.staged.drop 1,
      poisoned := if ¬ r.marked ∧ got.2.any (·.2) then k.poisoned ++ [{ object := r.object, atRoller := true, tag := r.tag }] else k.poisoned }), r1)

/-- The segment of a stored form that begins `placed` bytes into it and fills at most `room` bytes: its DIT entry, marked poisoned from
the segment of the first poisoned word on, and its bytes (R322). -/
def StoredRec.segment (r : StoredRec) (placed room : Nat) : DitEntry × List Byte :=
  let upTo := min r.bytes.length (placed + room)
  (.segment (decide (placed = 0)) (decide (upTo = r.bytes.length)) r.raw ((r.bytes.take upTo).any (·.2)) (upTo - placed) r.length,
   ((r.bytes.take upTo).drop placed).map (·.1))

/-- The head of staging goes into the open dataset `ds`, which closes when it is full. -/
def Chip.placeHead (ch : Chip) (d : Deck) (s : Staged) (ds : Dataset) : Chip :=
  match s with
  | .marks _ _ n _ _ _ =>
    let ds1 := { ds with entries := ds.entries ++ [.marks n] }
    let c1 := ch.modDeck d (fun k => { k with
      staged := k.staged.drop 1, inFlight := k.inFlight ++ [s], roller := { k.roller with open_ := some ds1 } })
    if ds1.entries.length = maxEntries then c1.closeOpen d else c1
  | .stored r =>
    let c := ch.copyIn d r
    let placed := (ch.decks.get d).roller.placed
    let e := c.2.segment placed (userArea - ds.user.length)
    let ds1 := { ds with entries := ds.entries ++ [e.1], user := ds.user ++ e.2 }
    let whole := decide (placed + e.2.length = c.2.bytes.length)
    let c1 := c.1.modDeck d (fun k => { k with
      staged := if whole then k.staged.drop 1 else k.staged,
      inFlight := if whole then k.inFlight ++ [.stored { c.2 with chain := [] }] else k.inFlight,
      roller := { k.roller with open_ := some ds1, placed := if whole then 0 else placed + e.2.length } })
    let c2 := if whole then c1.freeStaged d s else c1
    if ds1.entries.length = maxEntries ∨ userArea ≤ ds1.user.length then c2.closeOpen d else c2

/-- The label is rewritten open before the first dataset since LOAD (R340): the order goes ahead of the data. -/
def Chip.openLabel (ch : Chip) (d : Deck) : Chip :=
  let t := (ch.decks.get d).tape
  match t.label with
  | some l =>
    if l.isOpen then ch
    else
      let hinted := { t with eodDs := t.eodDs.set (Fin.ofNat 4 t.partition.toNat) (ch.decks.get d).roller.next }
      let l1 := hinted.newLabel l true
      (ch.modTape d (fun t => { t with label := some l1 })).modDeck d (fun k => { k with orders := k.orders ++ [labelDataset l1 (t.gen.get 0)] })
  | none => ch

/-- A new data dataset for the head of staging. -/
def DeckAll.newDataset (k : DeckAll) (s : Staged) : Dataset :=
  { kind := .data, number := k.roller.next, first := s.object, gen := k.tape.genHere, partition := k.tape.partition, wrap := k.tape.wrap,
    tracks := max k.tape.tracks 1, entries := [], user := [] }

/-- Orders enter buffers while there is room: an end-of-data marker or a label takes one block (R489). -/
def Chip.pumpOrders (d : Deck) : Nat → Chip → Chip
  | 0, ch => ch
  | fuel + 1, ch =>
    let k := ch.decks.get d
    match k.orders with
    | [] => ch
    | ds :: rest =>
      if 3 ≤ k.roller.held ∨ k.roller.stopAt.isSome then ch
      else match ch.drawBuffer d 1 true with
        | (c1, none) => c1
        | (c1, some bs) =>
          Chip.pumpOrders d fuel (c1.modDeck d (fun k => { k with
            orders := rest, roller := { k.roller with buffers := k.roller.buffers ++ [DsBuf.fresh ds bs 0] } }))

/-- Staged objects enter datasets while there is room. -/
def Chip.pumpStaged (d : Deck) : Nat → Chip → Chip
  | 0, ch => ch
  | fuel + 1, ch =>
    let k := ch.decks.get d
    match k.staged with
    | [] => ch
    | s :: _ =>
      if ch.recordBefore d s.object ∨ ¬ ch.canCopy s ∨ k.roller.stopAt.isSome then ch
      else match k.roller.open_ with
      | some ds => Chip.pumpStaged d fuel (ch.placeHead d s ds)
      | none =>
        if 3 ≤ k.roller.held ∨ k.tape.label.isNone ∨ ¬ k.orders.isEmpty then ch
        else
          let c0 := Chip.pumpOrders d 4 (ch.openLabel d)
          if ¬ (c0.decks.get d).orders.isEmpty ∨ 3 ≤ (c0.decks.get d).roller.held then c0
          else match c0.drawBuffer d 3 false with
            | (c1, none) => c1
            | (c1, some bs) =>
              Chip.pumpStaged d fuel (c1.modDeck d (fun k => { k with
                roller := { k.roller with open_ := some (k.newDataset s), openBlocks := bs, next := k.roller.next + 1 },
                matcher := { k.matcher with stallOn := true } }))

/-- Roller takes what it can from its queues 0 and 1; their entries wait while its domain is off (R23). -/
def Chip.pump (ch : Chip) (d : Deck) : Chip :=
  if ch.domOn (engineUnit d 2) then Chip.pumpStaged d 4096 (Chip.pumpOrders d 4 ch) else ch

/-- A padded close (R384); an open dataset with no entry closes nothing. -/
def Chip.paddedClose (ch : Chip) (d : Deck) : Chip :=
  match (ch.decks.get d).roller.open_ with
  | some ds =>
    if ds.entries.isEmpty ∨ ¬ ch.domOn (engineUnit d 2) then ch
    else ((ch.postDeck d Ev.stallPadded (engineUnit d 2) (BitVec.ofNat 32 (userArea - ds.user.length))).closeOpen d).pump d
  | none => ch

/-- A waiting completion forces the open dataset closed: it holds an object that the completion covers, and no other covered object
is still on its way into a dataset (R384, R210). -/
def Chip.closeDue (ch : Chip) (d : Deck) : Bool :=
  let k := ch.decks.get d
  match k.roller.open_ with
  | none => false
  | some ds => k.seq.waiters.any (fun w =>
      decide (ds.first.toNat < w.upTo.toNat) && !k.staged.any (fun s => decide (s.object.toNat < w.upTo.toNat)) && !ch.recordBefore d w.upTo)

/-- Roller takes what it can, and closes the open dataset for the completions that wait. -/
def Chip.settle (ch : Chip) (d : Deck) : Chip :=
  let c1 := ch.pump d
  if c1.closeDue d then c1.paddedClose d else c1

/-! ### Writing ends with FLUSH's answer (R210) -/

/-- FLUSH's payload (Table 8-4). -/
def DeckAll.flushReply (k : DeckAll) (rewrites skips : Nat) : List Byte :=
  leBytes 4 (match k.tape.durDs with
    | some n => n.toNat % 4294967296
    | none => 0xFFFFFFFF) ++ leBytes 8 k.tape.durObj.toNat ++ leBytes 2 (min rewrites 65535) ++ [BitVec.ofNat 8 (min skips 255), 0#8]

/-- The ending of a waiting completion whose objects are durable (R210, endings 3 to 5). -/
def Waiter.ending (w : Waiter) : Stat :=
  if w.compress then Stat.compressPoison else if w.atRoller then Stat.tapeWrite
  else if w.skips ≠ 0 then Stat.datasetSkip else if w.bad then Stat.verifyRewrite else Stat.durable

/-- A waiting completion ends with `st`: a notice to the Cook (R21); only DONE classes carry a payload (R177). -/
def Chip.noticeWaiter (ch : Chip) (d : Deck) (st : Stat) (w : Waiter) : Chip :=
  ch.notice d { ctx := w.ctx, tag := w.tag, rcrc := w.rcrc, stat := st, payload :=
    if st.toNat < 512 then (if w.op = .flush then (ch.decks.get d).flushReply w.rewrites w.skips else w.reply) else [] }

/-- A waiting completion ends; POISON_DELIVERED goes out for the records of it that are poisoned. -/
def Chip.endWaiter (ch : Chip) (d : Deck) (w : Waiter) : Chip :=
  (w.tags.foldl (fun c tag => c.post Ev.poisonDelivered (.ctx w.ctx) (engineUnit d 2) (ctxObject w.ctx) (tag.setWidth 32)) ch).noticeWaiter d w.ending w

/-- A write fails with `st`: what waits for durability ends, and so does the operation that was to follow or that runs, with `ofOp`; a
DECK_STOP that waits for rest will end WRITE_FAILED there (R210, R370, R190, Table 7-7). -/
def Chip.failWrite (ch : Chip) (d : Deck) (st ofOp : Stat) : Chip :=
  let q := (ch.decks.get d).seq
  (q.waiters.foldl (fun c w => c.noticeWaiter d st w) (ch.modDeck d (fun k => k.modSeq (fun q =>
    { q with waiters := [], stopWaiters := q.stopWaiters.map (fun w => { w with failed := true }) })))).engineEnds d ofOp [] false

/-- Some object of the dataset is covered by the waiter. -/
def Waiter.covers (w : Waiter) (ds : Dataset) : Bool :=
  decide (ds.first.toNat < w.upTo.toNat) && decide (w.from_.toNat < ds.begunAfter.toNat)

/-- Counts of a dataset that has become durable and the poisoned records that end in it, for each waiter that covers them. -/
def Waiter.note (w : Waiter) (b : DsBuf) (poisoned : List Poisoned) : Waiter :=
  let hit := poisoned.filter (fun x =>
    decide (w.from_.toNat ≤ x.object.toNat) && decide (x.object.toNat < w.upTo.toNat) && decide (x.object.toNat < b.ds.after.toNat))
  if w.covers b.ds then
    { w with rewrites := w.rewrites + b.rewrites, skips := w.skips + b.skips, bad := w.bad || !b.everBad.isEmpty,
             compress := w.compress || hit.any (fun x => !x.atRoller), atRoller := w.atRoller || hit.any (·.atRoller),
             tags := w.tags ++ hit.map (·.tag) }
  else w

/-- Waiters that objects before `upTo` satisfy end. -/
def Chip.endDurable (ch : Chip) (d : Deck) : Chip :=
  let k := ch.decks.get d
  let ready := k.seq.waiters.filter (fun w => decide (w.upTo.toNat ≤ k.tape.durObj.toNat))
  ready.foldl (fun c w => c.endWaiter d w) (ch.modDeck d (fun k => k.modSeq (fun q =>
    { q with waiters := q.waiters.filter (fun w => !decide (w.upTo.toNat ≤ k.tape.durObj.toNat)) })))

/-! ### Flushing before an operation (R202) -/

/-- Nothing is on its way to tape. -/
def Chip.writeIdle (ch : Chip) (d : Deck) : Bool :=
  let k := ch.decks.get d
  decide (ch.stagedObjects d = 0) && k.orders.isEmpty && k.roller.buffers.isEmpty && k.roller.open_.isNone

/-- The unload sequence begins (R458). -/
def Chip.startUnload (ch : Chip) (d : Deck) : Chip :=
  match (ch.decks.get d).profile with
  | none => ch
  | some p =>
    (ch.drive d (fun q => { q with stage := 1, unloadAfter := false, capSpeed := 0, posTarget := wrapTarget p 0 0, posRamp := approachRamp p })).setDeckState
      d .unloading

/-- The position's truncation (R205, R325): nothing at EOD; else a new generation, whose first dataset follows the one that holds the
object at the position. -/
def Chip.truncate (ch : Chip) (d : Deck) : Chip :=
  let t := (ch.decks.get d).tape
  let q : Fin 4 := Fin.ofNat 4 t.partition.toNat
  if t.atEod then
    if ch.writeIdle d then
      ch.modDeck d (fun k => { k with tape := { k.tape with durObj := t.object }, roller := { k.roller with next := t.eodDs.get q } })
    else ch
  else
    let n : W64 := if t.object = 0 then 0 else t.dataset + 1
    let t1 := { t with gen := t.gen.set q (t.gen.get q + 1), eodDs := t.eodDs.set q n, eodObj := t.eodObj.set q t.object,
                       eodWrap := t.eodWrap.set q t.wrap, dataset := n, durObj := t.object, incomplete := t.incomplete.set q false,
                       mid := false, offset := 0, ds := none, ahead := .unknown, walk := none, current := none }
    match t.label with
    | none => ch
    | some l =>
      let l1 := t1.newLabel l true
      ch.modDeck d (fun k => { k with
        tape := { t1 with label := some l1 }, roller := { k.roller with next := n },
        orders := k.orders ++ [labelDataset l1 (t1.gen.get 0)] })

/-- The end-of-data marker is ordered (R341). -/
def Chip.orderEod (ch : Chip) (d : Deck) : Chip :=
  (ch.modDeck d (fun k =>
    let q : Fin 4 := Fin.ofNat 4 k.tape.partition.toNat
    { k with orders := k.orders ++ [k.tape.eodDataset' q k.roller.next k.tape.object] })).pump d

/-- The structures FORMAT_TAPE writes (R340), for the request's tracks, partitions, cell length and wraps. -/
def formatOrders (stamp : W64) (linePitch : Nat) (p : List Byte) : List Dataset :=
  let parts := (byteAt p 2).toNat
  let wraps := (List.range 4).map (fun i => (byteAt p (8 + i)).toNat)
  let base (q : Nat) (seq : W32) : Label :=
    { tracks := (byteAt p 1).toNat, partitions := parts, cellLength := leAt p 4 4, linePitch := linePitch, wraps := wraps,
      partition := BitVec.ofNat 2 q, stamp := stamp, seq := seq, isOpen := false,
      map := if q = 0 then (List.range 4).map (fun i =>
          { dataset := 0, object := 0, gen := if i < parts then 1 else 0, wrap := BitVec.ofNat 6 ((wraps.take i).foldl (· + ·) 0) }) else [] }
  (List.range parts).flatMap (fun q =>
    [labelDataset (base q 1) 1, labelDataset (base q 2) 1,
     { kind := .eod, number := 0, first := 0, gen := 1, partition := BitVec.ofNat 2 q,
       wrap := BitVec.ofNat 6 ((wraps.take q).foldl (· + ·) 0), tracks := (byteAt p 1).toNat, entries := [], user := [] }])

/-- The format's label in force once everything is written. -/
def formatLabel (ds : List Dataset) : Option Label := (ds[1]?).bind (fun x => parseLabel x.user)

/-- The tape after FORMAT_TAPE (R218). -/
def TapeInfo.formatted (t : TapeInfo) (l : Label) : TapeInfo :=
  TapeInfo.toBop { t with
    media := some .krf, label := some l, lflag := false, eodDs := Vector.replicate 4 0, eodObj := Vector.replicate 4 0,
    eodWrap := Vector.ofFn (fun (q : Fin 4) => BitVec.ofNat 6 (l.firstWrap q.val)), gen := Vector.replicate 4 1,
    incomplete := Vector.replicate 4 false, marker := false, durDs := none, durObj := 0, ds := none, ahead := .unknown } 0

/-- A waiting policy takes effect, and lo and hi with it (R195, R379). -/
def DeckAll.adoptPolicy (k : DeckAll) : DeckAll :=
  match k.matcher.next, k.profile, k.tape.label with
  | some pol, some p, some l =>
    let b := speedBounds pol p l.tracks l.cellLength
    { k with matcher := { k.matcher with policy := pol, next := none, lo := b.1, hi := b.2 } }
  | _, _, _ => k

/-- lo and hi for the tape FORMAT_TAPE makes (R379). -/
def DeckAll.formatBounds (k : DeckAll) : DeckAll :=
  match k.profile, k.tape.label with
  | some p, some l =>
    let b := speedBounds k.matcher.policy p l.tracks l.cellLength
    { k with matcher := { k.matcher with lo := b.1, hi := b.2 } }
  | _, _ => k

/-- ERASE_FROM_HERE's long flag (R217). -/
def DeckOp.long (o : DeckOp) : Bool := (byteAt o.payload 1).getLsbD 0

/-- An operation whose flush is over begins (R202): the Cook asks for its motion. What Roller writes for an operation starts the tape as
any closed dataset does (R389). -/
def Chip.begin (ch : Chip) (d : Deck) : Chip :=
  match (ch.decks.get d).seq.op with
  | none => ch
  | some o =>
    let c1 := ch.modOp d (fun o => { o with flushing := false })
    match o.op with
    | .unload => c1.ask d .unload
    | .home => c1.ask d .home
    | .autotune => c1.startTune d o.payload
    | .deckUnlock =>
      let c2 := c1.modDeck d (fun k => k.modSeq (fun q => { q with op := none }))
      (if o.silent then c2 else c2.complete o.ctx o.tag o.rcrc Stat.done []).freeLock d
    | .eraseFromHere =>
      if ¬ o.long ∧ (c1.decks.get d).tape.atEod then c1.finish d Stat.already []
      else ((c1.modOp d (fun o => { o with moving := true })).truncate d).orderEod d
    | .formatTape =>
      let ds := formatOrders c1.now (match (c1.decks.get d).profile with
        | some p => p.linePitch
        | none => 0) o.payload
      (((c1.modTape d (fun t => { t with media := some .unreadable, label := formatLabel ds, partition := 0, wrap := 0 })).modDeck d
        (fun k => ({ k with orders := k.orders ++ ds, roller := { k.roller with cellLen := leAt o.payload 4 4, nextP0 := none, eraseFrom := none } }).formatBounds)).modOp
        d (fun o => { o with moving := true })).pump d
    | _ => c1.startReading d o

/-- One step of the writing that comes before an operation: the padded close, the end-of-data marker, at UNLOAD the clean label,
then, once the write has run out and the tape is at rest with the gate off (R387), the operation itself (R202, R188, R340). -/
def Chip.flushStep (ch : Chip) (d : Deck) : Chip :=
  match (ch.decks.get d).seq.op with
  | none => ch
  | some o =>
    if ¬ o.flushing then ch
    else
      let k := ch.decks.get d
      if 0 < ch.stagedObjects d then
        (if k.staged.isEmpty ∧ ¬ ch.recordBefore d k.tape.object then ch.paddedClose d else ch.pump d)
      else if ¬ ch.writeIdle d then ch
      else if k.tape.marker then ch.orderEod d
      else match k.tape.label with
        | some l =>
          if o.op = .unload ∧ l.isOpen then
            let l1 := k.tape.newLabel l false
            (ch.modDeck d (fun k => { k with
              tape := { k.tape with label := some l1 }, orders := k.orders ++ [labelDataset l1 (k.tape.gen.get 0)] })).pump d
          else if k.roller.gate then ch else ch.begin d
        | none => if k.roller.gate then ch else ch.begin d

/-! ### Judgements (R365, R366) -/

/-- A judgement of one copy of a piece. -/
def DsBuf.judge (b : DsBuf) (piece : Nat × Nat) (copy : Nat) (good : Bool) : DsBuf :=
  let w := b.waiting.filter (· ≠ (piece, copy))
  if good then
    { b with waiting := w, bad := b.bad.filter (· ≠ piece), settled := if b.settled.contains piece then b.settled else piece :: b.settled }
  else
    { b with waiting := w, everBad := if b.everBad.contains piece then b.everBad else b.everBad ++ [piece],
             bad := if b.settled.contains piece ∨ w.any (fun x => x.1 == piece) then b.bad else b.bad.filter (· ≠ piece) ++ [piece] }

/-- Changes the dataset being written: the first buffer, when its preamble has begun. -/
def Roller.modHead (r : Roller) (f : DsBuf → DsBuf) : Roller :=
  match r.buffers with
  | b :: bs => if b.started then { r with buffers := f b :: bs } else r
  | [] => r

/-- Cells of a dataset up to the end of its body and postamble. -/
def bodyCells (n : Nat) : Nat := 540 + 800 / max n 1 * 2232

/-- Where cell m of a dataset lies on tape (R350). -/
def DsBuf.cellAt (b : DsBuf) (l : Label) (m : Nat) : Int :=
  if b.ds.wrap.getLsbD 0 then b.p0 - (m * l.cellLength : Nat) else b.p0 + (m * l.cellLength : Nat)

/-- Where the last cell of a dataset's trailer ends (R367, R387). -/
def DsBuf.endAt (b : DsBuf) (l : Label) : Int := b.cellAt l (bodyCells b.ds.tracks + b.copies.length * 2232)

/-- Place x, moved on by n crumbs in the direction of wrap w. -/
def onward (w : BitVec 6) (x : Int) (n : Nat) : Int := if w.getLsbD 0 then x - n else x + n

/-! ### Durability (R370, R210, R341) -/

/-- What a durable end-of-data marker leaves (R341, R202). -/
def TapeInfo.eodWritten (t : TapeInfo) (ds : Dataset) : TapeInfo :=
  let q : Fin 4 := Fin.ofNat 4 ds.partition.toNat
  let t1 := { t with eodDs := t.eodDs.set q ds.number, eodObj := t.eodObj.set q ds.first, eodWrap := t.eodWrap.set q ds.wrap,
                     marker := if ds.partition = t.partition then false else t.marker, incomplete := t.incomplete.set q false,
                     ds := none, ahead := .unknown }
  if ds.partition = t.partition then { t1 with object := ds.first, dataset := ds.number } else t1

/-- What a durable data dataset leaves. -/
def TapeInfo.dataWritten (t : TapeInfo) (ds : Dataset) : TapeInfo :=
  let q : Fin 4 := Fin.ofNat 4 ds.partition.toNat
  { t with durDs := some ds.number, durObj := ds.after, eodDs := t.eodDs.set q (ds.number + 1), eodWrap := t.eodWrap.set q ds.wrap,
           dataset := ds.number + 1, ds := none, ahead := .unknown }

/-- An operation that was waiting for Roller's structures goes on, or ends once the write has run out (R217, R218, R387). -/
def Chip.structureWritten (ch : Chip) (d : Deck) : Chip :=
  match (ch.decks.get d).seq.op with
  | none => ch
  | some o =>
    if ¬ o.moving ∨ ¬ ch.writeIdle d ∨ (ch.decks.get d).roller.gate then ch
    else match o.op, (ch.decks.get d).tape.label with
      | .eraseFromHere, _ => if o.long then ch else ch.finish d Stat.done []
      | .formatTape, some l => (ch.modTape d (fun t => t.formatted l)).finish d Stat.done []
      | _, _ => ch

/-- A DECK_STOP of a writing deck: the tape stops once every data dataset it closed is written (R188, R452); where nothing else waits
to be written, the underrun stops it (R387). -/
def Chip.stopIfDue (ch : Chip) (d : Deck) : Chip :=
  let k := ch.decks.get d
  if k.seq.stopWaiters ≠ [] ∧ k.seq.state = .streaming ∧ ¬ (k.roller.gate ∧ k.roller.buffers.isEmpty) ∧ ¬ k.workQ.contains .stop ∧
      ¬ k.roller.buffers.any (fun b => decide (b.ds.kind = .data) && decide (b.ds.number.toNat < k.seq.stopAt.toNat)) then ch.ask d .stop
  else ch

/-- One step of an orphaned deck's drain: the staged objects, the end-of-data marker, then the stop (Table 6-8, steps 4 to 7). A marker
that could not be written is not tried again. -/
def Chip.drainStep (ch : Chip) (d : Deck) : Chip :=
  let k := ch.decks.get d
  match k.lock.state with
  | .draining _ =>
    if k.lock.report.noMove then ch
    else if 0 < ch.stagedObjects d then
      (if k.staged.isEmpty ∧ ¬ ch.recordBefore d k.tape.object then ch.paddedClose d else ch.pump d)
    else if ¬ ch.writeIdle d then ch
    else if k.tape.marker ∧ ¬ k.roller.eodFailed then ch.orderEod d
    else if k.seq.state = .streaming ∧ ¬ k.roller.gate ∧ ¬ k.workQ.contains .stop then ch.ask d .stop
    else ch
  | _ => ch

/-- What the drain of an orphaned deck has written by a durable dataset (R170). -/
def DeckLock.drained (l : DeckLock) (ds : Dataset) (records : Nat) : DeckLock :=
  match l.state with
  | .draining _ => { l with report := { l.report with
      marker := l.report.marker || decide (ds.kind = .eod), written := satU16 (l.report.written.toNat + records),
      lastDurable := if ds.kind = .data then ds.number.setWidth 32 else l.report.lastDurable } }
  | _ => l

/-- The capstan's direction and the positioner serve wrap w (R443, R445). -/
def Chip.aimAt (ch : Chip) (d : Deck) (w : BitVec 6) : Chip :=
  match (ch.decks.get d).profile with
  | some p => ch.drive d (fun q => { q with reverse := w.getLsbD 0, posTarget := wrapTarget p w.toNat 0, posRamp := approachRamp p, offset := 0 })
  | none => ch

/-- The wrap on which a dataset is written: a label's and a format structure's own, else the present one. -/
def DeckAll.wrapFor (k : DeckAll) (ds : Dataset) : BitVec 6 :=
  if ds.kind = .label ∨ ds.partition ≠ k.tape.partition then ds.wrap else k.tape.wrap

/-- The next dataset to be written lies on another wrap than the last: deck sequencing turns to it (R443). -/
def Chip.turnToNext (ch : Chip) (d : Deck) (from_ : BitVec 6) : Chip :=
  match (ch.decks.get d).roller.buffers with
  | b :: _ => if b.started ∨ (ch.decks.get d).wrapFor b.ds = from_ then ch else ch.aimAt d ((ch.decks.get d).wrapFor b.ds)
  | [] => ch

/-- Where the next dataset starts, after one that has been written: the end of its trailer, or the place of an end-of-data marker, which
the next one replaces; what follows a label lies elsewhere (R316, R341, R367). -/
def DsBuf.nextStart (b : DsBuf) (l : Option Label) : Option Int :=
  match b.ds.kind, l with
  | .data, some l => some (b.endAt l)
  | .eod, _ => some b.p0
  | _, _ => none

/-- The dataset at the head is durable (R370, R210). -/
def Chip.durable (ch : Chip) (d : Deck) (b : DsBuf) : Chip :=
  let ds := b.ds
  let c1 := (ch.modDeck d (fun k => { k with roller := { k.roller with
    buffers := k.roller.buffers.drop 1, datasets := k.roller.datasets + 1, spoiled := [], tail := some { b with blocks := [] },
    nextP0 := if ds.kind = .label then k.roller.nextP0 else b.nextStart k.tape.label } })).dropBuffer d b.blocks
  let c2 := c1.postDeck d Ev.datasetDurable (engineUnit d 4) (ds.number.setWidth 32)
  let c3 := if b.everBad.isEmpty then c2 else c2.postDeck d Ev.verifyRewrite (engineUnit d 4) (BitVec.ofNat 32 b.rewrites)
  let gone := (c3.decks.get d).inFlight.filter (fun s => decide (s.after.toNat ≤ ds.after.toNat))
  let records := (gone.filter Staged.isRecord).length
  let c4 := match ds.kind with
    | .data => c3.modDeck d (fun k => ({ k with
        tape := k.tape.dataWritten ds,
        inFlight := k.inFlight.filter (fun s => decide (ds.after.toNat < s.after.toNat)),
        poisoned := k.poisoned.filter (fun x => decide (ds.after.toNat ≤ x.object.toNat)) }).modSeq (fun q =>
          { q with waiters := q.waiters.map (fun (w : Waiter) => w.note b (c3.decks.get d).poisoned) }))
    | .eod => c3.modTape d (fun t => t.eodWritten ds)
    | .label => c3
  let c5 := c4.modDeck d (fun k => { k with lock := k.lock.drained ds records })
  (((((c5.endDurable d).settle d).turnToNext d ds.wrap).structureWritten d).flushStep d).stopIfDue d |>.drainStep d

/-! ### Limits and skips (R369, R370) -/

/-- The open ticket of the deck's owner takes the number of the next object (R210, R205). -/
def Chip.renumberTicket (ch : Chip) (d : Deck) (x : W64) : Chip :=
  match (ch.decks.get d).lock.owner with
  | some i => ch.modCtx i (fun c => { c with ticket := c.ticket.map (fun t =>
      if t.deck = d then { t with record := { t.record with object := x } } else t) })
  | none => ch

/-- A skip begins: the erase pattern for T_ds from the end of the trailer (R369). -/
def Roller.skip (r : Roller) (b : DsBuf) (l : Option Label) : Roller :=
  { r with skipping := true, skips := r.skips + 1, spoiled := [], tail := some { b with blocks := [] },
           nextP0 := l.map (fun l => onward b.ds.wrap (b.endAt l) (l.cells (tdsCells l.tracks))) }

/-- The write of a data dataset or a label has failed: its objects and all after them are discarded, those that still wait for Whisk
too, and the end-of-data marker with its number follows after one more skip (R210, R370). -/
def Chip.dataFailed (ch : Chip) (d : Deck) (b : DsBuf) : Chip :=
  let k := ch.decks.get d
  let c2 := ch.modDeck d (fun k => { k with
    staged := [], inFlight := [], poisoned := [], orders := [],
    tape := { k.tape with object := k.tape.durObj, dataset := b.ds.number,
                          eodObj := k.tape.eodObj.setIfInBounds k.tape.partition.toNat k.tape.durObj },
    roller := { k.roller.skip b k.tape.label with buffers := [], open_ := none, placed := 0, openBlocks := [], next := b.ds.number },
    matcher := { k.matcher with stallOn := false } })
  let c3 := k.staged.foldl (fun c s => c.freeStaged d s) (c2.dropBuffer d k.roller.blocksUsed)
  (((c3.dropWaiting d (some Stat.writeFailed)).renumberTicket d k.tape.durObj).failWrite d Stat.writeFailed Stat.writeFailed).orderEod d

/-- The end-of-data marker has failed too: Roller stops writing, and the tape stops; the fault log names the dataset (R370). -/
def Chip.eodFails (ch : Chip) (d : Deck) (b : DsBuf) : Chip :=
  let blocks := (ch.decks.get d).roller.blocksUsed
  let c2 := (ch.modRoller d (fun r => { r with
    eodFailed := true, gate := false, wl := 0, buffers := [], open_ := none, openBlocks := [], tail := none, spoiled := [] })).dropBuffer d blocks
  let c3 := (c2.logFault 0x22 (engineUnit d 2) (deckObject d) (b.ds.number.setWidth 32) 0 0).failWrite d Stat.writeFailed Stat.writeFailed
  (if (c3.decks.get d).seq.state = .streaming then c3.ask d .stop else c3).drainStep d

/-- A dataset breaks its limits: a skip, or after the third the failure of the write (R369, R370). -/
def Chip.breakLimits (ch : Chip) (d : Deck) (b : DsBuf) : Chip :=
  if b.skips < 3 then
    (ch.modDeck d (fun k => { k with roller := { k.roller.skip b k.tape.label with
      buffers := { DsBuf.fresh b.ds b.blocks (b.skips + 1) with rewrites := b.rewrites, everBad := b.everBad } ::
        k.roller.buffers.drop 1 } })).postDeck d Ev.datasetSkipped (engineUnit d 2) (b.ds.number.setWidth 32)
  else
    let c1 := ch.modRoller d (fun r => { r with failed := r.failed + 1 })
    if b.ds.kind = .eod then c1.eodFails d b else c1.dataFailed d b

/-- A copy judged: counted, applied, and the dataset durable once every piece is settled (R365). A copy of a dataset that is durable
already, or abandoned to a skip, only counts. -/
def Chip.judged (ch : Chip) (d : Deck) (piece : Nat × Nat) (copy : Nat) (good : Bool) : Chip :=
  let counted := ch.modDeck d (fun k => { k with strainer := { k.strainer with
    judged := k.strainer.judged + 1, bad := if good then k.strainer.bad else k.strainer.bad + 1 } })
  let r := (ch.decks.get d).roller
  if r.tail.any (fun b => b.waiting.contains (piece, copy)) then
    counted.modRoller d (fun r => { r with tail := r.tail.map (fun b => { b with waiting := b.waiting.filter (· ≠ (piece, copy)) }) })
  else match r.head with
    | none => ch
    | some b =>
      if ¬ b.waiting.contains (piece, copy) then ch
      else
        let b1 := b.judge piece copy good
        let c1 := counted.modRoller d (fun r => r.modHead (fun _ => b1))
        if b1.settled.length = 800 ∧ r.stopAt.isNone then c1.durable d b1 else c1

/-- The track and the dataset of a copy that awaits judgement; in the body its slot as well, in the trailer the place that it takes. -/
def DsBuf.copyPlace (b : DsBuf) (piece : Nat × Nat) (copy : Nat) : Option (Nat × Option Nat) :=
  if ¬ b.waiting.contains (piece, copy) then none
  else if copy = 0 then
    let x := piecePlace (max b.ds.tracks 1) piece.1 piece.2
    some (x.1, some x.2)
  else ((b.copies.filter (fun l => l.contains piece))[copy - 1]?).map (fun l => (l.idxOf piece, none))

/-- The dataset whose copy passes the read head. -/
def Roller.judges (r : Roller) (piece : Nat × Nat) (copy : Nat) : Option DsBuf :=
  match r.tail with
  | some b => if b.waiting.contains (piece, copy) then some b else r.head
  | none => r.head

/-- PIECE_JUDGE (R358–R361, R365): the frames of the copy's lane, from 16 cells before its place. GOOD is a copy that is found in its own
place, with a header that passes its CRC-8, no code violation, and at most two symbols for C1 to change. -/
def pieceJudgeEffect (d : Deck) (sd row copy : Nat) (frames : List W16) (ch : Chip) : Chip :=
  let k := ch.decks.get d
  match (k.roller.judges (sd, row) copy).bind (fun b => (b.copyPlace (sd, row) copy).map (fun x => (b, x))) with
  | none => ch
  | some (b, track, slot) =>
    if ¬ ch.domOn (engineUnit d 4) then ch
    else
      let n := max b.ds.tracks 1
      let lock := (k.strainer.tracks[track]?).getD Track.reset
      let passed : Passed := { track := track, slot := slot, frames := frames }
      let got := if k.strainer.aligned ∧ ¬ lock.dropped then passed.find n b.ds.number lock.locked else none
      let here := got.bind (fun p => match p.header with
        | some h => if h.sd = sd ∧ h.row = row ∧ h.rewrite = copy ∧ h.track = track then some p else none
        | none => none)
      let c1 := ch.modDeck d (fun k => { k with strainer := { k.strainer with
        dataset := b.ds.number.setWidth 32, notFound := if got.isSome then k.strainer.notFound else k.strainer.notFound + 1,
        codeViol := k.strainer.codeViol + BitVec.ofNat 32 ((got.map (fun p => codeViolations p.words)).getD 0) } })
      c1.judged d (sd, row) copy (here.any (fun p => verifyGood p.words))

/-! ### The trailer (R336, R367–R369) -/

/-- Elements each once, first places kept. -/
def eachOnce : List (Nat × Nat) → List (Nat × Nat)
  | [] => []
  | x :: xs => x :: (eachOnce xs).filter (· ≠ x)

/-- Trailer copies of a piece (R336). -/
def DsBuf.copiesOf (b : DsBuf) (x : Nat × Nat) : Nat := (b.copies.flatten.filter (· = x)).length

/-- The pieces not settled: first those whose copies are all judged BAD, in the order of the latest judgement, then those with an unjudged
copy, in the order written (R367). -/
def DsBuf.unsettled (b : DsBuf) : List (Nat × Nat) :=
  eachOnce (b.bad ++ (b.waiting.map (·.1)).filter (fun x => !b.settled.contains x))

/-- TRAILER_PLACE: the next place of the trailer starts (R367–R369). -/
def trailerPlaceEffect (d : Deck) (ch : Chip) : Chip :=
  match (ch.decks.get d).roller.head with
  | none => ch
  | some b =>
    let pieces := b.unsettled.take b.ds.tracks
    if pieces.isEmpty ∨ (ch.decks.get d).roller.stopAt.isSome then ch
    else if pieces.any (fun x => decide (8 ≤ b.copiesOf x)) ∨ 64 < b.trailer + pieces.length then ch.breakLimits d b
    else
      let re := (pieces.filter (fun x => b.everBad.contains x)).length
      ch.modRoller d (fun r => { r.modHead (fun b => { b with
          inTrailer := true, trailer := b.trailer + pieces.length, copies := b.copies ++ [pieces], rewrites := b.rewrites + re,
          bad := b.bad.filter (fun x => !pieces.contains x), waiting := b.waiting ++ pieces.map (fun x => (x, b.copiesOf x + 1)) }) with
        spoiled := [], rewrites := r.rewrites + BitVec.ofNat 32 re, precaution := r.precaution + BitVec.ofNat 32 (pieces.length - re) })

/-! ### The start of a dataset (R316, R350–R352) -/

/-- Length of a dataset place in crumbs, and BOP of a partition: the start of its first wrap (R314, R316, R446). -/
def Label.tds (l : Label) : Nat := l.cells (tdsCells l.tracks)
def wrapStart (p : Profile) (w : BitVec 6) : Int := if w.getLsbD 0 then mmCrumbs p (10 + p.wrapLength) else mmCrumbs p 10

/-- Dataset place i after BOP of partition q on tape: label slot i for i below 2, then the first data place (R316). -/
def Label.slotAt (l : Label) (p : Profile) (q : Nat) (i : Nat) : Int :=
  let w : BitVec 6 := BitVec.ofNat 6 (l.firstWrap q)
  onward w (wrapStart p w) (i * (l.tds + mmCrumbs p 2))

/-- Where the preamble of the next dataset starts: a label in the slot that its number's parity names, A for odd ones, since each rewrite
replaces the lower of two consecutive numbers (R340); dataset 0 at the first data place; another where the rules left it, or at the position. -/
def DeckAll.startOf (k : DeckAll) (p : Profile) (l : Label) (b : DsBuf) (now : W64) : Int :=
  match b.ds.kind with
  | .label => l.slotAt p b.ds.partition.toNat (if b.ds.number.getLsbD 0 then 0 else 1)
  | _ => if b.ds.number = 0 ∧ b.skips = 0 then l.slotAt p b.ds.partition.toNat 2 else k.roller.nextP0.getD (k.positionAt now)

/-- Crumbs of wrap w beyond place x in its direction (R446). -/
def leftFrom (p : Profile) (w : BitVec 6) (x : Int) : Nat :=
  (if w.getLsbD 0 then x - mmCrumbs p 10 else (mmCrumbs p (10 + p.wrapLength) : Int) - x).toNat

/-- Room for a whole dataset before the end of the wrap (R316, R388); labels have slots of their own. -/
def Dataset.fits (ds : Dataset) (p : Profile) (l : Label) (w : BitVec 6) (x : Int) : Bool :=
  decide (ds.kind = .label) || decide (l.tds ≤ leftFrom p w x)

/-- The partition ends before its objects are written (R210, ending 2): they stay staged, until an UNLOAD discards them or the lock ends;
PARTITION_END goes out (R146). An operation that Roller was writing for fails (R202, R217, R218). -/
def Chip.partitionEnds (ch : Chip) (d : Deck) : Chip :=
  let k := ch.decks.get d
  let c1 := (ch.postDeck d Ev.partitionEnd (engineUnit d 2) (k.tape.partition.setWidth 32)).haltEngines d
  let stopped (c : Chip) : Chip := if (c.decks.get d).seq.state = .streaming then c.ask d .stop else c
  if k.seq.op.any (fun o => decide (o.op = .unload) && o.flushing) ∧ 0 < c1.stagedObjects d then (c1.discardStaged d).flushStep d
  else stopped (c1.failWrite d Stat.endOfTape Stat.writeFailed)

/-- At a dataset boundary a waiting policy takes effect (R195), and a dataset that left staging posts its boundary entry (R380). -/
def DeckAll.boundary (ds : Dataset) (k : DeckAll) : DeckAll :=
  let k1 := k.adoptPolicy
  if ds.kind = .data then { k1 with matcher := { k1.matcher with fills := k1.matcher.fills ++ [k1.roller.fill] } } else k1

/-- DATASET_START: Roller starts the preamble of the next closed dataset (R350, R351, R316, R202, R208, R380). -/
def datasetStartEffect (d : Deck) (ch : Chip) : Chip :=
  let k := ch.decks.get d
  match k.roller.buffers, k.profile, k.tape.label with
  | b :: _, some p, some l =>
    let w := k.wrapFor b.ds
    let x := k.startOf p l b ch.now
    if b.started ∨ k.seq.state ≠ .streaming ∨ ¬ k.onCourse w ∨ k.roller.eodFailed ∨ k.roller.stopAt.isSome ∨ ¬ ch.domOn (engineUnit d 2) then ch
    else if ¬ b.ds.fits p l w x then
      (if l.lastWrap b.ds.partition.toNat w.toNat then ch.partitionEnds d else ch)
    else
      let past := decide (b.ds.kind = .data) && k.pastEw p l
      let c1 := ch.modDeck d (fun k => DeckAll.boundary b.ds { k with
        tape := { (if b.ds.partition = k.tape.partition ∨ b.ds.kind = .label then k.tape else k.tape.enter b.ds.partition w) with
          marker := k.tape.marker || decide (b.ds.kind = .data),
          beyondEw := if b.ds.kind = .data then past else k.tape.beyondEw, ewPosted := if b.ds.kind = .data then past else k.tape.ewPosted,
          incomplete := if b.ds.kind = .label then k.tape.incomplete else k.tape.incomplete.setIfInBounds b.ds.partition.toNat false },
        roller := { k.roller with
          gate := true, skipping := false, boundary := 0, lastCell := ch.now, spoiled := [], eraseFrom := none,
          nextP0 := if b.ds.kind = .label then k.roller.nextP0 else none,
          buffers := { b with started := true, p0 := x, ds := { b.ds with wrap := w } } :: k.roller.buffers.drop 1 },
        strainer := { k.strainer with dataset := b.ds.number.setWidth 32 },
        matcher := { k.matcher with underrun := false } })
      if past ∧ ¬ k.tape.ewPosted then c1.postDeck d Ev.earlyWarning (engineUnit d 2) (w.setWidth 32) else c1
  | _, _, _ => ch

/-! ### Cells (R350–R357) -/

/-- Cells of the burst at boundary m: bit t is the cell of track t (Table 14-1, R334, R336). -/
def DsBuf.burst (b : DsBuf) (m : Nat) : W16 :=
  let n := max b.ds.tracks 1
  let body := bodyCells n
  let cell (t : Nat) : Bool :=
    if n ≤ t then false
    else if m < body then bodyCell b.ds t m
    else
      let place := (m - body) / 2232
      match (b.copies[place]?).bind (fun (l : List (Nat × Nat)) => l[t]?) with
      | some (sd, r) =>
        let count := ((b.copies.take (place + 1)).flatten.filter (· = (sd, r))).length
        ((pieceCells (pieceHeader b.ds.number sd count r t) (pieceBytes b.ds.payload sd r))[(m - body) % 2232]?).getD false
      | none => eraseCell m
  BitVec.ofNat 16 (((List.range 16).map (fun t => if cell t then 2 ^ t else 0)).foldl (· + ·) 0)

/-- The copies a late frame at boundary m spoils: that of every track, when the boundary lies in a body slot or a trailer place (R356). -/
def DsBuf.spoils (b : DsBuf) (m : Nat) : List ((Nat × Nat) × Nat) :=
  let n := max b.ds.tracks 1
  let body := bodyCells n
  if 360 ≤ m ∧ m < 360 + 800 / n * 2232 then (List.range n).map (fun t => (slotPiece n t ((m - 360) / 2232), 0))
  else if body ≤ m then
    ((b.copies[(m - body) / 2232]?).getD []).map (fun x => (x, ((b.copies.take ((m - body) / 2232 + 1)).flatten.filter (· = x)).length))
  else []

/-- The erase pattern's cells at boundary m on n tracks (Table 13-7). -/
def eraseBurst (n m : Nat) : W16 := if eraseCell m then BitVec.ofNat 16 (2 ^ n - 1) else 0

/-- The instant of the next boundary: predicted from the position for a dataset's cells (R350); in an erase stretch, and while the
position is not interpolated, the present one. -/
def DeckAll.cellInstant (k : DeckAll) (now : W64) : W64 :=
  match k.roller.outgoing, k.tape.label with
  | some b, some l => (k.reaches (b.cellAt l k.roller.boundary)).getD now
  | _, _ => now

/-- A burst went out at an instant; the last one of a piece at which writing has to stop turns the gate off (R357). -/
def Chip.burstOut (ch : Chip) (d : Deck) (wl : W16) (at_ : W64) : Chip :=
  let c1 := ch.modRoller d (fun r => { r with wl := wl, boundary := r.boundary + 1, lastCell := at_ })
  if (c1.decks.get d).roller.stopAt.any (fun e => decide (e ≤ (c1.decks.get d).roller.boundary)) then c1.gateOff d else c1

/-- A late frame (R356): the erase pattern goes out, and the piece is judged BAD at once on every track; the overrun counts at
Roller's site too (R42). Between datasets, with the gate on, no piece is spoiled. -/
def Chip.lateFrame (ch : Chip) (d : Deck) (at_ : W64) : Chip :=
  let r := (ch.decks.get d).roller
  let hit := ((r.outgoing.map (fun b => b.spoils r.boundary)).getD []).filter (fun x => !r.spoiled.contains x.1)
  let c1 := (ch.modRoller d (fun r => { r with overrun := r.overrun + 1, spoiled := r.spoiled ++ hit.map (·.1) })).overrun (engineUnit d 2)
  (hit.foldl (fun c x => c.judged d x.1 x.2 false) c1).burstOut d (eraseBurst (ch.decks.get d).tape.tracks r.boundary) at_

/-- A frame whose cells are not ready (LATE_FRAME): its burst keeps the instant of R350, or stands 31.25 ns, 500 pinches, after the last
boundary (R355, R356). -/
def lateFrameEffect (d : Deck) (ch : Chip) : Chip :=
  let k := ch.decks.get d
  if ¬ k.roller.gate then ch
  else
    let at_ := k.cellInstant ch.now
    ch.lateFrame d (if k.roller.boundary ≠ 0 ∧ (at_ - k.roller.lastCell).toInt < 500 then k.roller.lastCell + 500 else at_)

/-- The erase pattern of a long erase runs on to the end of the last wrap (R342). -/
def DeckAll.longErase (k : DeckAll) : Bool := match k.seq.op with
  | some o => decide (o.op = .eraseFromHere) && o.moving && o.long
  | none => false

/-- The gate goes on with the erase pattern ahead of a splice, once four edges have arrived in the direction of the wrap and the position
has passed E (R387, step 7), and in the long erase that goes on (R342). -/
def DeckAll.gateDue (k : DeckAll) (t : W64) : Bool :=
  let w := k.tape.wrap
  decide (k.seq.state = .streaming) && k.onCourse w && k.roller.stopAt.isNone && !k.roller.eodFailed &&
  (match k.roller.eraseFrom with
   | some e => !k.roller.buffers.isEmpty && (if w.getLsbD 0 then decide (k.positionAt t < e) else decide (e < k.positionAt t))
   | none => k.longErase && k.orders.isEmpty && k.roller.buffers.isEmpty)

/-- CELL_BOUNDARY: the burst of the next boundary goes out; one less than 31.25 ns, 500 pinches, after the last is a late frame (R350,
R354, R355). Between datasets, with the gate on, the burst carries the erase pattern (R334). A position that is no longer interpolated
ends the writing (R357). -/
def cellBoundaryEffect (d : Deck) (ch : Chip) : Chip :=
  let k := ch.decks.get d
  let r := k.roller
  if ¬ ch.domOn (engineUnit d 2) then ch
  else if ¬ r.gate then
    (if k.gateDue ch.now then
       (ch.modRoller d (fun r => { r with gate := true, boundary := 0 })).burstOut d (eraseBurst k.tape.tracks 0) ch.now
     else ch)
  else if ¬ k.interpolated ∧ r.stopAt.isNone then
    let c1 := ch.haltEngines d
    if (c1.decks.get d).seq.state = .streaming then c1.ask d .stop else c1
  else
    let at_ := k.cellInstant ch.now
    if r.boundary ≠ 0 ∧ (at_ - r.lastCell).toInt < 500 then ch.lateFrame d (r.lastCell + 500)
    else ch.burstOut d (match r.outgoing with
      | some b => b.burst r.boundary
      | none => eraseBurst k.tape.tracks r.boundary) at_

/-- ROL_CTRL.clear_counts (R376). -/
def rolClearCountsEffect (d : Deck) (ch : Chip) : Chip :=
  ch.modRoller d (fun r => { r with datasets := 0, rewrites := 0, precaution := 0, skips := 0, failed := 0, overrun := 0 })

/-- ROL_POS_LO read: latches bits [63:32] of the tape position (R376), with the time at which it holds (R25). While Roller's domain is
off the mirror answers. -/
def rolPosLoReadEffect (d : Deck) (ch : Chip) : Chip :=
  if ch.domOn (50 + 6 * d.val) then
    let x : W64 := BitVec.ofInt 64 ((ch.decks.get d).positionAt ch.now)
    ch.modRoller d (fun r => { r with posLatch := x.extractLsb' 32 32, posTime := ch.now })
  else ch

/-! ### The commands -/

/-- DATASET_START (R350, R351). -/
def execDatasetStart (d : Deck) (fine : BitVec 11) (s : State) : Host.Outcome State Fault Refusal := s.onChipAt fine (datasetStartEffect d)
/-- LATE_FRAME (R356). -/
def execLateFrame (d : Deck) (fine : BitVec 11) (s : State) : Host.Outcome State Fault Refusal := s.onChipAt fine (lateFrameEffect d)
/-- CELL_BOUNDARY (R350). -/
def execCellBoundary (d : Deck) (fine : BitVec 11) (s : State) : Host.Outcome State Fault Refusal := s.onChipAt fine (cellBoundaryEffect d)
/-- PIECE_JUDGE (R365). -/
def execPieceJudge (d : Deck) (sd row copy : Nat) (frames : List W16) (s : State) : Host.Outcome State Fault Refusal :=
  s.onChip (pieceJudgeEffect d sd row copy frames)
/-- TRAILER_PLACE (R367). -/
def execTrailerPlace (d : Deck) (s : State) : Host.Outcome State Fault Refusal := s.onChip (trailerPlaceEffect d)
/-- ROL_CLEAR_COUNTS (R376). -/
def execRolClearCounts (d : Deck) (s : State) : Host.Outcome State Fault Refusal := s.onRegister (rolClearCountsEffect d)
/-- ROL_POS_LO_READ (R376). -/
def execRolPosLoRead (d : Deck) (s : State) : Host.Outcome State Fault Refusal := s.onRegister (rolPosLoReadEffect d)

end Sys2Proof.Machine
end

