-- ==== Sys2Proof/Machine/DeckSteps.lean ====
section
/-! DEFINITION. The deck sequences step by step: LOAD, HOME, UNLOAD, controlled stops, wrap turns and their faults (18: R446–R458;
17: R434–R436; 13: R343–R345). -/

namespace Sys2Proof.Machine

/-! ### LOAD and HOME: the steps' targets (Table 18-2, Table 18-3, Table 17-5) -/

/-- CALIBRATE begins: forward at speed_min, toward the marker (Table 18-3). -/
def Chip.beginCalibrate (ch : Chip) (d : Deck) (p : Profile) : Chip :=
  (ch.drive d (fun q => { q with
    capSpeed := p.speedMin, reverse := false, stage := 0, rhoSup := none, rhoTku := none, marks := (ch.decks.get d).io.counts, zeroed := false,
    posTarget := wrapTarget p 0 0, posRamp := approachRamp p })).setDeckState d .calibrate

/-- The loops stop and the deck rests in EMPTY, PRESENT or another state without tape. -/
def Chip.restIn (ch : Chip) (d : Deck) (st : DeckState) : Chip :=
  ((ch.haltLoops d).endStops d Stat.done).setDeckState d st

/-- HOME_STEP_END (R434, R436, R453): `pos` is the raw position. -/
def homeStepEndEffect (d : Deck) (pos : Int) (ch : Chip) : Chip :=
  let k := ch.decks.get d
  match k.profile, k.seq.op with
  | some p, some o =>
    let h := k.io.home
    if k.seq.state ≠ .homing then ch
    else if (h.step = 1 ∨ h.step = 2) ∧ travelLimit p < (pos - h.fromPos).natAbs then ch.faultStop d Cause.homeFailed false false
    else if h.step = 1 ∧ ¬ k.io.posLo.active then ch.approach d p pos
    else if h.step = 4 ∧ ¬ k.io.posLo.active then ch.reapproach d p
    else if h.step = 7 then
      let c1 := ch.modIo d (fun io => { io with home := { io.home with step := 0, homed := true } })
      if o.op = .home then
        let c2 := c1.endOp d Stat.done (leBytes 8 h.latch2At.toNat)
        if k.seq.base = .ready then
          (c2.drive d (fun q => { q with posTarget := wrapTarget p k.tape.wrap.toNat 0, posRamp := approachRamp p })).setDeckState d .ready
        else c2.restIn d k.seq.base
      else c1.beginCalibrate d p
    else ch
  | _, _ => ch

/-! ### SCAN: the label in force and recovery (R343–R345) -/

/-- A label dataset's record; none when it is not a valid label (R339, R343). -/
def labelOf (ds : Option Dataset) : Option Label :=
  ds.bind (fun x => if x.kind = .label then parseLabel x.user else none)

/-- The label in force: the valid one of the higher seq (R340). -/
def inForce (a b : Option Label) : Option Label :=
  match a, b with
  | some x, some y => if x.seq.toNat < y.seq.toNat then some y else some x
  | some x, none => some x
  | none, y => y

/-- The structure of a label in force holds together (Table 13-10); otherwise LOAD ends MEDIA, FORMAT_ERROR. -/
def Label.structureOk (l : Label) : Bool :=
  [1, 2, 4, 8, 16].contains l.tracks && decide (1 ≤ l.partitions) && decide (l.partitions ≤ 4) &&
  (List.range 4).all (fun i => if i < l.partitions then decide (1 ≤ (l.wraps[i]?).getD 0) else decide ((l.wraps[i]?).getD 0 = 0))

/-- Media as R343 reports it. -/
def mediaOf (p : Profile) (signal : Bool) (l : Option Label) : Media :=
  match l with
  | some x => if p.maxTracks < x.tracks ∨ x.cellLength < p.cellMin ∨ p.cellMax < x.cellLength then .unreadable else .krf
  | none => if signal then .unreadable else .blank

/-- The recovery of one partition: the number expected, the object after the last accepted dataset, its wrap, whether a candidate
stands, and whether the scan has ended (R344). -/
structure Recovery where
  expected  : W64
  object    : W64
  wrap      : BitVec 6
  candidate : Bool
  ended     : Bool
  deriving DecidableEq, Repr

/-- One dataset that the scan meets (R344, rules 1 to 4). -/
def Recovery.meet (r : Recovery) (gen : W32) (ds : Dataset) (complete : Bool) : Recovery :=
  if r.ended then r
  else if ds.kind = .data ∧ ds.number = r.expected ∧ ds.gen = gen then
    if complete then { r with expected := r.expected + 1, object := ds.after, wrap := ds.wrap, candidate := false }
    else { r with candidate := true }
  else { r with ended := true }

/-- R344 over what a partition's scan reads from the hint on. -/
def recoverPartition (m : MapEntry) (found : List (Dataset × Bool)) : Recovery :=
  found.foldl (fun (r : Recovery) (x : Dataset × Bool) => r.meet m.gen x.1 x.2)
    { expected := m.dataset, object := m.object, wrap := m.wrap, candidate := false, ended := false }

/-- Where each partition's data ends: the map's word when the label is clean, recovery when it is open. -/
def Label.ends (l : Label) (parts : List (List (Dataset × Bool))) (q : Fin 4) : Recovery :=
  let m := (l.map[q.val]?).getD { dataset := 0, object := 0, gen := 0, wrap := 0 }
  if l.isOpen then recoverPartition m ((parts[q.val]?).getD [])
  else { expected := m.dataset, object := m.object, wrap := m.wrap, candidate := false, ended := true }

/-- The tape as LOAD leaves it, at BOP of partition 0, or at the EOD of the partition being written when objects are staged
(R345, R451). -/
def TapeInfo.scanned (t : TapeInfo) (m : Media) (lab : Option Label) (parts : List (List (Dataset × Bool))) (staged : Bool) : TapeInfo :=
  match m, lab with
  | .krf, some l =>
    let e (q : Fin 4) : Recovery := l.ends parts q
    let t1 : TapeInfo := { t with
      media := some m, label := some l, lflag := ([0, 1, 2, 3] : List (Fin 4)).any (fun q => (e q).candidate),
      eodDs := Vector.ofFn (fun q => (e q).expected), eodObj := Vector.ofFn (fun q => (e q).object),
      eodWrap := Vector.ofFn (fun q => (e q).wrap), incomplete := Vector.ofFn (fun q => (e q).candidate),
      gen := Vector.ofFn (fun (q : Fin 4) => ((l.map[q.val]?).map (fun x => x.gen)).getD 0),
      ewPosted := false, beyondEw := false, marker := false, tickets := 0, durDs := none, ds := none, ahead := .unknown }
    let t2 := if staged then t1.toEod t.partition else t1.toBop 0
    { t2 with durObj := t2.eodObject }
  | _, _ =>
    TapeInfo.toBop { t with
      media := some m, label := none, lflag := false, eodDs := Vector.replicate 4 0, eodObj := Vector.replicate 4 0,
      incomplete := Vector.replicate 4 false, ewPosted := false, beyondEw := false, marker := false, tickets := 0, durDs := none,
      durObj := 0, ds := none, ahead := .unknown } 0

/-- LOAD's reply (Table 7-6). -/
def TapeInfo.loadReply (t : TapeInfo) : List Byte :=
  let code : Nat := match t.media with
    | some .blank | none => 0
    | some .krf => 1
    | some .unreadable => 2
  match t.media, t.label with
  | some .krf, some l =>
    [BitVec.ofNat 8 code, BitVec.ofNat 8 l.tracks, BitVec.ofNat 8 (l.wraps.foldl (· + ·) 0), BitVec.ofNat 8 l.partitions,
     BitVec.ofNat 8 (bit t.lflag), 0, 0, 0]
  | _, _ => [BitVec.ofNat 8 code, 0, 0, 0, 0, 0, 0, 0]

/-- The matcher after a LOAD (R379, R381, R389). -/
def DeckAll.afterLoad (k : DeckAll) (p : Profile) : DeckAll :=
  let l := k.tape.label
  let b := match l with
    | some l => speedBounds k.matcher.policy p l.tracks l.cellLength
    | none => (0, 0)
  { k with
    matcher := { k.matcher with lo := b.1, hi := b.2, target := 0, lastEvent := none, runOut := none, underrun := false, restAt := none, fills := [],
                                stored := 0, stallOn := false },
    roller := { k.roller with eodFailed := false, next := k.tape.eodDataset, tail := none, nextP0 := none, eraseFrom := none, cellLen := match l with
      | some l => l.cellLength
      | none => 0 },
    seq := { k.seq with cause := 0, loadReply := k.tape.loadReply, capSpeed := 0, reverse := k.tape.wrap.getLsbD 0,
                        posTarget := wrapTarget p k.tape.wrap.toNat 0 } }

/-- An object of staging moved on by `n` numbers. -/
def Staged.moveOn (s : Staged) (n : W64) : Staged := match s with
  | .stored r => .stored { r with object := r.object + n }
  | .marks i x c du tag rc => .marks i (x + n) c du tag rc

/-- The first of the objects that wait to be written. -/
def Chip.firstStaged (ch : Chip) (d : Deck) : Option W64 :=
  let k := ch.decks.get d
  match k.staged, k.lock.owner with
  | s :: _, _ => some s.object
  | [], some i => ((ch.waitingRecs i d).head?).map (fun r => r.object)
  | [], none => none

/-- The objects that are still staged take the numbers from `x` on, in their order; the open ticket's record and the position follow
them (log entry 84). -/
def Chip.renumberStaged (ch : Chip) (d : Deck) (x : W64) : Chip :=
  match ch.firstStaged d with
  | none => ch
  | some a =>
    let n := x - a
    let after := x + BitVec.ofNat 64 (ch.stagedObjects d)
    let move (r : Rec) : Rec := { r with object := r.object + n }
    let c1 := ch.modDeck d (fun k => { k with
      staged := k.staged.map (fun s => s.moveOn n), poisoned := k.poisoned.map (fun y => { y with object := y.object + n }),
      tape := { k.tape with object := after } })
    let c2 := match (ch.decks.get d).lock.owner with
      | none => c1
      | some i =>
        { c1 with held := c1.held.map (fun (y : Nat × HeldEntry) => match y.2 with
            | .wdata r reply => if y.1 = wdataQueue i d then (y.1, .wdata (move r) reply) else y
            | .rdata _ => y) }.modCtx i (fun c => { c with wdata := c.wdata.set d ((c.wdata.get d).map move) })
    c2.renumberTicket d after

/-- SCAN ends at rest: the tape is known, its events go out, and LOAD completes, or UNLOAD goes on (R343–R345, R449, R451, R456). -/
def Chip.scanEnds (ch : Chip) (d : Deck) (p : Profile) (f : ScanFound) : Chip :=
  let lab := inForce (labelOf f.labelA) (labelOf f.labelB)
  let m := mediaOf p f.signal lab
  let broken := decide (m = .krf) && (match lab with
    | some l => !l.structureOk
    | none => false)
  let m1 := if broken then Media.unreadable else m
  let c0 := ch.modDeck d (fun k =>
    ({ k with tape := k.tape.scanned m1 lab f.parts (decide (0 < ch.stagedObjects d)) }).afterLoad p)
  let c1 := if m1 = .krf then c0.renumberStaged d (c0.decks.get d).tape.eodObject else c0
  let t := (c0.decks.get d).tape
  let c2 := if m1 = .blank then c1.postDeck d Ev.tapeBlank (servoUnit d) 0 else c1
  let c3 := ([0, 1, 2, 3] : List (Fin 4)).foldl (fun c q =>
    if t.incomplete.get q then c.postDeck d Ev.incompleteFound (servoUnit d) ((t.eodDs.get q).setWidth 32) else c) c2
  let c4 := (c3.modDeck d DeckAll.retarget).setDeckState d .ready
  if (c4.decks.get d).seq.unloadAfter then (c4.modOp d (fun o => { o with flushing := true })).flushStep d
  else if broken then c4.endOp d Stat.formatError []
  else c4.endOp d Stat.done t.loadReply

/-- A LOAD, or an UNLOAD that loads first, runs. -/
def DeckAll.loading (k : DeckAll) : Bool := match k.seq.op with
  | some o => decide (o.op = .load ∨ o.op = .unload)
  | none => false

/-- LOAD_STEP_END (Table 18-3). -/
def loadStepEndEffect (d : Deck) (f : ScanFound) (ch : Chip) : Chip :=
  let k := ch.decks.get d
  match k.profile with
  | none => ch
  | some p =>
    if ¬ k.loading then ch
    else match k.seq.state with
      | .thread => (ch.drive d (fun q => { q with tension := p.tensionSet })).setDeckState d .tensionUp
      | .tensionUp => ch.beginHoming d p
      | .calibrate =>
        if k.seq.zeroed ∧ k.seq.rhoSup.isSome ∧ k.seq.rhoTku.isSome then
          (ch.drive d (fun q => { q with capSpeed := p.speedMin, reverse := false, stage := 0 })).setDeckState d .scan
        else ch
      | .scan => ch.scanEnds d p f
      | _ => ch

/-! ### Faults of a sequence (Table 18-3, R450, R458) -/

/-- STEP_TIMEOUT (R449, R436, R458). -/
def stepTimeoutEffect (d : Deck) (ch : Chip) : Chip :=
  match (ch.decks.get d).seq.state with
  | .thread | .homing | .calibrate | .unloading => ch.faultStop d Cause.timeout false false
  | .tensionUp => ch.faultStop d Cause.tension false false
  | _ => ch

/-- TENSION_FAULT (R450): from TENSION_UP to UNLOADING, a HOME begun without tape apart. -/
def tensionFaultEffect (d : Deck) (ch : Chip) : Chip :=
  let k := ch.decks.get d
  match k.seq.state with
  | .tensionUp | .calibrate | .scan | .ready | .streaming | .stopping | .unloading => ch.faultStop d Cause.tension false false
  | .homing => if k.withTape then ch.faultStop d Cause.tension false false else ch
  | _ => ch

/-! ### Controlled stops and unloading (R452, R453, R458) -/

/-- What UNLOAD leaves: no tape, no home, no auto-tune results (R435, R193). -/
def DeckAll.unloaded (k : DeckAll) : DeckAll :=
  { k with
    tape := { TapeInfo.reset with tickets := k.tape.tickets },
    io := { k.io with home := { k.io.home with homed := false, offset := 0, step := 0 } },
    roller := { k.roller with cellLen := 0 },
    loops := { k.loops with slots := k.loops.slots.map (fun s => { s with tune := Tune.reset }) } }

/-- The unload ends in PRESENT; the declaration ends, and its standing buffer returns (R458, R489). -/
def Chip.finishUnload (ch : Chip) (d : Deck) : Chip :=
  (((ch.endDeclaration d).modDeck d DeckAll.unloaded).restIn d .present).endOp d Stat.done []

/-- A sequence stopped before tape was loaded comes to rest without its home (Table 18-4, R453). -/
def Chip.abandonLoad (ch : Chip) (d : Deck) (st : DeckState) : Chip :=
  (ch.modDeck d (fun k => { k with
    tape := { k.tape with media := none, label := none, marker := false }, io := { k.io with home := { k.io.home with homed := false, offset := 0, step := 0 } } })).restIn d st

/-- The tape backs up by the profile's backhitch (R387, R383). -/
def Chip.backhitch (ch : Chip) (d : Deck) : Chip :=
  match (ch.decks.get d).profile with
  | some p => ch.postDeck d Ev.backhitch (servoUnit d) (BitVec.ofNat 32 p.backhitch)
  | none => ch

/-- STOP_COMPLETE (R452, Table 18-4): the deck is at rest. After an underrun the gate goes off and the tape is backed up (R387), and so it is
under an operation that waits for a read buffer (R383). REWIND ends here too (R216). -/
def stopCompleteEffect (d : Deck) (ch : Chip) : Chip :=
  let k := ch.decks.get d
  let ready (c : Chip) : Chip := ((c.drive d (fun q => { q with capSpeed := 0, stage := 0 })).setDeckState d .ready).endStops d Stat.done
  match k.seq.state, k.seq.op with
  | .stopping, _ =>
    let c1 := (ch.gateOff d).modDeck d (fun k => { k with
      roller := { k.roller with gate := false, wl := 0 }, matcher := { k.matcher with restAt := none, stored := 0, underrun := false } })
    (((ready (if k.matcher.underrun then c1.backhitch d else c1)).structureWritten d).flushStep d).drainStep d
  | .streaming, some o =>
    if o.op = .rewind ∧ o.moving then
      ready (((ch.setDeckState d .stopping).modTape d (fun t => t.toBop 0)).endOp d Stat.done [])
    else if o.moving ∧ k.strainer.stalled ∧ k.seq.capSpeed = 0 then ch.backhitch d
    else ch
  | .thread, none | .tensionUp, none | .calibrate, none | .scan, none => ch.abandonLoad d .present
  | .homing, none =>
    match k.seq.base with
    | .ready => ready (ch.modDeck d DeckAll.loseHome)
    | .empty => ch.abandonLoad d .empty
    | _ => ch.abandonLoad d .present
  | .unloading, none => if k.seq.stage = 5 then ch.finishUnload d else ready ch
  | _, _ => ch

/-- UNLOAD_STEP_END (R458): 1 the positioner, 2 the rewind at hi, 3 to the marker, 4 a further 50 mm, 5 the tension ramp. -/
def unloadStepEndEffect (d : Deck) (ch : Chip) : Chip :=
  let k := ch.decks.get d
  match k.profile with
  | none => ch
  | some p =>
    if k.seq.state ≠ .unloading ∨ ¬ k.loading then ch
    else match k.seq.stage with
      | 1 => ch.drive d (fun q => { q with stage := 2, reverse := true, capSpeed := k.readSpeed })
      | 2 => ch.drive d (fun q => { q with stage := 3, capSpeed := p.speedMin })
      | 3 => ch.drive d (fun q => { q with stage := 4 })
      | 4 => ch.drive d (fun q => { q with stage := 5, capSpeed := 0, tension := 0 })
      | 5 => ch.finishUnload d
      | _ => ch

/-- WRAP_TURN (R447, R316): the next wrap of the partition, in the other direction, with the gate off and the
capstan speeding up again; a dataset that follows starts at the start of the wrap. At the end of the last one a long erase is over, at the EOD that it wrote (R217, R342), and nothing turns. -/
def wrapTurnEffect (d : Deck) (ch : Chip) : Chip :=
  let k := ch.decks.get d
  match k.profile, k.tape.label with
  | some p, some l =>
    if k.seq.state ≠ .streaming then ch
    else if l.lastWrap k.tape.partition.toNat k.tape.wrap.toNat then
      if k.longErase ∧ ch.writeIdle d then
        ((ch.modDeck d (fun k => { k with roller := { k.roller with gate := false, wl := 0, tail := none } })).modTape d (fun t =>
          t.toEod t.partition)).finish d Stat.done []
      else ch
    else
      let w := k.tape.wrap + 1
      let reads := k.seq.op.any (fun o => o.moving && !decide (o.op = .eraseFromHere ∨ o.op = .formatTape))
      let v := if reads then k.readSpeed else speedOf p k.matcher.target
      (((ch.modDeck d (fun k => { k with
        tape := { k.tape with wrap := w, beyondEw := false },
        roller := { k.roller with gate := false, wl := 0, tail := none, eraseFrom := none, nextP0 := if reads then none else some (wrapStart p w) } })).aimAt d
          w).drive d (fun q => { q with capSpeed := v })).postDeck d Ev.wrapTurn (servoUnit d) (w.setWidth 32)
  | _, _ => ch

/-! ### The commands -/

/-- LOAD_STEP_END (R449). -/
def execLoadStepEnd (d : Deck) (found : ScanFound) (s : State) : Host.Outcome State Fault Refusal := s.onChip (loadStepEndEffect d found)
/-- HOME_STEP_END (R434). -/
def execHomeStepEnd (d : Deck) (position : Int) (s : State) : Host.Outcome State Fault Refusal := s.onChip (homeStepEndEffect d position)
/-- STEP_TIMEOUT (R449). -/
def execStepTimeout (d : Deck) (s : State) : Host.Outcome State Fault Refusal := s.onChip (stepTimeoutEffect d)
/-- TENSION_FAULT (R450). -/
def execTensionFault (d : Deck) (s : State) : Host.Outcome State Fault Refusal := s.onChip (tensionFaultEffect d)
/-- STOP_COMPLETE (R452). -/
def execStopComplete (d : Deck) (s : State) : Host.Outcome State Fault Refusal := s.onChip (stopCompleteEffect d)
/-- UNLOAD_STEP_END (R458). -/
def execUnloadStepEnd (d : Deck) (s : State) : Host.Outcome State Fault Refusal := s.onChip (unloadStepEndEffect d)
/-- WRAP_TURN (R447). -/
def execWrapTurn (d : Deck) (s : State) : Host.Outcome State Fault Refusal := s.onChip (wrapTurnEffect d)

end Sys2Proof.Machine
end

