-- ==== Sys2Proof/Machine/Speed.lean ====
section
/-! DEFINITION. The speed matcher, stops and restarts of a writing deck, and the two work queues that join the planes
(15: R380–R390; 01: R20, R21; 06: Table 6-3). -/

namespace Sys2Proof.Machine

def Chip.modMatcher (ch : Chip) (d : Deck) (f : Matcher → Matcher) : Chip := ch.modDeck d (fun k => { k with matcher := f k.matcher })

/-! ### Posting targets (R380, R381) -/

/-- Whether a posted target goes out in SPEED_CHANGED (R381). -/
def Matcher.announces (m : Matcher) (s : Nat) : Bool :=
  match m.lastEvent with
  | none => true
  | some x => decide (100 ≤ max s x - min s x) || (decide (s = m.lo ∨ s = m.hi) && decide (s ≠ x))

/-- The matcher posts a target to the deck work queue. -/
def Chip.postTarget (ch : Chip) (d : Deck) (s : Nat) : Chip :=
  match (ch.decks.get d).profile with
  | none => ch
  | some p =>
    let m := (ch.decks.get d).matcher
    let c1 := (ch.modMatcher d (fun m => { m with target := s, lastEvent := if m.announces s then some s else m.lastEvent })).ask d (.speed (speedOf p s))
    if m.announces s then c1.postDeck d Ev.speedChanged (engineUnit d 2) (BitVec.ofNat 32 s) else c1

/-- SPEED_RETARGET (R380, R390): the matcher takes the oldest boundary entry, when its domain is on (R23). A run-out begins anew from the
new target (R386). -/
def speedRetargetEffect (d : Deck) (ch : Chip) : Chip :=
  let m := (ch.decks.get d).matcher
  match m.fills with
  | [] => ch
  | f :: rest =>
    if ¬ ch.domOn (engineUnit d 2) then ch
    else
      let c1 := ch.modMatcher d (fun m => { m with fills := rest, runOut := none })
      if m.policy.fixed then c1.postTarget d m.policy.fixedAt else c1.postTarget d (retargetLaw m.lo m.hi (m.runOut.getD m.target) f)

/-! ### Stall, run-out, underrun (R384–R388) -/

/-- STALL_TIMEOUT (R385). -/
def stallTimeoutEffect (d : Deck) (ch : Chip) : Chip :=
  if (ch.decks.get d).matcher.stallOn then ch.paddedClose d else ch

/-- Crumbs from the tape position to the end of the dataset's postamble (R386). -/
def DeckAll.toPostamble (k : DeckAll) (b : DsBuf) (l : Label) (t : W64) : Int :=
  let e := b.cellAt l (c0Cells l.tracks)
  if b.ds.wrap.getLsbD 0 then k.positionAt t - e else e - k.positionAt t

/-- RUN_OUT_BRAKE (R386): running out above v_b, and the braking distance reached. -/
def runOutBrakeEffect (d : Deck) (ch : Chip) : Chip :=
  let k := ch.decks.get d
  match k.roller.buffers, k.profile, k.tape.label with
  | [b], some p, some l =>
    let v := speedOf p k.matcher.target
    let vb := runOutSpeed p
    let x := k.toPostamble b l ch.now
    if b.started ∧ k.matcher.runOut = none ∧ vb < v ∧ x * (p.linePitch * 2 * p.accel : Nat) ≤ ((v * v - vb * vb) * crumbDen : Nat) then
      (ch.modMatcher d (fun m => { m with runOut := some m.target, target := vb * 10000 / p.speedMax })).ask d (.speed vb)
    else ch
  | _, _, _ => ch

/-- Where the written part of the tape ends: E of R387. -/
def DeckAll.writtenTo (k : DeckAll) (t : W64) : Int :=
  match k.roller.tail, k.tape.label with
  | some b, some l => b.endAt l
  | _, _ => k.positionAt t

/-- UNDERRUN (R387): Roller ends a dataset and no closed one waits. The next one starts at S, 2 mm on; one that replaces an end-of-data
marker keeps that marker's place (R341), and what follows a label its own. -/
def underrunEffect (d : Deck) (ch : Chip) : Chip :=
  let k := ch.decks.get d
  if k.roller.gate ∧ k.roller.buffers.isEmpty ∧ k.roller.stopAt.isNone ∧ ¬ k.matcher.underrun ∧ k.seq.state = .streaming ∧ ¬ k.longErase ∧ ch.domOn (engineUnit d 2) then
    let e := k.writtenTo ch.now
    let splice := match k.profile with
      | some p => some (onward k.tape.wrap e (mmCrumbs p 2))
      | none => none
    (ch.modDeck d (fun k => { k with
      matcher := { k.matcher with underrun := true, runOut := none },
      roller := { k.roller with
        eraseFrom := some e,
        nextP0 := if k.roller.tail.all (fun b => b.ds.kind = .data) then splice else k.roller.nextP0 } })).ask d .stop
  else ch

/-- DECK_RESTART (R389, R390): a closed dataset waits, and the deck is at rest or still braking. A label that goes ahead of an open
dataset waits for its close (R340). -/
def deckRestartEffect (d : Deck) (ch : Chip) : Chip :=
  let k := ch.decks.get d
  match k.roller.buffers, k.profile, k.tape.label with
  | b :: _, some p, some l =>
    if b.started ∨ k.roller.eodFailed ∨ k.workQ.contains .start ∨ ¬ ch.domOn (engineUnit d 2) ∨
        (k.roller.open_.isSome ∧ k.roller.buffers.all (fun b => b.ds.kind = .label)) ∨
        ¬ (k.seq.state = .ready ∨ k.seq.state = .stopping ∨ (k.seq.state = .streaming ∧ k.seq.capSpeed = 0)) then ch
    else
      let t := match k.matcher.restAt with
        | some x => (ch.now - x).toNat
        | none => 0
      let m := k.matcher
      let s := if m.policy.fixed then m.policy.fixedAt else restartLaw m.lo m.hi p l.tracks l.cellLength m.stored t
      ((ch.postTarget d s).modMatcher d (fun m => { m with underrun := false, runOut := none })).ask d .start
  | _, _, _ => ch

/-- READ_BUFFER_STALL (R383): Whisk has not taken what Strainer extracted, and no read buffer is free at the end of a dataset: the
matcher has the tape stopped. -/
def readBufferStallEffect (d : Deck) (ch : Chip) : Chip :=
  let k := ch.decks.get d
  if k.seq.state = .streaming ∧ k.seq.op.any (·.moving) ∧ ¬ k.toExpand.isEmpty ∧ ¬ k.strainer.stalled then
    (ch.modDeck d (fun k => { k with strainer := { k.strainer with stalled := true } })).ask d .pause
  else ch

/-- A read buffer is free again: the tape resumes at hi (R383). -/
def Chip.resumeRead (ch : Chip) (d : Deck) : Chip :=
  let k := ch.decks.get d
  if k.strainer.stalled then
    (ch.modDeck d (fun k => { k with strainer := { k.strainer with stalled := false } })).ask d (.move k.readSpeed)
  else ch

/-! ### The deck work queue (R20) -/

/-- Positioner offset of reread pass p, nm (R374). -/
def rereadOffset (p : Nat) : Int := ([0, 500, -500, 1000, -1000, 1500, -1500][p]?).getD 0

/-- The positioner takes the wrap target with the offset of a reread pass, 0 for none (R443, R374). -/
def Chip.offsetHead (ch : Chip) (d : Deck) (pass : Nat) : Chip :=
  match (ch.decks.get d).profile with
  | some p => ch.drive d (fun q => { q with
      posTarget := wrapTarget p (ch.decks.get d).tape.wrap.toNat (rereadOffset pass), posRamp := approachRamp p, offset := pass })
  | none => ch

/-- The deck has its tape under control: it is at rest, moving or stopping. -/
def DeckState.runsTape (s : DeckState) : Bool := decide (s = .ready ∨ s = .streaming ∨ s = .stopping)

/-- A motion request is carried out. One that nothing asks for any more is dropped: its operation has ended, or the deck has left the
states in which it moves tape. -/
def Chip.carryOut (ch : Chip) (d : Deck) (m : Motion) : Chip :=
  let k := ch.decks.get d
  let runs (op : Op) : Bool := k.seq.op.any (fun o => decide (o.op = op) && !o.flushing)
  let rests : Bool := decide (k.seq.state = .empty ∨ k.seq.state = .present ∨ k.seq.state = .ready ∨ k.seq.state = .faultStop)
  match m with
  | .speed v => if k.seq.state = .streaming then ch.drive d (fun q => { q with capSpeed := v }) else ch
  | .start =>
    match k.profile, k.roller.buffers with
    | some p, b :: _ => if k.seq.state.runsTape ∧ ¬ b.started then (ch.aimAt d (k.wrapFor b.ds)).startTape d (speedOf p k.matcher.target) else ch
    | _, _ => ch
  | .stop => if k.seq.state = .streaming then ch.controlledStop d else ch
  | .pause => if k.seq.state = .streaming ∧ k.strainer.stalled then ch.drive d (fun q => { q with capSpeed := 0 }) else ch
  | .move v => if k.seq.state.runsTape ∧ k.seq.op.any (·.moving) then ((ch.aimAt d k.tape.wrap).offsetHead d k.strainer.pass.toNat).startTape d v else ch
  | .load forUnload => if rests ∧ k.seq.op.any (fun o => decide (o.op = .load ∨ o.op = .unload)) then ch.startLoad d forUnload else ch
  | .home => if rests ∧ runs .home then ch.startHome d else ch
  | .unload => if k.seq.state.runsTape ∧ runs .unload then ch.startUnload d else ch
  | .offset pass =>
    if k.seq.state.runsTape ∧ (if k.strainer.reading then pass = k.strainer.pass.toNat + 1 else pass = 0) then ch.offsetHead d pass else ch

/-- DECK_WORK_REQUEST: deck sequencing takes the next request of its deck work queue. -/
def deckWorkRequestEffect (d : Deck) (ch : Chip) : Chip :=
  match (ch.decks.get d).workQ with
  | [] => ch
  | m :: rest => if ¬ ch.servoOn d then ch else (ch.modDeck d (fun k => { k with workQ := rest })).carryOut d m

/-! ### The Cook work queues (R21) -/

/-- The Cook writes the completion that a notice reports. -/
def Chip.completeNotice (ch : Chip) (n : Notice) : Chip := ch.complete n.ctx n.tag n.rcrc n.stat n.payload

/-- The Cook carries out an entry that an engine of deck d has posted: a completion; the stop of the tape after an operation; the offset of
a reread pass, or with 0 the nominal one, for the deck (R374). -/
def Chip.serveNotice (ch : Chip) (d : Deck) : CookWork → Chip
  | .ended n => ch.completeNotice n
  | .endedMove n =>
    let c1 := match n with
      | some n => ch.completeNotice n
      | none => ch
    if (c1.decks.get d).seq.op.isNone ∧ (c1.decks.get d).seq.state.runsTape then c1.ask d .stop else c1
  | .reread pass => ch.ask d (.offset pass)

/-- COOK_NOTICE: the Cook consumes the oldest entry of a deck's Cook work queue, or of the Tongs channels'. -/
def cookNoticeEffect (d : Option Deck) (ch : Chip) : Chip :=
  if ¬ ch.cookCan then ch
  else match d with
    | none =>
      match ch.tongsQ with
      | [] => ch
      | n :: rest => Chip.completeNotice { ch with tongsQ := rest } n
    | some d =>
      match (ch.decks.get d).cookQ with
      | [] => ch
      | w :: rest => (ch.modDeck d (fun k => { k with cookQ := rest })).serveNotice d w

/-! ### The commands -/

/-- SPEED_RETARGET (R380). -/
def execSpeedRetarget (d : Deck) (s : State) : Host.Outcome State Fault Refusal := s.onChip (speedRetargetEffect d)
/-- STALL_TIMEOUT (R385). -/
def execStallTimeout (d : Deck) (s : State) : Host.Outcome State Fault Refusal := s.onChip (stallTimeoutEffect d)
/-- RUN_OUT_BRAKE (R386). -/
def execRunOutBrake (d : Deck) (s : State) : Host.Outcome State Fault Refusal := s.onChip (runOutBrakeEffect d)
/-- UNDERRUN (R387). -/
def execUnderrun (d : Deck) (s : State) : Host.Outcome State Fault Refusal := s.onChip (underrunEffect d)
/-- DECK_RESTART (R389). -/
def execDeckRestart (d : Deck) (s : State) : Host.Outcome State Fault Refusal := s.onChip (deckRestartEffect d)
/-- READ_BUFFER_STALL (R383). -/
def execReadBufferStall (d : Deck) (s : State) : Host.Outcome State Fault Refusal := s.onChip (readBufferStallEffect d)
/-- DECK_WORK_REQUEST (R20). -/
def execDeckWorkRequest (d : Deck) (s : State) : Host.Outcome State Fault Refusal := s.onChip (deckWorkRequestEffect d)
/-- COOK_NOTICE (R21). -/
def execCookNotice (d : Option Deck) (s : State) : Host.Outcome State Fault Refusal := s.onChip (cookNoticeEffect d)

end Sys2Proof.Machine
end

