-- ==== Sys2Proof/Machine/Checks.lean ====
section
/-! DEFINITION. The Cook's check order for deck opcodes (07: R165, R180, Table 7-2; 08: R200, Table 8-2; 18: R456, R459, Table 18-5;
14: R366) and the profile's ranges (08: R220). -/

namespace Sys2Proof.Machine

/-- The completion of the first check that fails. -/
def firstFail : List (Bool × Stat) → Option Stat
  | [] => none
  | (bad, st) :: rest => if bad then some st else firstFail rest

/-- The deck a payload names in byte 0. -/
def deckOf (p : List Byte) : Option Deck := if h : (byteAt p 0).toNat < 4 then some ⟨(byteAt p 0).toNat, h⟩ else none

/-- Lock-requiring opcodes (Tables 7-1, 8-1). -/
def Op.needsLock (op : Op) (p : List Byte) : Bool :=
  match op with
  | .deckUnlock | .load | .unload | .home | .deckStop | .loopOpen | .loopClose | .loopWrite | .autotune | .tripClear | .speedPolicy
  | .writeRecord | .writeData | .writeFilemark | .flush | .readRecord | .readMore | .locate | .space | .rewind | .eraseFromHere
  | .formatTape | .verify | .compressionSet | .profileLoad => true
  | .autotuneResult => byteAt p 2 == 1#8
  | _ => false

/-- Opcodes 0x20 to 0x2C but POSITION_READ. -/
def Op.onTape : Op → Bool
  | .writeRecord | .writeData | .writeFilemark | .flush | .readRecord | .readMore | .locate | .space | .rewind | .eraseFromHere
  | .formatTape | .verify => true
  | _ => false

/-- Deck operations (R178, R201). -/
def Op.isDeckOp : Op → Bool
  | .load | .unload | .home | .autotune | .readRecord | .readMore | .locate | .space | .rewind | .eraseFromHere | .formatTape
  | .verify => true
  | _ => false

/-- Write-side and read-side opcodes (R203). -/
def Op.writeSide : Op → Bool
  | .writeRecord | .writeFilemark | .eraseFromHere | .formatTape => true
  | _ => false
def Op.readSide : Op → Bool
  | .readRecord | .verify | .locate | .space => true
  | _ => false

/-- Opcodes that order 8 covers: they move a motor, or lead to motion (Table 7-2). -/
def Op.moves : Op → Bool
  | .load | .unload | .home | .autotune | .writeRecord | .writeFilemark | .flush | .readRecord | .readMore | .locate | .space
  | .rewind | .eraseFromHere | .formatTape | .verify => true
  | _ => false

/-! ### Reserved fields and ranges (orders 1 and 2) -/

/-- Order 1: a reserved field of the request is not 0 (R13). -/
def reservedBad (op : Op) (p : List Byte) : Bool :=
  match op with
  | .deckLock => !fieldZero p 5 3
  | .loopOpen | .loopClose | .writeRecord | .space | .compressionSet =>
    !fieldZero p 2 2 || (decide (op = .writeRecord) && decide (8 ≤ (byteAt p 1).toNat))
  | .loopWrite => !fieldZero p 3 1 || !(List.range ((p.length - 4) / 8)).all (fun i => fieldZero p (6 + 8 * i) 2)
  | .loopRead | .autotune | .autotuneResult | .formatTape => !fieldZero p 3 1
  | .tripClear => !fieldZero p 2 2 || decide (16 ≤ (byteAt p 1).toNat)
  | .speedPolicy => !fieldZero p 10 2
  | .writeFilemark => decide ((byteAt p 1).toNat ≠ 0 ∧ (byteAt p 1).toNat ≠ 2)
  | .locate => !fieldZero p 3 5
  | .verify => !fieldZero p 4 4
  | .eraseFromHere => !fieldZero p 2 2 || decide (2 ≤ (byteAt p 1).toNat)
  | .writeData => false
  | _ => !fieldZero p 1 3

/-- The slot index of a loop opcode is 0 to 11 (R191). -/
def slotOk (p : List Byte) : Bool := decide ((byteAt p 1).toNat < 12)
def slotOf (p : List Byte) : SlotIx := Fin.ofNat 12 (byteAt p 1).toNat

/-- A transport profile from its 128 bytes (Tables 8-8, 8-9). -/
def parseProfile (b : List Byte) : Profile :=
  { linePitch := leAt b 8 4, capLines := leAt b 12 2, reelLines := leAt b 14 2, maxTracks := leAt b 16 1, maxWraps := leAt b 17 1,
    cellRateMax := leAt b 18 2, cellMin := leAt b 20 4, cellMax := leAt b 24 4, rwOffset := leAt b 28 4, speedMin := leAt b 32 4,
    speedMax := leAt b 36 4, accel := leAt b 40 4, wrapLength := leAt b 44 4, ewDistance := leAt b 48 4, wrapPitch := leAt b 52 4,
    homeSpeed := leAt b 56 4, tensionSet := leAt b 60 2, tensionTol := leAt b 62 2,
    currentLimit := [leAt b 64 2, leAt b 66 2, leAt b 68 2, leAt b 70 2], loopPeriod := leAt b 72 2, backhitch := leAt b 74 2,
    tThread := leAt b 76 2, tTension := leAt b 78 2, tCalibrate := leAt b 80 2, tHome := leAt b 82 2, tUnload := leAt b 84 2,
    pwmPeriod := leAt b 88 4, deadTime := leAt b 92 2, minPulse := leAt b 94 2 }

/-- lo ≤ x ≤ hi. -/
def within (lo hi x : Nat) : Bool := decide (lo ≤ x) && decide (x ≤ hi)

/-- A cell length of n crumbs lies in 0.25 to 50 µm (R220). -/
def cellLengthOk (linePitch n : Nat) : Bool := within (250000 * 4096) (50000000 * 4096) (n * linePitch)

/-- Every field of the profile is in the range of Tables 8-8 and 8-9, and of R220's further conditions (17: the pulse limits). -/
def Profile.ok (f : Profile) : Bool :=
  within 100000 100000000 f.linePitch && within 64 65535 f.capLines && within 16 65535 f.reelLines && [1, 2, 4, 8, 16].contains f.maxTracks
  && within 1 64 f.maxWraps && within 1 320 f.cellRateMax && decide (1 ≤ f.cellMin) && decide (f.cellMin ≤ f.cellMax)
  && decide (1 ≤ f.rwOffset) && decide (1 ≤ f.speedMin) && decide (f.speedMin ≤ f.speedMax) && decide (1 ≤ f.accel)
  && decide (1 ≤ f.wrapLength) && decide (f.ewDistance < f.wrapLength) && decide (1 ≤ f.wrapPitch) && decide (1 ≤ f.homeSpeed)
  && within 1 32767 f.tensionSet && within 1 32767 f.tensionTol && f.currentLimit.all (within 1 32767) && within 40 2560 f.loopPeriod
  && within 500 3000 f.backhitch && [f.tThread, f.tTension, f.tCalibrate, f.tHome, f.tUnload].all (within 1 65535)
  && within 160000 1600000 f.pwmPeriod && decide (8 * (f.minPulse + 2 * f.deadTime) ≤ f.pwmPeriod)
  && cellLengthOk f.linePitch f.cellMin && cellLengthOk f.linePitch f.cellMax

/-- The 128 bytes are a profile that PROFILE_LOAD takes (R220). -/
def profileOk (b : List Byte) : Bool :=
  b.take 8 == [0x53#8, 0x5A#8, 0x50#8, 0x31#8, 1, 0, 128, 0] && fieldZero b 86 2 && fieldZero b 96 28
  && decide (leAt b 124 4 = (crc32 (b.take 124)).toNat) && (parseProfile b).ok

/-- The lag G in cells (R366). -/
def lagCells (rwOffset cell : Nat) : Nat := ceilDiv rwOffset cell + 64

/-- FORMAT_TAPE's request against Table 8-8a and, where the deck has one, its profile (R366). -/
def formatOk (prof : Option Profile) (p : List Byte) : Bool :=
  let tracks := (byteAt p 1).toNat
  let parts := (byteAt p 2).toNat
  let cell := leAt p 4 4
  let wraps := (List.range 4).map (fun i => (byteAt p (8 + i)).toNat)
  [1, 2, 4, 8, 16].contains tracks && within 1 4 parts && decide (1 ≤ cell)
  && (List.range 4).all (fun i => if i < parts then decide (1 ≤ (wraps[i]?).getD 0) else decide ((wraps[i]?).getD 0 = 0))
  && (match prof with
      | some f => decide (tracks ≤ f.maxTracks) && within f.cellMin f.cellMax cell && decide (wraps.foldl (· + ·) 0 ≤ f.maxWraps)
          && decide (lagCells f.rwOffset cell ≤ 2232)
      | none => decide (wraps.foldl (· + ·) 0 ≤ 64))

/-- The lowest target a profile allows, in 0.01 % of speed_max (R379). -/
def Profile.sMin (p : Profile) : Nat := ceilDiv (p.speedMin * 10000) p.speedMax

/-- SPEED_POLICY's fields (Table 7-10); before a profile is loaded, as far as they do not rest on the profile minimum. -/
def policyOk (prof : Option Profile) (p : List Byte) : Bool :=
  let stall := leAt p 2 2
  let least := (prof.map Profile.sMin).getD 0
  let lo := if leAt p 4 2 = 0 then least else leAt p 4 2
  let hi := if leAt p 6 2 = 0 then 10000 else leAt p 6 2
  decide ((byteAt p 1).toNat ≤ 1) && (decide (stall = 0) || within 10 5000 stall) && decide (least ≤ lo) && decide (lo ≤ hi) && decide (hi ≤ 10000)
  && (if byteAt p 1 = 0#8 then decide (leAt p 8 2 = 0) else within lo hi (leAt p 8 2))

/-- Order 2: some field is out of range, or a count does not agree with the length. -/
def Chip.rangeBad (ch : Chip) (op : Op) (p : List Byte) : Bool :=
  match deckOf p with
  | none => true
  | some d =>
    let k := ch.decks.get d
    !(match op with
      | .deckLock => decide ((byteAt p 1).toNat ≤ 1)
      | .loopOpen | .loopClose => slotOk p
      | .loopWrite => slotOk p && within 1 64 (byteAt p 2).toNat && decide (p.length = 4 + 8 * (byteAt p 2).toNat)
          && (k.loops.slots.get (slotOf p)).accepts (loopEntries p)
      | .loopRead => slotOk p && within 1 64 (byteAt p 2).toNat && decide (p.length = 4 + 2 * (byteAt p 2).toNat)
          && (loopOffsets p).all (fun o => (k.loops.readSlot (slotOf p) o).isSome)
      | .autotune => slotOk p && within 8 64 (byteAt p 2).toNat && within 1 32767 (leAt p 4 2) && decide (leAt p 6 2 ≤ 32767)
      | .autotuneResult => slotOk p && decide ((byteAt p 2).toNat ≤ 1)
      | .tripClear => decide ((byteAt p 1).toNat ≠ 0)
      | .speedPolicy => policyOk k.profile p
      | .writeRecord => if (byteAt p 1).getLsbD 2 then decide (leAt p 4 4 = 0) else within 1 16777215 (leAt p 4 4)
      | .writeFilemark => within 1 1000 (leAt p 2 2)
      | .readRecord | .readMore => decide (leAt p 4 4 ≤ 16777215)
      | .locate => decide ((byteAt p 1).toNat ≤ 2) && decide ((byteAt p 2).toNat < (match k.tape.label with
            | some l => l.partitions
            | none => 4)) && (decide ((byteAt p 1).toNat ≠ 2) || decide (leAt p 8 8 = 0))
      | .space => decide ((byteAt p 1).toNat ≤ 2) && (decide ((byteAt p 1).toNat = 2) == decide (leAt p 4 4 = 0))
      | .verify => if byteAt p 1 = 0#8 then decide (leAt p 2 2 ≠ 0) else decide (byteAt p 1 = 1#8) && decide (leAt p 2 2 = 0)
      | .formatTape => formatOk k.profile p
      | .compressionSet => decide ((byteAt p 1).toNat ≤ 1)
      | .profileLoad => profileOk (p.drop 4)
      | _ => true)

/-! ### Orders 3 to 10 -/

/-- R165. -/
def LockState.refuses (l : LockState) (i : Ctx) : Option Stat :=
  match l with
  | .free => some Stat.notLocked
  | .held j => if j = i then none else some Stat.heldByOther
  | .draining j | .window j => if j = i then some Stat.notLocked else some Stat.adoptWindow

/-- The base state by which order 9 judges (R459). -/
def DeckSeq.baseState (q : DeckSeq) : DeckState :=
  match q.state with
  | .thread | .tensionUp | .homing | .calibrate | .scan | .unloading => q.base
  | .streaming | .stopping => .ready
  | st => st

/-- A sequence state (Table 18-1). -/
def DeckState.inSequence : DeckState → Bool
  | .thread | .tensionUp | .homing | .calibrate | .scan | .unloading => true
  | _ => false

/-- Order 5 covers the opcode (R180, R200). -/
def Op.order5 (op : Op) (p : List Byte) : Bool :=
  match op with
  | .load | .unload | .home | .deckStop | .loopOpen | .loopClose | .loopWrite | .autotune | .tripClear | .speedPolicy => true
  | .autotuneResult => byteAt p 2 == 1#8
  | o => o.onTape

/-- Orders 6 and 7 cover the opcode (R459). -/
def Op.order6 (op : Op) : Bool := decide (op = .load) || op.onTape
def Op.order7 (op : Op) : Bool := decide (op = .load ∨ op = .home ∨ op = .autotune ∨ op = .speedPolicy ∨ op = .positionRead) || op.onTape

/-- Order 9, Table 18-5 with R456: the completion, when the state does not permit the opcode; `some already` where it is done. R456 names no
completion for an UNLOAD without a cartridge: the model gives NO_CARTRIDGE, after the door and LOCKED (DESIGN CHOICE, log entry 82). -/
def Chip.order9 (ch : Chip) (op : Op) (p : List Byte) (d : Deck) : Option Stat :=
  let k := ch.decks.get d
  let base := k.seq.baseState
  let locked := decide (ch.timebase.refState = .locked)
  let leave : Option Stat :=
    if k.seq.state ≠ .faultStop then none
    else if ¬ k.seq.rest then some Stat.deckBusy
    else if ¬ k.io.door ∨ ¬ locked then some Stat.deckState
    else if ¬ k.io.cart then some Stat.noCartridge
    else none
  let only (ok : Bool) : Option Stat := if ok then none else some Stat.deckState
  match op with
  | .load =>
    match base with
    | .present => only (k.seq.state.inSequence || (k.io.door && locked))
    | .ready => some Stat.already
    | .faultStop => leave
    | _ => some Stat.deckState
  | .unload =>
    match base with
    | .empty | .present => some Stat.already
    | .ready => only locked
    | .faultStop => leave
    | _ => some Stat.deckState
  | .home =>
    match base with
    | .empty | .present | .ready => only locked
    | _ => some Stat.deckState
  | .autotune => only (decide (base = .ready) && locked)
  | .autotuneResult => only (decide (base = .ready) || byteAt p 2 == 0#8)
  | .positionRead => only (decide (base = .ready) || (decide (base = .faultStop) && k.tape.media.isSome))
  | .profileLoad => only (decide (base = .dormant ∨ base = .empty ∨ base = .present))
  | o =>
    if o.onTape then only (decide (base = .ready) && k.io.home.homed && locked) else none

/-- Orders 9b to 9d, R211's mid-record rule and R366's tape that cannot be written (Table 8-2). -/
def Chip.order9bcd (ch : Chip) (op : Op) (d : Deck) : Option Stat :=
  let k := ch.decks.get d
  let t := k.tape
  let far := match k.profile, t.label with
    | some f, some l => decide (2232 < lagCells f.rwOffset l.cellLength)
    | _, _ => false
  if ¬ (op.onTape ∨ op = .positionRead) then none
  else firstFail
    [(t.media.isNone, Stat.deckState),
     (decide (op ≠ .formatTape ∧ op ≠ .positionRead) && decide (t.media = some .blank) &&
        decide (op = .readRecord ∨ op = .readMore ∨ op = .verify ∨ op = .locate ∨ op = .space), Stat.blank),
     (decide (op ≠ .formatTape ∧ op ≠ .positionRead) && decide (t.media ≠ some .krf), Stat.formatUnknown),
     (decide (op = .writeRecord ∨ op = .writeFilemark ∨ op = .eraseFromHere) && t.mid, Stat.writePosition),
     (decide (op = .readMore) && !t.mid, Stat.deckState),
     (op.writeSide && decide (op ≠ .formatTape) && far, Stat.deckState)]

/-- A raise declaration of a command for deck d waits for Kettle. -/
def Chip.raisePending (ch : Chip) (d : Deck) : Bool := ch.kettle.raising.any (fun r => match r.decl, r.cmd with
  | .deck e _, some _ => decide (e = d)
  | _, _ => false)

/-- An engine has ended the deck's operation, and its notice still waits for the Cook. -/
def DeckAll.opEnding (k : DeckAll) : Bool := k.cookQ.any (fun w => match w with
  | .endedMove _ => true
  | _ => false)

/-- Order 10: another operation runs on the deck, waits to begin, or still comes to rest (R178, R201). UNLOAD ends what runs. -/
def Chip.deckBusy (ch : Chip) (op : Op) (p : List Byte) (d : Deck) : Bool :=
  let k := ch.decks.get d
  let q := k.seq
  let busy := q.op.isSome || ch.raisePending d || q.state.inSequence || k.opEnding
  match op with
  | .unload => false
  | .loopOpen | .loopClose => decide ((k.loops.slots.get (slotOf p)).state = .tuning)
  | .profileLoad => busy
  | o => (o.isDeckOp || o.onTape) && busy

/-- Orders 3 to 10 of Tables 7-2 and 8-2 for a command that names deck d. -/
def Chip.judge (ch : Chip) (cmd : Cmd) (d : Deck) : Option Stat :=
  let k := ch.decks.get d
  let op := cmd.op
  let p := cmd.payload
  let lock := if op.needsLock p then k.lock.state.refuses cmd.ctx else none
  let early := firstFail
    [(op.needsLock p && ch.deckHeld d, Stat.mgmtHold),
     (lock.isSome, lock.getD Stat.notLocked),
     (op.order5 p && decide (k.seq.state = .dormant), Stat.deckCal),
     (op.order6 && !k.io.cart, Stat.noCartridge),
     (op.order7 && k.profile.isNone, Stat.noProfile),
     (op.moves && k.io.axes.toList.any (·.trip), Stat.tripped)]
  match early with
  | some st => some st
  | none =>
    match ch.order9 op p d with
    | some st => some st
    | none =>
      match ch.order9bcd op d with
      | some st => some st
      | none => if ch.deckBusy op p d then some Stat.deckBusy else none

end Sys2Proof.Machine
end

