-- ==== Sys2Proof/Machine/Pipeline.lean ====
section
/-! DEFINITION. Whisk's two engines at work on a deck's records, and Strainer reading datasets (12: R299–R311; 14: R358–R375;
20: R488–R493). -/

namespace Sys2Proof.Machine

/-! ### Held entries (R22, R493) -/

/-- Queue number of a context's RDATA queue for a deck (Table 6-3). The internal queues have no depth of their own in the spec, so
they never hold an entry back (log entry 30). -/
def rdataQueue (i : Ctx) (d : Deck) : Nat := 12 * i.val + 7 + d.val

def Chip.holds (ch : Chip) (queue : Nat) : Bool := ch.held.any (fun x => x.1 == queue)

/-- A producer of domain `unit` holds an entry whose context queue is full: logged as QUEUE_FULL when it holds no other for that queue
(R22, code 0x35). -/
def Chip.hold (ch : Chip) (queue unit : Nat) (e : HeldEntry) : Chip :=
  let c1 := { ch with held := ch.held ++ [(queue, e)] }
  if ch.holds queue then c1 else c1.logFault 0x35 unit 0 (BitVec.ofNat 32 queue) 1 0

/-! ### Whisk compress (R299, R300, R310, R490) -/

/-- Cells that n payload bytes need: 248 in each (R228). -/
def cellsFor (n : Nat) : Nat := ceilDiv n 248

/-- Byte addresses of a record in its chain: each WRITE_DATA begins in cells of its own. -/
def partBytes : List Nat → List Nat → List Nat
  | [], _ => []
  | n :: ns, cells => (chainBytes (cells.take (cellsFor n))).take n ++ partBytes ns (cells.drop (cellsFor n))

/-- F-BANK serves the bank of every cell listed. -/
def Chip.cellsServed (ch : Chip) (cells : List Nat) : Bool := cells.all (fun c => ch.bankServes (BitVec.ofNat 18 (16 * c)))

/-- The cells that Whisk may draw for a record's output. -/
def Chip.outputCells (ch : Chip) (r : Rec) : List Nat := ch.ladle.freeCells.take (r.chain.length + 1)

/-- Whisk writes a stored form into cells of the record's reservation: drawn under the context's number, handed to the deck's Roller,
with the rest of the reservation returned (R490, R227, R235). -/
def Chip.writeStored (ch : Chip) (d : Deck) (i : Ctx) (r : Rec) (st : Stored) (dm : Damage) : Chip × List Nat :=
  let n := min (cellsFor st.bytes.length) (r.chain.length + 1)
  let c1 := ch.drawReserved (72 + d.val) i.val n
  let cells := match c1.ladle.chains with
    | k :: _ => k.cells
    | [] => []
  let address := 256 * cells.headD 0
  let c2 := c1.writeRuns (4 + d.val) dm (wordRuns ((chainBytes cells).take st.bytes.length))
    (st.bytes.zipIdx.map (fun x => (x.1, st.poisonFrom.any (fun q => decide (q ≤ x.2)))))
  ((((c2.handUnit i.val address (rollerOwner d) false).releaseUnit (72 + d.val) address).unreserve (r.chain.length + 1 - n)), cells)

/-- The stored form enters pipeline queue 0, in the order of the objects (R363). -/
def DeckAll.stage (k : DeckAll) (r : StoredRec) : DeckAll :=
  { k with
    staged := k.staged.filter (fun s => decide (s.object.toNat < r.object.toNat)) ++ .stored r ::
      k.staged.filter (fun s => decide (r.object.toNat < s.object.toNat)),
    poisoned := if r.marked then k.poisoned ++ [{ object := r.object, atRoller := false, tag := r.tag }] else k.poisoned,
    matcher := { k.matcher with stored := if k.matcher.restAt.isSome then k.matcher.stored + r.size else k.matcher.stored } }

/-- Number of an object once object `gone` has left the sequence. -/
def closedUp (gone x : W64) : W64 := if gone.toNat < x.toNat then x - 1 else x

/-- The WDATA entry of the oldest record reads as poison: it is removed unread and the command that completed the record ends
ENGINE_FAULT, if it still waits (R278). What follows takes the number left free (log entry 92). -/
def Chip.lostRecord (ch : Chip) (d : Deck) (i : Ctx) (r : Rec) (rest : List Rec) : Chip :=
  let less (q : Rec) : Rec := { q with object := closedUp r.object q.object }
  let hit (w : Waiter) : Bool := decide (w.ctx = i) && decide (w.tag = r.tag)
  let c1 := (ch.modCtx i (fun x => { x with
    wdata := x.wdata.set d (rest.map less)
    ticket := x.ticket.map (fun t => if t.deck = d then { t with record := less t.record } else t) })).dropRec i r
  let c2 := { c1 with held := c1.held.map (fun (y : Nat × HeldEntry) => match y.2 with
    | .wdata q reply => if y.1 = wdataQueue i d then (y.1, .wdata (less q) reply) else y
    | .rdata _ => y) }
  let c3 := c2.modDeck d (fun k => { k with
    staged := k.staged.map (fun s => s.renumber [r.object])
    tape := { k.tape with object := closedUp r.object k.tape.object }
    seq := { k.seq with waiters := (k.seq.waiters.filter (fun w => !hit w)).map (fun w =>
      { w with from_ := closedUp r.object w.from_, upTo := closedUp r.object w.upTo }) } })
  (((c2.decks.get d).seq.waiters.filter hit).foldl (fun c w => c.noticeWaiter d Stat.engineFault w) c3).endDurable d

/-- COMPRESS_RECORD: Whisk takes the oldest record of the deck's WDATA queue, whose entry stands at the place `slot` of its storage, reads
the record out of its cells and posts its stored form (R299, R300, R310, R278). It waits while a bank it needs is not served or no sharing
entry is free. -/
def compressRecordEffect (d : Deck) (slot : Option Nat) (dm : Damage) (ch : Chip) : Chip :=
  match (ch.decks.get d).lock.owner with
  | none => ch
  | some i =>
    match (ch.ctxs.get i).wdata.get d with
    | [] => ch
    | r :: rest =>
      let entry := slot.toList.flatMap (ch.placeWords i (3 + d.val))
      if ¬ ch.domOn (engineUnit d 0) ∨ ch.cook.safe ∨ ¬ ch.cellsServed (r.chain ++ ch.outputCells r) ∨ ¬ entry.all ch.bankServes then ch
      else if 1008 ≤ ch.ladle.sharesUsed then ch.shareFullAnswer
      else
        let seen := ch.readEntry (4 + d.val) dm entry
        if seen.2 then ((seen.1.lostRecord d i r rest).settle d).flushStep d
        else
          let got := seen.1.readRuns (4 + d.val) dm (wordRuns (partBytes r.parts r.chain))
          let st := whiskStore (!r.raw) (fun b => ((got.2[b]?).map (fun x => x.2)).getD false) (got.2.map (fun x => x.1))
          let out := (got.1.modCtx i (fun x => { x with wdata := x.wdata.set d rest })).writeStored d i r st dm
          let item : StoredRec :=
            { ctx := i, object := r.object, length := r.length, raw := st.raw, size := st.bytes.length, marked := st.poisonFrom.isSome,
              durable := r.durable, tag := r.tag, rcrc := r.rcrc, chain := out.2, bytes := [] }
          (((out.1.releaseCells i.val r.chain).modDeck d (fun k => k.stage item)).settle d).flushStep d

/-! ### Whisk decompress (R304–R311, R211, R212) -/

/-- A data reply of type 0x81. -/
def dataReply (o : DeckOp) (bytes : List Byte) (poison : Bool) (t : W64) : Reply :=
  ctxReply 0x81 o.ctx o.tag o.rcrc (if poison then Stat.hostRead else Stat.done) bytes t

/-- Data replies of 4,096 bytes from offset `o0 + delivered` on, until `todo` bytes are delivered, the output made runs out, or the RDATA
queue is full (R211, R311). -/
def Chip.deliverData (d : Deck) (x : Expanded) (marked : Bool) (o0 todo : Nat) : Nat → Chip → Chip
  | 0, ch => ch
  | fuel + 1, ch =>
    match (ch.decks.get d).seq.op with
    | none => ch
    | some o =>
      let n := min 4096 (todo - o.delivered)
      let start := o0 + o.delivered
      if todo ≤ o.delivered ∨ x.made < start + n then ch
      else
        let poison := marked || x.poisonBefore (start + n)
        let r := dataReply o ((x.bytes.drop start).take n) poison ch.now
        let c0 := if poison then ch.post Ev.poisonDelivered (.ctx o.ctx) (engineUnit d 1) (ctxObject o.ctx) (o.tag.setWidth 32) else ch
        let c1 := c0.modOp d (fun o => { o with delivered := o.delivered + n })
        let y := c1.ctxs.get o.ctx
        if o.silent then Chip.deliverData d x marked o0 todo fuel c1
        else if (y.rdata.get d).length < y.depth (Fin.ofNat 11 (7 + d.val)) then
          Chip.deliverData d x marked o0 todo fuel (c1.modCtx o.ctx (fun z => { z with rdata := z.rdata.set d (z.rdata.get d ++ [r]) }))
        else c1.hold (rdataQueue o.ctx d) (engineUnit d 1) (.rdata r)

/-- The dataset of the next object, once a record has been read to its end. -/
def TapeInfo.afterRead (t : TapeInfo) (r : ReadRec) : W64 :=
  match t.ds with
  | some ds => if ds.number = r.ds then t.placeOf ds ((t.validTo ds).getD ds.begunAfter) (t.object + 1) else r.ds
  | none => r.ds

/-- The class with which a read ends, its bytes all delivered up to `upTo`: Table 8-6 from its POISON row on, and whether the record is
broken. -/
def Expanded.readEnding (x : Expanded) (r : ReadRec) (o : DeckOp) (upTo : Nat) : Stat × Bool :=
  let last := decide (r.length ≤ upTo)
  let broken := last && (match x.ending with
    | .crcFail | .malformed _ => true
    | .good | .poison => false)
  if r.marked || x.poisonBefore upTo then (Stat.hostRead, false)
  else if broken then (Stat.recordCrc, true)
  else (if last then o.recovered Stat.done else Stat.more, false)

/-- A read ends, with the bytes of this command delivered; the position is after the record, or within it (Table 8-6). -/
def Chip.endRead (ch : Chip) (d : Deck) (x : Expanded) (r : ReadRec) (o0 todo : Nat) : Chip :=
  match (ch.decks.get d).seq.op with
  | none => ch
  | some o =>
    let e := x.readEnding r o (o0 + todo)
    let kind := match x.ending with
      | .malformed k => if r.length ≤ o0 + todo then some k.val else none
      | _ => none
    let reply := (ch.decks.get d).tape.readReply r.length todo (o0 + todo)
    ((ch.reportRecord d kind e.2).modTape d (fun t =>
      if r.length ≤ o0 + todo then t.moveTo (t.object + 1) (t.afterRead r) else { t with mid := true, offset := o0 + todo })).engineEnds d e.1 reply

/-- Whisk takes the segment that Strainer has extracted (pipeline queue 5): a read buffer is free again (R383). -/
def Chip.takeExtract (ch : Chip) (d : Deck) : Chip :=
  match (ch.decks.get d).toExpand with
  | [] => ch
  | e :: _ => (ch.modDeck d (fun k => { k with
      toExpand := [], tape := { k.tape with current := ReadRec.add k.tape.current e } })).resumeRead d

/-- What READ_RECORD and READ_MORE deliver of the record being read, and their end; a record that goes on in the next dataset has that
one read. -/
def Chip.expandRead (ch : Chip) (d : Deck) (bad : List Nat) : Chip :=
  let k := ch.decks.get d
  match k.seq.op, k.tape.current with
  | some o, some r =>
    let x := whiskExpand r.raw r.marked r.whole (inWords bad) r.length r.bytes
    let o0 := if o.op = .readMore then k.tape.offset else 0
    let want := if leAt o.payload 4 4 = 0 then 16777215 else leAt o.payload 4 4
    let todo := min want (r.length - o0)
    let c1 := Chip.deliverData d x r.marked o0 todo 4096 ch
    if c1.holds (rdataQueue o.ctx d) then c1
    else if ((c1.decks.get d).seq.op.any (fun o => decide (o.delivered < todo)) ∨ r.length ≤ o0 + todo) ∧ ¬ r.whole then
      (c1.modTape d (fun t => { t with walk := some (r.ds + 1) })).readOn d
    else c1.endRead d x r o0 todo
  | _, _ => ch

/-- DECOMPRESS_RECORD: the next data replies of the record being read, and its end (R211, R212). `bad` lists the words of its stored form
that Whisk reads as poison. What a READ_RECORD skips of a record goes to no one. -/
def decompressRecordEffect (d : Deck) (bad : List Nat) (ch : Chip) : Chip :=
  let k := ch.decks.get d
  match k.seq.op with
  | none => ch
  | some o =>
    if ¬ o.moving ∨ ¬ (o.op = .readMore ∨ (o.op = .readRecord ∧ ¬ k.tape.mid)) ∨ ch.holds (rdataQueue o.ctx d) ∨
        ¬ ch.domOn (engineUnit d 1) ∨ ch.cook.safe then ch
    else (ch.takeExtract d).expandRead d bad

/-! ### Strainer reading a dataset (R361–R375) -/

def Chip.modStrainer (ch : Chip) (d : Deck) (f : Strainer → Strainer) : Chip := ch.modDeck d (fun k => { k with strainer := f k.strainer })

/-- Events of the corrections of one pass (R372, R373). -/
def Chip.postCorrections (ch : Chip) (d : Deck) (r : PassResult) : Chip :=
  let c1 := if r.c2Rows = 0 then ch else ch.postDeck d Ev.c2Corrected (engineUnit d 3) (BitVec.ofNat 32 r.c2Rows)
  if r.c3Sds = 0 then c1 else c1.postDeck d Ev.c3Corrected (engineUnit d 3) (BitVec.ofNat 32 r.c3Sds)

/-- The pieces that Strainer finds while it expects dataset `n` of a tape with `tracks` tracks: on an aligned link, on tracks that are not
dropped (R360–R362). -/
def Strainer.found (s : Strainer) (tracks : Nat) (n : W64) (passed : List Passed) : List Piece :=
  if s.aligned then passed.filterMap (fun p =>
    let t := (s.tracks[p.track]?).getD Track.reset
    if t.dropped then none else p.find (max tracks 1) n t.locked)
  else []

/-- Strainer serves the head of its read orders with the pass under way: that dataset, the one after it, or any (R363). -/
def ReadOrder.wants (o : ReadOrder) (n : W64) : Bool :=
  match o with
  | .read m | .ahead m => n == m
  | .scan => true

def ReadOrder.isAhead : ReadOrder → Bool
  | .ahead _ => true
  | _ => false

/-- A reread that was asked for has not begun: the next pass waits for it (R374). -/
def DeckAll.rereadDue (k : DeckAll) : Bool :=
  decide (k.seq.offset ≠ k.strainer.pass.toNat) || k.cookQ.any (fun w => match w with
    | .reread _ => true
    | _ => false) || k.workQ.any (fun m => match m with
    | .offset _ => true
    | _ => false)

/-- A dataset read is over: its rows go, and after a reread the positioner returns to its nominal offset (R374). -/
def Chip.readOver (ch : Chip) (d : Deck) : Chip :=
  let c1 := ch.modStrainer d (fun s => { s with rows := [], pass := 0, reading := false })
  if (ch.decks.get d).strainer.pass = 0 then c1 else c1.tellCook d (.reread 0)

/-- Strainer draws its second dataset buffer, when it can (R364). -/
def Chip.drawReadBuffer (ch : Chip) (d : Deck) : Chip :=
  if (ch.decks.get d).strainer.blocks.isEmpty then
    match ch.drawBlocks (strainerOwner d) false 3 [] with
    | (c1, some bs) => c1.modStrainer d (fun s => { s with blocks := bs })
    | (c1, none) => c1
  else ch

/-- The position of a LOCATE whose target's dataset, number n, cannot be read: the start of that dataset (R214). Its first object is the one
after those that begin before it; where the dataset before it is not in hand the spec gives no number, and it is free (log entry 81). -/
def Chip.lostPlace (ch : Chip) (d : Deck) (n : W64) : Chip :=
  let t := (ch.decks.get d).tape
  let known := if n = 0 then some 0 else match t.ds with
    | some ds => if ds.number + 1 = n ∧ ds.partition = t.partition then some ds.begunAfter else none
    | none => none
  match known with
  | some x => ch.modTape d (fun t => t.moveTo x n)
  | none => { ch with freeUsed := ch.freeUsed + 1 }.modTape d (fun t => t.moveTo (Config.objectAt ch.freeUsed) n)

/-- A read of dataset n has failed, as unrecovered or as no dataset of the format: the operation ends with `st` (Table 8-6, R214). A
dataset that was only to show which objects are void shows none. -/
def Chip.readFails (ch : Chip) (d : Deck) (o : ReadOrder) (n : W64) (st : Stat) : Chip :=
  if o.isAhead then (ch.modDeck d (fun k => { k with readQ := [], tape := { k.tape with ahead := .lost } })).readOn d
  else if (ch.decks.get d).seq.op.any (fun x => decide (x.op = .locate)) then (ch.lostPlace d n).engineEnds d st []
  else ch.failRead d st

/-- A read of dataset n has succeeded: the operation goes on with it. -/
def Chip.readArrives (ch : Chip) (d : Deck) (o : ReadOrder) (r : PassResult) (ds : Dataset) : Chip :=
  let c1 := ch.modOp d (fun o => { o with c2 := o.c2 + r.c2Rows, c2Data := o.c2Data + r.c2Data, c3 := o.c3 + r.c3Sds })
  (c1.modDeck d (fun k => { k with
    readQ := [],
    tape := if o.isAhead then { k.tape with ahead := .known ds } else { k.tape with ds := some ds, ahead := .unknown, wrap := ds.wrap } })).readOn d

/-- DATASET_READ: a dataset of the read order at the head passes the read head, with the stretches of its pieces in arrival order; one pass
of collecting and decoding (R371–R375). -/
def datasetReadEffect (d : Deck) (dataset : W64) (passed : List Passed) (ch : Chip) : Chip :=
  let k := ch.decks.get d
  match k.seq.op, k.tape.label, k.readQ with
  | some o, some l, q :: _ =>
    if ¬ o.moving ∨ ¬ q.wants dataset ∨ k.rereadDue ∨ k.seq.state ≠ .streaming ∨ k.strainer.stalled ∨ ¬ ch.domOn (engineUnit d 3) ∨
        (k.strainer.reading ∧ k.strainer.dataset ≠ dataset.setWidth 32) then ch
    else
      let seen := k.strainer.found l.tracks dataset passed
      let got := collectRows seen k.strainer.rows 0
      let r := decodePass got.1
      let c1 := ((ch.drawReadBuffer d).modStrainer d (fun s => { s with
        notFound := s.notFound + BitVec.ofNat 32 (passed.length - seen.length),
        codeViol := s.codeViol + BitVec.ofNat 32 (seen.map (fun c => codeViolations c.words)).sum,
        c1 := s.c1 + BitVec.ofNat 32 got.2, c2rows := s.c2rows + BitVec.ofNat 32 r.c2Rows, c3sds := s.c3sds + BitVec.ofNat 32 r.c3Sds,
        dataset := dataset.setWidth 32, reading := true, rows := got.1 })).postCorrections d r
      match r.payload with
      | some p =>
        match parseDataset k.tape.partition l.tracks p with
        | some ds => (c1.readOver d).readArrives d q r ds
        | none => (c1.readOver d).readFails d q dataset Stat.formatError
      | none =>
        if k.strainer.pass.toNat < 6 then c1.tellCook d (.reread (k.strainer.pass.toNat + 1))
        else
          ((c1.readOver d).modStrainer d (fun s => { s with unrecovered := if q.isAhead then s.unrecovered else s.unrecovered + 1 })).readFails
            d q dataset Stat.unrecoveredRead
  | _, _, _ => ch

/-- REREAD_PASS: the deck reads the dataset again with the head at the next pass's offset (R374). -/
def rereadPassEffect (d : Deck) (ch : Chip) : Chip :=
  let k := ch.decks.get d
  let n := k.strainer.pass.toNat + 1
  if k.strainer.reading ∧ k.seq.op.any (·.moving) ∧ k.seq.offset = n then
    (((ch.modStrainer d (fun s => { s with pass := BitVec.ofNat 3 n, reread := s.reread + 1 })).modOp d (fun o =>
      { o with rereads := o.rereads + 1 }))).postDeck d Ev.rereadPass (engineUnit d 3) (BitVec.ofNat 32 n)
  else ch

/-- READ_LINK_ALIGN (R360). -/
def readLinkAlignEffect (d : Deck) (ch : Chip) : Chip := ch.modStrainer d (fun s => { s with aligned := true })
/-- READ_LINK_ALIGN_LOSS (R360): counted; no track stays locked without cells. -/
def readLinkAlignLossEffect (d : Deck) (ch : Chip) : Chip :=
  ch.modStrainer d (fun s =>
    if s.aligned then { s with aligned := false, alignLoss := s.alignLoss + 1, tracks := s.tracks.map (fun t => { t with locked := false }) } else s)

/-- TRACK_LOCK: a track locks with its skew; beyond ±2,048 cells it is dropped (R361, R362). -/
def trackLockEffect (d : Deck) (t : Fin 16) (skew : W16) (ch : Chip) : Chip :=
  ch.modStrainer d (fun s =>
    if ¬ s.aligned then s
    else if 2048 < skew.toInt.natAbs then { s with tracks := s.tracks.set t { locked := false, misses := 0, skew := 0, dropped := true } }
    else { s with tracks := s.tracks.set t { locked := true, misses := 0, skew := skew, dropped := false } })

/-- TRACK_UNLOCK: two misses in a row, or a drop for skew (R361, R362). -/
def trackUnlockEffect (d : Deck) (t : Fin 16) (dropped : Bool) (ch : Chip) : Chip :=
  ch.modStrainer d (fun s => { s with tracks := s.tracks.set t { locked := false, misses := if dropped then 0 else 2, skew := 0, dropped := dropped } })

/-- STR_CTRL.clear_counts (R376). -/
def strClearCountsEffect (d : Deck) (ch : Chip) : Chip :=
  ch.modStrainer d (fun s => { s with judged := 0, bad := 0, notFound := 0, codeViol := 0, c1 := 0, c2rows := 0, c3sds := 0, reread := 0,
                                      unrecovered := 0, alignLoss := 0 })

/-! ### The commands -/

/-- COMPRESS_RECORD (R299, R310). -/
def execCompressRecord (d : Deck) (slot : Option Nat) (damage : Damage) (s : State) : Host.Outcome State Fault Refusal :=
  s.onChip (compressRecordEffect d slot damage)
/-- DECOMPRESS_RECORD (R304, R311). -/
def execDecompressRecord (d : Deck) (bad : List Nat) (s : State) : Host.Outcome State Fault Refusal := s.onChip (decompressRecordEffect d bad)
/-- DATASET_READ (R371). -/
def execDatasetRead (d : Deck) (dataset : W64) (passed : List Passed) (s : State) : Host.Outcome State Fault Refusal :=
  s.onChip (datasetReadEffect d dataset passed)
/-- REREAD_PASS (R374). -/
def execRereadPass (d : Deck) (s : State) : Host.Outcome State Fault Refusal := s.onChip (rereadPassEffect d)
/-- READ_LINK_ALIGN (R360). -/
def execReadLinkAlign (d : Deck) (s : State) : Host.Outcome State Fault Refusal := s.onChip (readLinkAlignEffect d)
/-- READ_LINK_ALIGN_LOSS (R360). -/
def execReadLinkAlignLoss (d : Deck) (s : State) : Host.Outcome State Fault Refusal := s.onChip (readLinkAlignLossEffect d)
/-- TRACK_LOCK (R361). -/
def execTrackLock (d : Deck) (t : Fin 16) (skew : W16) (s : State) : Host.Outcome State Fault Refusal := s.onChip (trackLockEffect d t skew)
/-- TRACK_UNLOCK (R361, R362). -/
def execTrackUnlock (d : Deck) (t : Fin 16) (dropped : Bool) (s : State) : Host.Outcome State Fault Refusal :=
  s.onChip (trackUnlockEffect d t dropped)
/-- STR_CLEAR_COUNTS (R376). -/
def execStrClearCounts (d : Deck) (s : State) : Host.Outcome State Fault Refusal := s.onRegister (strClearCountsEffect d)

end Sys2Proof.Machine
end

