-- ==== Sys2Proof/Machine/Orphan.lean ====
section
/-! DEFINITION. The orphan rule and the end of a lease (06: R167–R169), and what they share with DECK_STOP and UNLOAD: the work of a deck that
ends early (07: R178, R181). -/

namespace Sys2Proof.Machine

/-! ### Work that ends early (R178, R181, R207) -/

/-- An open ticket and every byte it received are discarded (R205). -/
def Chip.dropTicket (ch : Chip) (i : Ctx) (t : Ticket) : Chip :=
  (((ch.releaseCells i.val t.record.chain).unreserve t.reserved)).modCtx i (fun x => { x with ticket := none })

/-- A raise that a command for deck d waits for. -/
def Raise.waitsFor (r : Raise) (d : Deck) : Bool := match r.decl, r.cmd with
  | .deck e _, some _ => decide (e = d)
  | _, _ => false

/-- The commands of deck d that wait for Kettle end with `st`, their raises withdrawn. -/
def Chip.dropRaises (ch : Chip) (d : Deck) (st : Stat) : Chip :=
  (ch.kettle.raising.filter (fun r => r.waitsFor d)).foldl (fun c r => match r.cmd with
    | some x => c.answerCmd x st []
    | none => c) (ch.modKettle (fun q => { q with raising := q.raising.filter (fun r => !r.waitsFor d) }))

/-- ERASE_FROM_HERE or FORMAT_TAPE is writing its structures. -/
def DeckAll.writesStructures (k : DeckAll) : Bool :=
  k.seq.op.any (fun o => decide (o.op = .eraseFromHere ∨ o.op = .formatTape) && o.moving)

/-- The running operation, what waits to begin and what waits for durability end with `st` (Table 7-3, R207). The deck's reading stops, and
so does the writing of ERASE_FROM_HERE's and FORMAT_TAPE's structures; host data goes on to tape. -/
def Chip.abortWork (ch : Chip) (d : Deck) (st : Stat) : Chip :=
  let c1 := (((((ch.dropRaises d st).modDeck d DeckAll.failTune).endOp d st []).endWaiters d st)).stopReading d
  if (ch.decks.get d).writesStructures then c1.haltEngines d else c1

/-! ### The orphan rule (R169, Table 6-8) -/

/-- The deck cannot write when it is orphaned (step 10): it does not stand at, or move over, a loaded tape. -/
def DeckAll.cannotMove (k : DeckAll) : Bool :=
  !k.io.cart || k.io.axes.toList.any (·.trip) || k.tape.label.isNone || (match k.seq.state with
    | .ready | .streaming | .stopping => false
    | _ => true)

/-- Steps 1 and 2: DRAINING, and the owner's executing commands on the deck end with `st` (a RESETTING owner gets no reply). -/
def Chip.orphanEnds (ch : Chip) (d : Deck) (i : Ctx) (byLease : Bool) : Chip :=
  let k := ch.decks.get d
  let report : DrainReport := { DrainReport.reset with
    byLease := byLease, noMove := k.cannotMove,
    lastDurable := match k.tape.durDs with
      | some n => n.setWidth 32
      | none => 0xFFFFFFFF }
  let c1 := (ch.setLock d { k.lock with state := .draining i, report := report }).post Ev.lockOrphaned .all 9 (deckObject d) (BitVec.ofNat 32 i.val)
  let c2 := (c1.abortWork d Stat.byLockLoss).endStops d Stat.byLockLoss
  if k.seq.state.inSequence then
    (c2.modDeck d (fun k => k.modSeq (fun q => { q with unloadAfter := false }))).drive d (fun q => { q with capSpeed := 0 })
  else if k.seq.state = .streaming ∧ k.cannotMove then c2.ask d .stop
  else c2

/-- Step 3: the record in flight is discarded: the open ticket's, and every record that Whisk has not finished. -/
def Chip.orphanTicket (ch : Chip) (d : Deck) (i : Ctx) : Chip :=
  let gone := (ch.waitingRecs i d).map (·.object)
  let ticket : Nat := match (ch.ctxs.get i).ticket with
    | some t => if t.deck = d then 1 else 0
    | none => 0
  let c1 := match (ch.ctxs.get i).ticket with
    | some t => if t.deck = d then ch.dropTicket i t else ch
    | none => ch
  (c1.dropWaiting d (some Stat.byLockLoss)).modDeck d (fun k => { k with
    staged := k.staged.map (fun s => s.renumber gone),
    tape := if gone.isEmpty then k.tape else { k.tape with object := k.tape.object - BitVec.ofNat 64 gone.length },
    lock := { k.lock with report := { k.lock.report with discarded := satU16 (k.lock.report.discarded.toNat + gone.length + ticket) } } })

/-- The first object number that no closed dataset holds any part of. -/
def DeckAll.cutAt (k : DeckAll) : W64 :=
  match k.roller.open_, k.staged with
  | some ds, _ => if ds.continues then ds.first + 1 else ds.first
  | none, s :: _ => if k.roller.placed = 0 then s.object else s.object + 1
  | none, [] => k.tape.object

/-- What stays of the open dataset under keep = 0: the part of a record that began in a closed dataset (Table 6-8, step 4). -/
def Dataset.keepLead (ds : Dataset) : Option Dataset :=
  match ds.continues, ds.entries with
  | true, .segment f l r p len n :: _ => some { ds with entries := [.segment f l r p len n], user := ds.user.take len }
  | _, _ => none

/-- Step 4 under keep = 0: every complete object not yet in a closed dataset is discarded. -/
def Chip.orphanDiscard (ch : Chip) (d : Deck) : Chip :=
  let k := ch.decks.get d
  let cut := k.cutAt
  let out (s : Staged) : Bool := decide (cut.toNat ≤ s.object.toNat)
  let all := k.staged ++ k.inFlight
  let n := (all.filter (fun s => out s && s.isRecord)).length
  let lead := k.roller.open_.bind Dataset.keepLead
  let c1 := (k.staged.filter out).foldl (fun c s => c.freeStaged d s) (ch.modDeck d (fun k => { k with
    staged := k.staged.filter (fun s => !out s), inFlight := k.inFlight.filter (fun s => !out s),
    poisoned := k.poisoned.filter (fun x => decide (x.object.toNat < cut.toNat)),
    tape := if all.isEmpty then k.tape else { k.tape with object := if cut.toNat < k.tape.object.toNat then cut else k.tape.object },
    lock := { k.lock with report := { k.lock.report with discarded := satU16 (k.lock.report.discarded.toNat + n) } },
    roller := { k.roller with
      open_ := lead, openBlocks := if lead.isSome then k.roller.openBlocks else [],
      next := if k.roller.open_.isSome ∧ lead.isNone then k.roller.next - 1 else k.roller.next,
      placed := if (k.staged.filter (fun s => !out s)).isEmpty then 0 else k.roller.placed } }))
  if lead.isSome then c1 else c1.dropBuffer d k.roller.openBlocks

/-- A HELD lock is orphaned (R169). -/
def Chip.orphan (ch : Chip) (d : Deck) (byLease : Bool) : Chip :=
  match (ch.decks.get d).lock.state with
  | .held i =>
    let c1 := (ch.orphanEnds d i byLease).orphanTicket d i
    (if (c1.decks.get d).lock.keep then c1 else c1.orphanDiscard d).drainStep d
  | _ => ch

/-! ### Leases (R167, R168) -/

/-- Pinches of one millisecond (R7). -/
def pinchesPerMs : Nat := 16000000

/-- A lease runs on deck d: held, with a lease, no command of the holder that names the deck executing. -/
def Chip.leaseRuns (ch : Chip) (d : Deck) : Bool :=
  let l := (ch.decks.get d).lock
  match l.holder with
  | none => false
  | some i => decide (l.lease ≠ 0) && !(ch.ctxs.get i).working d

/-- A lease has run out: the lock is orphaned, with its holder as the former owner (R167). -/
def Chip.expireLease (ch : Chip) (d : Deck) : Chip :=
  match (ch.decks.get d).lock.holder with
  | none => ch
  | some i => (ch.post Ev.leaseExpired (.ctx i) 9 (deckObject d) 0).orphan d true

/-- The expiry instant of deck d's lease has come. -/
def Chip.leaseOver (ch : Chip) (d : Deck) : Bool :=
  let l := (ch.decks.get d).lock
  ch.leaseRuns d && decide (l.lease.toNat * pinchesPerMs ≤ (ch.now - l.leaseAt).toNat)

/-- A command that names a deck finds its lock ORPHANED when it is taken at or after the expiry instant of the lease (R168). -/
def Chip.settleLease (ch : Chip) (d : Option Deck) : Chip := match d with
  | some d => if ch.leaseOver d then ch.expireLease d else ch
  | none => ch

end Sys2Proof.Machine
end

