-- ==== Sys2Proof/Machine/Ports.lean ====
section
/-! DEFINITION. What the packet ports of both kinds share: reply bytes, attention nibbles, the idle reply, presentation and the choice of
what is staged (05: R124–R137, R147–R149; 03: R79–R81; 06: R155). -/

namespace Sys2Proof.Machine

/-- A packet port answers: past the 10 ms row, RESET# not low, no power-fail closing, its domain on and its bank good (R464, R465,
R473, R476). -/
def Chip.portsUp (ch : Chip) (p : Port) : Bool :=
  ch.power.core && !ch.power.resetLow && ch.domOn (11 + p.val) && (if p.val < 4 then ch.power.vioe else ch.power.viom)

/-- The active enable of a port. -/
def Chip.portEnabled (ch : Chip) (p : Port) : Bool := if h : p.val < 4 then (ch.ehran.get ⟨p.val, h⟩).enabled else ch.spi.enabled

/-- Status bits [15:12] of a reply whose context field is `b` (R133, R134). -/
def Chip.nibbleFor (ch : Chip) (b : Byte) : BitVec 4 :=
  if ch.phase.isSome then 0xE
  else if h : b.toNat < 64 then (ch.ctxs.get ⟨b.toNat, h⟩).nibble else 0

/-- The bytes of a reply as sent, with its attention nibble, and its CRC-16 trailer when it carries one (R124, R126, R133). -/
def replyBytes (r : Reply) (nibble : BitVec 4) : List Byte :=
  let status := r.stat.toNat + 4096 * nibble.toNat
  let body := [r.type, r.ctx] ++ leBytes 2 r.tag.toNat ++ leBytes 2 status ++ leBytes 2 r.payload.length ++ r.payload
  if r.trailer then body ++ leBytes 2 (crc16 body).toNat else body

/-- Open contexts bound to port p (R136). -/
def Chip.boundTo (ch : Chip) (p : Port) : List Ctx :=
  allCtxs.filter (fun i => (ch.ctxs.get i).isOpen && decide ((ch.ctxs.get i).port = p))

/-- The lowest-numbered context of the highest summary nibble, of those with ATN 1 (R136). -/
def Chip.loudest (ch : Chip) (l : List Ctx) : Option Ctx :=
  l.foldl (fun best i =>
    let n := (ch.ctxs.get i).nibble.toNat
    match best with
    | none => if 8 ≤ n then some i else none
    | some b => if (ch.ctxs.get b).nibble.toNat < n then some i else best) none

/-- The idle reply from the present state (R136). -/
def Chip.idleBytes (ch : Chip) (p : Port) : List Byte :=
  let bound := ch.boundTo p
  let loud := ch.loudest bound
  let ctx : Byte := match loud with
    | some i => BitVec.ofNat 8 i.val
    | none => match bound with
      | i :: _ => BitVec.ofNat 8 i.val
      | [] => 0xFF
  let n := (bound.filter (fun i => decide (8 ≤ (ch.ctxs.get i).nibble.toNat))).length
  let st : Stat := match ch.phase with
    | some s => s
    | none => if ch.cook.safe then Stat.safe else Stat.done
  replyBytes { type := 0x82, ctx := ctx, tag := BitVec.ofNat 16 n, stat := st, payload := [], trailer := false, time := 0, fetch := none }
    (ch.nibbleFor ctx)

/-- The reply that a read at a reply boundary presents (R79), with its bytes fixed now. -/
def Chip.present (ch : Chip) (p : Port) : TxReply :=
  let o := ch.replyOut p
  match o.wire, o.staged with
  | r :: _, _ => { source := .wire, bytes := replyBytes r (ch.nibbleFor r.ctx), done := 0 }
  | [], r :: _ => { source := .staged, bytes := replyBytes r (ch.nibbleFor r.ctx), done := 0 }
  | [], [] => { source := .idle, bytes := ch.idleBytes p, done := 0 }

/-- The reply being read: the partly read one, or the next (R79, R81). -/
def Chip.current (ch : Chip) (p : Port) : TxReply :=
  match (ch.replyOut p).cur with
  | some t => t
  | none => ch.present p

/-- A reply read to its last transfer leaves its slot (R84, R80). -/
def ReplyOut.finished (o : ReplyOut) (t : TxReply) : ReplyOut :=
  match t.source with
  | .wire => { o with wire := o.wire.drop 1, cur := none }
  | .staged => { o with staged := o.staged.drop 1, cur := none }
  | .idle => { o with cur := none }

/-! ### Staging (R147, R148) -/

/-- The reply of a context that entered its queues first; RPL before RDATA of decks 0 to 3 at equal times (R147). Queue 0 is RPL,
1 + d RDATA of deck d. -/
def Context.oldest (x : Context) : Option (Nat × Reply) :=
  let heads : List (Nat × Reply) :=
    (match x.rpl with
     | r :: _ => [(0, r)]
     | [] => []) ++
    (allDecks.filterMap (fun (d : Deck) => match x.rdata.get d with
      | r :: _ => some (d.val + 1, r)
      | [] => none))
  heads.foldl (fun best h =>
    match best with
    | none => some h
    | some b => if h.2.time.toNat < b.2.time.toNat then some h else best) none

/-- The context whose reply is staged next: in rotation after the one staged last (R148). A CLOSING context's close completion
is staged too (Table 6-2). -/
def Chip.nextStaged (ch : Chip) (p : Port) : Option Ctx :=
  let start := ch.rotor.get p
  ((List.range 64).map (fun n => Fin.ofNat 64 (start + 1 + n))).find? (fun i =>
    let x := ch.ctxs.get i
    decide (x.state ≠ .closed) && decide (x.port = p) && x.oldest.isSome)

/-! ### Port settings (R86–R88, R103) -/

/-- The rate a port declares: as set, or the wire maximum, 0 when disabled (R88; 04: R103). -/
def PortCfg.rate (g : PortCfg) (wireMax : Nat) : BitVec 6 :=
  if ¬ g.enable then 0
  else if g.declRate = 0 ∨ wireMax < g.declRate.toNat then BitVec.ofNat 6 wireMax else g.declRate

end Sys2Proof.Machine
end

