-- ==== Sys2Proof/Machine/DeckCmds.lean ====
section
/-! DEFINITION. What the deck, loop, record and positioning opcodes do once Tables 7-2 and 8-2 let them (07: R187–R195; 08: R201–R221),
and the staging of replies (05: R143, R147, R148). -/

namespace Sys2Proof.Machine

/-! ### Declarations (R203, R219, R489; 18: Table 18-3) -/

/-- A write declaration is in force. -/
def loadWrites (l : DeckLoad) : Bool := decide (l.tracks ≠ 0) && !l.reading

/-- The deck's load with a write declared (R203, R221). -/
def writeLoad (old : DeckLoad) (p : Profile) (tracks : Nat) (compress : Bool) : DeckLoad :=
  { old with tracks := BitVec.ofNat 5 tracks, reading := false, compress := compress, decompress := false, cellRate := BitVec.ofNat 9 p.cellRateMax }

/-- The deck's load with a read declared. Table 2-4 adds the decompress engine "with the data compressed", which no one knows before the
data is read: the model declares it for every read (DESIGN CHOICE, log entry 83). -/
def readLoad (old : DeckLoad) (p : Profile) (tracks : Nat) : DeckLoad :=
  { old with tracks := BitVec.ofNat 5 tracks, reading := true, compress := false, decompress := true, cellRate := BitVec.ofNat 9 p.cellRateMax }

/-- The load a command declares at order 11; none when it declares nothing. -/
def Chip.loadFor (ch : Chip) (cmd : Cmd) (d : Deck) : Option DeckLoad :=
  let k := ch.decks.get d
  let old := ch.kettle.decks.get d
  match k.profile with
  | none => none
  | some p =>
    let tracks : Nat := match k.tape.label with
      | some l => l.tracks
      | none => 0
    let starts : Bool := match cmd.op with
      | .load | .home => !k.loops.running
      | .unload => !k.loops.running && decide (k.seq.state = .faultStop)
      | _ => false
    if starts then some { old with loopPeriod := BitVec.ofNat 12 p.loopPeriod }
    else if cmd.op.writeSide ∧ k.tape.declared ≠ some true then
      some (writeLoad old p (if cmd.op = .formatTape then (byteAt cmd.payload 1).toNat else tracks) k.compress)
    else if cmd.op.readSide ∧ k.tape.declared ≠ some false then some (readLoad old p tracks)
    else if cmd.op = .compressionSet ∧ byteAt cmd.payload 1 = 1#8 ∧ k.seq.state = .streaming ∧ loadWrites old then some { old with compress := true }
    else none

/-- Kettle turned a declaration away: LOAD_UNCOVERED goes out and the command is refused (R60). -/
def Chip.uncovered (ch : Chip) (cmd : Cmd) (d : Deck) : Chip :=
  (ch.postDeck d Ev.loadUncovered 152 0).answerCmd cmd Stat.loadUncovered []

/-! ### Deck operations -/

/-- A deck operation begins to run; its base state is where it began (R178, R459). -/
def Chip.setOp (ch : Chip) (d : Deck) (cmd : Cmd) (flushing : Bool) : Chip :=
  let rest : Int := if cmd.op = .space then (BitVec.ofNat 32 (leAt cmd.payload 4 4)).toInt else 0
  ch.modDeck d (fun k => k.modSeq (fun q => { q with
    base := q.baseState,
    op := some { op := cmd.op, ctx := cmd.ctx, tag := cmd.tag, rcrc := cmd.rcrc, payload := cmd.payload, flushing := flushing, moving := false,
                 delivered := 0, rest := rest, objects := 0, c2 := 0, c2Data := 0, c3 := 0, rereads := 0, poisoned := 0, silent := false } }))

/-- LOAD (R188, R449). -/
def Chip.actLoad (ch : Chip) (cmd : Cmd) (d : Deck) : Chip := (ch.setOp d cmd false).ask d (.load false)

/-- A deck operation begins, after the flush of R202 when one is needed. -/
def Chip.actOp (ch : Chip) (cmd : Cmd) (d : Deck) : Chip :=
  if ch.flushNeeded d then (ch.setOp d cmd true).flushStep d else (ch.setOp d cmd false).begin d

/-- FORMAT_TAPE never flushes: staged objects refuse it (R218). -/
def Chip.actFormat (ch : Chip) (cmd : Cmd) (d : Deck) : Chip :=
  if 0 < ch.stagedObjects d then ch.answerCmd cmd Stat.deckState [] else (ch.setOp d cmd false).begin d

/-- UNLOAD ends what runs, and proceeds (R178, R188, R196, R456, R458). -/
def Chip.actUnload (ch : Chip) (cmd : Cmd) (d : Deck) : Chip :=
  let k := ch.decks.get d
  let c1 := ch.abortWork d Stat.byUnload
  match k.seq.state with
  | .faultStop => (c1.setOp d cmd false).ask d (.load true)
  | .unloading => c1.setOp d cmd false
  | .homing =>
    if k.seq.base = .ready then ((((c1.modDeck d DeckAll.loseHome).setDeckState d .ready).setOp d cmd true)).flushStep d
    else (c1.setOp d cmd false).modDeck d (fun k => k.modSeq (fun q => { q with unloadAfter := true }))
  | .thread | .tensionUp | .calibrate | .scan =>
    (c1.setOp d cmd false).modDeck d (fun k => k.modSeq (fun q => { q with unloadAfter := true }))
  | _ => (c1.setOp d cmd true).flushStep d

/-- A DECK_STOP waits for rest. -/
def Chip.waitStop (ch : Chip) (cmd : Cmd) (d : Deck) (already : Bool) : Chip :=
  ch.modDeck d (fun k => k.modSeq (fun q => { q with
    stopAt := k.roller.next,
    stopWaiters := q.stopWaiters ++ [{ ctx := cmd.ctx, tag := cmd.tag, rcrc := cmd.rcrc, already := already, failed := false }] }))

/-- DECK_STOP (R188, R190, R196, R453): what runs ends, a write with a padded close, and the deck comes to rest. -/
def Chip.actStop (ch : Chip) (cmd : Cmd) (d : Deck) : Chip :=
  let k := ch.decks.get d
  let ran : Bool := k.seq.op.isSome || ch.raisePending d
  let c1 := ch.abortWork d Stat.byStop
  match k.seq.state with
  | .faultStop | .safe => if k.seq.rest then c1.answerCmd cmd Stat.already [] else c1.waitStop cmd d true
  | .dormant | .empty | .present | .ready => c1.answerCmd cmd (if ran then Stat.done else Stat.already) []
  | .streaming =>
    if k.writesStructures then (c1.waitStop cmd d false).controlledStop d else ((c1.paddedClose d).waitStop cmd d false).stopIfDue d
  | .stopping => c1.waitStop cmd d false
  | .thread | .tensionUp =>
    ((c1.modDeck d (fun k => k.modSeq (fun q => { q with unloadAfter := false }))).waitStop cmd d false).drive d (fun q => { q with tension := 0 })
  | .homing | .calibrate | .scan | .unloading =>
    ((c1.modDeck d (fun k => k.modSeq (fun q => { q with unloadAfter := false }))).waitStop cmd d false).drive d (fun q => { q with capSpeed := 0 })

/-! ### Loops, trips, policy, compression, profile -/

/-- LOOP_OPEN: the following-error count returns to 0 (R193, Table 16-8). -/
def Chip.actLoopOpen (ch : Chip) (cmd : Cmd) (d : Deck) : Chip :=
  let k := slotOf cmd.payload
  if (ch.slot d k).state = .open then ch.answerCmd cmd Stat.already []
  else (ch.modSlot d k (fun s => { s with state := .open, feCount := 0 })).answerCmd cmd Stat.done []

/-- LOOP_CLOSE: while the loops run, r = x and the slot is frozen at its next sample (R193, R401, R404). -/
def Chip.actLoopClose (ch : Chip) (cmd : Cmd) (d : Deck) : Chip :=
  let k := slotOf cmd.payload
  if (ch.slot d k).state = .closed then ch.answerCmd cmd Stat.already []
  else
    let run := (ch.decks.get d).loops.running
    (ch.modSlot d k (fun s => { s with state := .closed, fresh := s.fresh || run, reseed := s.reseed || run })).answerCmd cmd Stat.done []

/-- LOOP_WRITE (R192, R193). -/
def Chip.actLoopWrite (ch : Chip) (cmd : Cmd) (d : Deck) : Chip :=
  let k := slotOf cmd.payload
  if (ch.slot d k).state ≠ .open then ch.answerCmd cmd Stat.slotClosed []
  else (ch.writeSlot d k (loopEntries cmd.payload)).answerCmd cmd Stat.done []

/-- LOOP_READ (R192). -/
def Chip.actLoopRead (ch : Chip) (cmd : Cmd) (d : Deck) : Chip :=
  let k := slotOf cmd.payload
  ch.answerCmd cmd Stat.done ((loopOffsets cmd.payload).flatMap (fun o =>
    leBytes 4 (((ch.decks.get d).loops.readSlot k o).getD 0).toNat))

/-- AUTOTUNE_RESULT (R193, Table 7-8). The spec gives no order for a slot that is CLOSED and has no result to apply: the model gives
SLOT_CLOSED first (DESIGN CHOICE, log entry 82). -/
def Chip.actTuneResult (ch : Chip) (cmd : Cmd) (d : Deck) : Chip :=
  let k := slotOf cmd.payload
  let s := ch.slot d k
  if byteAt cmd.payload 2 = 0#8 then ch.answerCmd cmd Stat.done s.tune.bytes
  else if s.state ≠ .open then ch.answerCmd cmd Stat.slotClosed []
  else if s.tune.state ≠ .done then ch.answerCmd cmd Stat.deckState []
  else
    let c1 := ch.modSlot d k (fun s => { s with
      h := s.tune.propH, ki := s.tune.propKi, trim := s.tune.propTrim, tune := { s.tune with state := .applied } })
    c1.answerCmd cmd Stat.done (c1.slot d k).tune.bytes

/-- TRIP_CLEAR: all the latches of the mask or none (R194). -/
def Chip.actTripClear (ch : Chip) (cmd : Cmd) (d : Deck) : Chip :=
  let mask := byteAt cmd.payload 1
  let axes := allDecks.filter (fun (a : Axis) => mask.getLsbD a.val)
  let io := (ch.decks.get d).io
  if axes.any (fun a => (io.axes.get a).tripIn) then ch.answerCmd cmd Stat.tripActive []
  else if ¬ axes.any (fun a => (io.axes.get a).trip) then ch.answerCmd cmd Stat.already []
  else
    (ch.modDeck d (fun k => ({ k with io := { k.io with axes := axes.foldl (fun v a =>
        let x := v.get a
        v.set a (if x.trip then { x with trip := false, mode := .off, nextMode := .off } else x)) k.io.axes } }).askModes)).answerCmd cmd Stat.done []

/-- SPEED_POLICY (R195): waits for the next dataset boundary. -/
def Chip.actPolicy (ch : Chip) (cmd : Cmd) (d : Deck) : Chip :=
  let b := cmd.payload
  let pol : SpeedPolicy := { fixed := decide (byteAt b 1 = 1#8), stallMs := if leAt b 2 2 = 0 then 50 else leAt b 2 2, floor := leAt b 4 2,
                             ceiling := leAt b 6 2, fixedAt := leAt b 8 2 }
  (ch.modMatcher d (fun m => { m with next := some pol })).answerCmd cmd Stat.done []

/-- COMPRESSION_SET (R219). -/
def Chip.actCompression (ch : Chip) (cmd : Cmd) (d : Deck) : Chip :=
  let on := decide (byteAt cmd.payload 1 = 1#8)
  if (ch.decks.get d).compress = on then ch.answerCmd cmd Stat.already []
  else (ch.modDeck d (fun k => { k with compress := on })).answerCmd cmd Stat.done []

/-- PROFILE_LOAD (R220): a tape is not loaded in the states that permit it; the policy returns to its defaults. -/
def Chip.actProfile (ch : Chip) (cmd : Cmd) (d : Deck) : Chip :=
  (ch.modDeck d (fun k => { k with
    profile := some (parseProfile (cmd.payload.drop 4)),
    matcher := { k.matcher with policy := .reset, next := none } })).answerCmd cmd Stat.done []

/-! ### Writing (R204–R210) -/

/-- Datasets filled so far, with the entries and the user-area bytes of the one being filled (R322, R324). -/
structure Packing where
  full    : Nat
  entries : Nat
  bytes   : Nat
  deriving DecidableEq, Repr

/-- An object more: a stored form of `n` bytes, or filemarks, which take an entry and no bytes. -/
def Packing.add (p : Packing) (n : Nat) : Packing :=
  let total := p.bytes + n
  let entries := if userArea < total then bit (total % userArea != 0) else p.entries + 1
  if total ≠ 0 ∧ total % userArea = 0 ∨ entries = maxEntries then { full := p.full + (total - 1) / userArea + 1, entries := 0, bytes := 0 }
  else { full := p.full + total / userArea, entries := entries, bytes := total % userArea }

/-- Datasets taken, the one being filled too. -/
def Packing.sets (p : Packing) : Nat := p.full + bit (p.entries != 0)

/-- Stored bytes of an object in staging. -/
def Staged.size : Staged → Nat
  | .stored r => r.size
  | .marks .. => 0

/-- Stored bytes of the objects of the deck that are not in a dataset yet, in order; a record that waits for Whisk counts uncompressed (R208). -/
def Chip.sizesToWrite (ch : Chip) (d : Deck) : List Nat :=
  let k := ch.decks.get d
  let staged := match k.staged with
    | s :: rest => (s.size - k.roller.placed) :: rest.map Staged.size
    | [] => []
  staged ++ (match k.lock.owner with
    | some i => (ch.waitingRecs i d).map (fun r => r.length + 4)
    | none => [])

/-- The partition has too little tape left for the staged objects, an object of `n` stored bytes more, and one dataset (R208). -/
def Chip.partitionFull (ch : Chip) (d : Deck) (n : Nat) : Bool :=
  let k := ch.decks.get d
  match k.profile, k.tape.label with
  | some p, some l =>
    let closed := (k.roller.buffers.filter (fun b => !b.started)).length
    let begun : Packing := match k.roller.open_ with
      | some ds => { full := closed, entries := ds.entries.length, bytes := ds.user.length }
      | none => { full := closed, entries := 0, bytes := 0 }
    let sets := ((ch.sizesToWrite d ++ [n]).foldl Packing.add begun).sets + 1
    decide (k.leftInPartition p l < sets * l.tds)
  | _, _ => false

/-- The next ticket number (R204). -/
def nextTicket (t : W16) : W16 := if t = 0xFFFF then 1 else t + 1

/-- Record bytes that a ticket has received. -/
def Rec.received (r : Rec) : Nat := r.parts.foldl (· + ·) 0

/-- WRITE_RECORD with abandon (R205). -/
def Chip.actAbandon (ch : Chip) (cmd : Cmd) (d : Deck) : Chip :=
  let reply (n : W16) (len : Nat) (x : W64) : List Byte := leBytes 2 n.toNat ++ [0, 0] ++ leBytes 4 len ++ leBytes 8 x.toNat
  match (ch.ctxs.get cmd.ctx).ticket with
  | some t =>
    if t.deck = d then (ch.dropTicket cmd.ctx t).answerCmd cmd Stat.done (reply t.number t.record.received t.record.object)
    else ch.answerCmd cmd Stat.already (reply 0 0 (ch.decks.get d).tape.object)
  | none => ch.answerCmd cmd Stat.already (reply 0 0 (ch.decks.get d).tape.object)

/-- WRITE_RECORD (R204, R205, R208, R209). -/
def Chip.actWriteRecord (ch : Chip) (cmd : Cmd) (d : Deck) : Chip :=
  let n := leAt cmd.payload 4 4
  let flags := byteAt cmd.payload 1
  if flags.getLsbD 2 then ch.actAbandon cmd d
  else if ch.partitionFull d (n + 4) then ch.answerCmd cmd Stat.endOfTape []
  else
    let c1 := ch.truncate d
    let k := c1.decks.get d
    let num := nextTicket k.tape.tickets
    let r : Rec := { object := k.tape.object, length := n, parts := [], raw := flags.getLsbD 0 || !k.compress, durable := flags.getLsbD 1,
                     tag := cmd.tag, rcrc := cmd.rcrc, poisoned := false, silent := false, chain := [] }
    let c2 := (c1.modTape d (fun t => { t with tickets := num })).modCtx cmd.ctx (fun x => { x with
      ticket := some { deck := d, number := num, record := r, reserved := 0 } })
    c2.answerCmd cmd Stat.done (leBytes 2 num.toNat ++ [0, 0] ++ leBytes 4 n ++ leBytes 8 r.object.toNat)

/-- How a write completes that does not wait (R207). -/
def Chip.bufferedStat (ch : Chip) (d : Deck) : Stat :=
  if (ch.decks.get d).tape.beyondEw then Stat.earlyWarning else Stat.buffered

/-- A completion waits until objects from `a` up to `b` are durable (R207, R210). -/
def Chip.waitDurable (ch : Chip) (op : Op) (i : Ctx) (tag : W16) (rcrc : Bool) (d : Deck) (a b : W64) (reply : List Byte) : Chip :=
  (ch.modDeck d (fun k => k.modSeq (fun q => { q with waiters := q.waiters ++
    [{ op := op, ctx := i, tag := tag, rcrc := rcrc, from_ := a, upTo := b, reply := reply, rewrites := 0, skips := 0, bad := false,
       compress := false, atRoller := false, tags := [] }] }))).settle d

/-- The objects accepted so far start the restart measurement (R389). -/
def Chip.accepted (ch : Chip) (d : Deck) : Chip :=
  ch.modMatcher d (fun m => { m with restAt := match m.restAt with
    | some t => some t
    | none => some ch.now })

/-- A complete record enters its WDATA queue, or is held beside a full one (R207, R493). -/
def Chip.queueRecord (ch : Chip) (cmd : Cmd) (d : Deck) (r : Rec) (reply : List Byte) : Chip :=
  let x := ch.ctxs.get cmd.ctx
  let full := decide (x.depth (Fin.ofNat 11 (3 + d.val)) ≤ (x.wdata.get d).length) || ch.held.any (fun y => y.1 == wdataQueue cmd.ctx d)
  if full then ch.hold (wdataQueue cmd.ctx d) 8 (.wdata r reply)
  else
    let c1 := ch.modCtx cmd.ctx (fun x => { x with wdata := x.wdata.set d (x.wdata.get d ++ [r]) })
    if r.durable then c1.waitDurable .writeData cmd.ctx cmd.tag cmd.rcrc d r.object (r.object + 1) reply
    else c1.answerCmd cmd (c1.bufferedStat d) reply

/-- What Ladle refused a WRITE_DATA, as its completion (R206, R237). -/
def LadleAnswer.refusesData (a : LadleAnswer) : Stat := a.refusal.getD Stat.poolEmpty

/-- The merge buffer of a port. -/
def portBuffer (p : Port) : Fin 9 := Fin.castLE (by omega) p

/-- The payload of a WRITE_DATA goes into its new cells by way of the port's merge buffer, which is flushed when the transfer ends, before the
record can be posted (R282–R284). -/
def Chip.storeData (ch : Chip) (i : Ctx) (cells : List Nat) (bytes : List Byte) : Chip :=
  let b := portBuffer (ch.ctxs.get i).port
  (ch.mergeRuns b [] (some i) (wordRuns ((chainBytes cells).take bytes.length)) bytes).flushBuffer b []

/-- WRITE_DATA: judged as a whole, then its cells are drawn, as many reserved for Whisk, and its bytes stored (R206, R207, R490). -/
def Chip.actWriteData (ch : Chip) (cmd : Cmd) (d : Deck) (t : Ticket) : Chip :=
  let n := cmd.payload.length
  let r := t.record
  let k := cellsFor n
  let reserve := k + (if r.chain.isEmpty then 1 else 0)
  let i := cmd.ctx
  if r.length < r.received + n then ch.answerCmd cmd Stat.badField []
  else if (ch.ctxs.get i).cellLimit < ch.ladle.cellsHeld i.val + k then ch.answerCmd cmd Stat.cellQuota []
  else
    let c0 := ch.sweepCells (ch.ladle.openCells.take (k + reserve))
    if c0.ladle.cellsFree < k + reserve + pantryCells then c0.answerCmd cmd Stat.poolEmpty []
    else
      let c1 := match r.chain with
        | [] => c0.allocCells i.val i.val k false
        | head :: _ => c0.extendChain i.val (256 * head) k false
      match c1.ladleAnswer with
      | .done a =>
        let chain := c1.chainAt a
        let c2 := (c1.modLadle (fun l => Ladle.noteLow { l with reserved := l.reserved + reserve })).storeData i (chain.drop r.chain.length) cmd.payload
        let r1 := { r with parts := r.parts ++ [n], chain := chain, tag := cmd.tag, rcrc := cmd.rcrc }
        let final := decide (r1.received = r.length)
        let reply := leBytes 2 t.number.toNat ++ [BitVec.ofNat 8 (bit final), 0] ++ leBytes 4 r1.received ++ leBytes 8 r.object.toNat
        if final then
          let c3 := (c2.modCtx i (fun x => { x with ticket := none })).modTape d (fun p => { p with object := r.object + 1 })
          (c3.accepted d).queueRecord cmd d r1 reply
        else
          ((c2.accepted d).modCtx i (fun x => { x with ticket := some { t with record := r1, reserved := t.reserved + reserve } })).answerCmd cmd
            Stat.done reply
      | a => c1.answerCmd cmd a.refusesData []

/-- WRITE_FILEMARK (R205, R207, R208). -/
def Chip.actFilemark (ch : Chip) (cmd : Cmd) (d : Deck) : Chip :=
  if ch.partitionFull d 0 then ch.answerCmd cmd Stat.endOfTape []
  else
    let n := leAt cmd.payload 2 2
    let durable := (byteAt cmd.payload 1).getLsbD 1
    let c1 := ch.truncate d
    let x := (c1.decks.get d).tape.object
    let after := x + BitVec.ofNat 64 n
    let reply := leBytes 8 x.toNat ++ leBytes 2 n ++ List.replicate 6 0#8
    let c2 := (c1.modDeck d (fun k => { k with
      staged := k.staged ++ [.marks cmd.ctx x n durable cmd.tag cmd.rcrc], tape := { k.tape with object := after } })).accepted d
    if durable then c2.waitDurable .writeFilemark cmd.ctx cmd.tag cmd.rcrc d x after reply
    else (c2.settle d).answerCmd cmd (c2.bufferedStat d) reply

/-- FLUSH (R210). -/
def Chip.actFlush (ch : Chip) (cmd : Cmd) (d : Deck) : Chip :=
  let k := ch.decks.get d
  if ch.stagedObjects d = 0 then ch.answerCmd cmd Stat.already (k.flushReply 0 0)
  else ch.waitDurable .flush cmd.ctx cmd.tag cmd.rcrc d k.tape.durObj k.tape.object []

/-! ### Order 11 and the effect -/

/-- What refuses WRITE_RECORD and WRITE_FILEMARK for the sake of tickets (R204, Table 8-10). -/
def Chip.ticketRefuses (ch : Chip) (cmd : Cmd) (d : Deck) : Option Stat :=
  match cmd.op, (ch.ctxs.get cmd.ctx).ticket with
  | .writeRecord, some t =>
    if (byteAt cmd.payload 1).getLsbD 2 then none else if t.deck = d then some Stat.deckState else some Stat.ctxState
  | .writeFilemark, some t => if t.deck = d then some Stat.deckState else none
  | _, _ => none

/-- The load that an opcode has declared, or found declared, since LOAD (R203). -/
def Chip.noteDeclared (ch : Chip) (op : Op) (d : Deck) : Chip :=
  if op.writeSide ∨ op.readSide then ch.modTape d (fun t => { t with declared := some op.writeSide }) else ch

/-- The effect of a command that every check has passed. -/
def Chip.effect (ch : Chip) (cmd : Cmd) (d : Deck) : Chip :=
  match cmd.op with
  | .load => ch.actLoad cmd d
  | .unload => ch.actUnload cmd d
  | .formatTape => ch.actFormat cmd d
  | .home | .autotune | .readRecord | .readMore | .locate | .space | .rewind | .eraseFromHere | .verify => ch.actOp cmd d
  | .deckStop => ch.actStop cmd d
  | .loopOpen => ch.actLoopOpen cmd d
  | .loopClose => ch.actLoopClose cmd d
  | .loopWrite => ch.actLoopWrite cmd d
  | .loopRead => ch.actLoopRead cmd d
  | .autotuneResult => ch.actTuneResult cmd d
  | .tripClear => ch.actTripClear cmd d
  | .speedPolicy => ch.actPolicy cmd d
  | .writeRecord => ch.actWriteRecord cmd d
  | .writeData => match (ch.ctxs.get cmd.ctx).ticket with
    | some t => ch.actWriteData cmd d t
    | none => ch.answerCmd cmd Stat.noTicket []
  | .writeFilemark => ch.actFilemark cmd d
  | .flush => ch.actFlush cmd d
  | .positionRead => ch.answerCmd cmd Stat.done (ch.positionBlock d)
  | .compressionSet => ch.actCompression cmd d
  | .profileLoad => ch.actProfile cmd d
  | .ctxOpen | .ctxClose | .ctxReset | .eventsFetch | .statusPeek | .queueConfig | .quotaQuery | .timeRead | .deckLock | .deckUnlock
  | .deckAdopt | .deckStatus => ch

/-- A command takes effect once order 11 lets it. -/
def Chip.act (ch : Chip) (cmd : Cmd) (d : Deck) : Chip := (ch.noteDeclared cmd.op d).effect cmd d

/-- The deck draws its standing buffer with a write or read declaration; false when Ladle cannot supply it (R489). -/
def Chip.drawStanding (ch : Chip) (cmd : Cmd) (d : Deck) : Chip × Bool :=
  if (cmd.op.writeSide ∨ cmd.op.readSide) ∧ (ch.decks.get d).standing = [] then
    match ch.drawBlocks (rollerOwner d) false 3 [] with
    | (c1, some bs) => (c1.modDeck d (fun k => { k with standing := bs }), true)
    | (c1, none) => (c1, false)
  else (ch, true)

/-- Order 11, then the effect (R60, R203, R489). A raise that waits for Kettle leaves the command executing. -/
def Chip.declareAndAct (ch : Chip) (cmd : Cmd) (d : Deck) : Chip :=
  match ch.loadFor cmd d with
  | none => ch.act cmd d
  | some l =>
    match ch.drawStanding cmd d with
    | (c1, false) => c1.answerCmd cmd Stat.poolEmpty []
    | (c1, true) =>
      match c1.declare (.deck d l) (some cmd) with
      | (c2, .applied) => c2.act cmd d
      | (c2, .waiting) => c2
      | (c2, .rejected) => c2.uncovered cmd d

/-- The domains of deck d that a command needs, as places in 48 + 6d + j (Table 19-3). -/
def Op.engines : Op → List Nat
  | .writeRecord | .writeData => [0, 2, 4, 5]
  | .writeFilemark | .flush | .eraseFromHere | .formatTape => [2, 4, 5]
  | .readRecord | .readMore => [1, 3, 5]
  | .verify | .locate | .space => [3, 5]
  | .load | .unload | .home | .autotune | .rewind => [5]
  | _ => []

/-- A command needs a deck engine that is held (R500). -/
def Chip.engineHeld (ch : Chip) (op : Op) (d : Deck) : Bool := op.engines.any (fun j => ch.log.held.contains (engineUnit d j))

/-- The Cook runs a taken command of deck d from order 3 on. -/
def Chip.run (ch : Chip) (cmd : Cmd) (d : Deck) : Chip :=
  match ch.judge cmd d with
  | some st =>
    if st = Stat.already ∧ cmd.op = .load then ch.answerCmd cmd st (ch.decks.get d).seq.loadReply else ch.answerCmd cmd st []
  | none =>
    if ch.engineHeld cmd.op d then ch.answerCmd cmd Stat.engineFault []
    else match ch.ticketRefuses cmd d with
      | some st => ch.answerCmd cmd st []
      | none => ch.declareAndAct cmd d

/-- A deck opcode is taken: orders 1 and 2, then the rest; a command that names a deck executes from now on (R167, R180). -/
def deckEffect (op : Op) (h : CmdHdr) (p : List Byte) (ch : Chip) : Chip :=
  let cmd := cmdOf op h p
  match ch.take cmd with
  | none => ch
  | some c0 =>
    let c1 := (c0.settleLease (deckOf p)).execute cmd (deckOf p)
    if reservedBad op p then c1.answerCmd cmd Stat.reservedNonzero []
    else if c1.rangeBad op p then c1.answerCmd cmd Stat.badField []
    else match deckOf p with
      | some d => c1.run cmd d
      | none => c1.answerCmd cmd Stat.badField []

/-- Port data movement can store a payload of n bytes for context i: its domain is on, and F-BANK serves the banks of the cells that it
would draw and of what its merge buffer holds. -/
def Chip.canStore (ch : Chip) (i : Ctx) (n : Nat) : Bool :=
  let b := portBuffer (ch.ctxs.get i).port
  ch.mergeOn b && ch.cellsServed (ch.ladle.openCells.take (cellsFor n)) && (ch.merge.get b).all (fun e => ch.bankServes e.word)

/-- WRITE_DATA is taken: its deck is the one of the context's open ticket (R200). It waits while its bytes cannot be stored. -/
def writeDataEffect (h : CmdHdr) (p : List Byte) (ch : Chip) : Chip :=
  let cmd := cmdOf .writeData h p
  if ¬ ch.canStore h.ctx p.length then ch
  else match ch.take cmd with
  | none => ch
  | some c0 =>
    match (c0.ctxs.get h.ctx).ticket with
    | none => (c0.execute cmd none).answerCmd cmd Stat.noTicket []
    | some t => ((c0.settleLease (some t.deck)).execute cmd (some t.deck)).run cmd t.deck

/-! ### The commands -/

/-- LOAD (R188, R449). -/
def execLoad (h : CmdHdr) (p : List Byte) (s : State) : Host.Outcome State Fault Refusal := s.onChip (deckEffect .load h p)
/-- UNLOAD (R188, R458). -/
def execUnload (h : CmdHdr) (p : List Byte) (s : State) : Host.Outcome State Fault Refusal := s.onChip (deckEffect .unload h p)
/-- HOME (R188, R434). -/
def execHome (h : CmdHdr) (p : List Byte) (s : State) : Host.Outcome State Fault Refusal := s.onChip (deckEffect .home h p)
/-- DECK_STOP (R188, R190). -/
def execDeckStop (h : CmdHdr) (p : List Byte) (s : State) : Host.Outcome State Fault Refusal := s.onChip (deckEffect .deckStop h p)
/-- LOOP_OPEN (R193). -/
def execLoopOpen (h : CmdHdr) (p : List Byte) (s : State) : Host.Outcome State Fault Refusal := s.onChip (deckEffect .loopOpen h p)
/-- LOOP_CLOSE (R193). -/
def execLoopClose (h : CmdHdr) (p : List Byte) (s : State) : Host.Outcome State Fault Refusal := s.onChip (deckEffect .loopClose h p)
/-- LOOP_WRITE (R192, R193). -/
def execLoopWrite (h : CmdHdr) (p : List Byte) (s : State) : Host.Outcome State Fault Refusal := s.onChip (deckEffect .loopWrite h p)
/-- LOOP_READ (R192). -/
def execLoopRead (h : CmdHdr) (p : List Byte) (s : State) : Host.Outcome State Fault Refusal := s.onChip (deckEffect .loopRead h p)
/-- AUTOTUNE (R193, R409). -/
def execAutotune (h : CmdHdr) (p : List Byte) (s : State) : Host.Outcome State Fault Refusal := s.onChip (deckEffect .autotune h p)
/-- AUTOTUNE_RESULT (R193). -/
def execAutotuneResult (h : CmdHdr) (p : List Byte) (s : State) : Host.Outcome State Fault Refusal := s.onChip (deckEffect .autotuneResult h p)
/-- TRIP_CLEAR (R194). -/
def execTripClear (h : CmdHdr) (p : List Byte) (s : State) : Host.Outcome State Fault Refusal := s.onChip (deckEffect .tripClear h p)
/-- SPEED_POLICY (R195). -/
def execSpeedPolicy (h : CmdHdr) (p : List Byte) (s : State) : Host.Outcome State Fault Refusal := s.onChip (deckEffect .speedPolicy h p)
/-- WRITE_RECORD (R204, R205). -/
def execWriteRecord (h : CmdHdr) (p : List Byte) (s : State) : Host.Outcome State Fault Refusal := s.onChip (deckEffect .writeRecord h p)
/-- WRITE_FILEMARK (R205, R207). -/
def execWriteFilemark (h : CmdHdr) (p : List Byte) (s : State) : Host.Outcome State Fault Refusal := s.onChip (deckEffect .writeFilemark h p)
/-- FLUSH (R210). -/
def execFlush (h : CmdHdr) (p : List Byte) (s : State) : Host.Outcome State Fault Refusal := s.onChip (deckEffect .flush h p)
/-- READ_RECORD (R211, R212). -/
def execReadRecord (h : CmdHdr) (p : List Byte) (s : State) : Host.Outcome State Fault Refusal := s.onChip (deckEffect .readRecord h p)
/-- READ_MORE (R211, R212). -/
def execReadMore (h : CmdHdr) (p : List Byte) (s : State) : Host.Outcome State Fault Refusal := s.onChip (deckEffect .readMore h p)
/-- LOCATE (R214). -/
def execLocate (h : CmdHdr) (p : List Byte) (s : State) : Host.Outcome State Fault Refusal := s.onChip (deckEffect .locate h p)
/-- SPACE (R215). -/
def execSpace (h : CmdHdr) (p : List Byte) (s : State) : Host.Outcome State Fault Refusal := s.onChip (deckEffect .space h p)
/-- REWIND (R216). -/
def execRewind (h : CmdHdr) (p : List Byte) (s : State) : Host.Outcome State Fault Refusal := s.onChip (deckEffect .rewind h p)
/-- POSITION_READ (R216). -/
def execPositionRead (h : CmdHdr) (p : List Byte) (s : State) : Host.Outcome State Fault Refusal := s.onChip (deckEffect .positionRead h p)
/-- ERASE_FROM_HERE (R217). -/
def execEraseFromHere (h : CmdHdr) (p : List Byte) (s : State) : Host.Outcome State Fault Refusal := s.onChip (deckEffect .eraseFromHere h p)
/-- FORMAT_TAPE (R218). -/
def execFormatTape (h : CmdHdr) (p : List Byte) (s : State) : Host.Outcome State Fault Refusal := s.onChip (deckEffect .formatTape h p)
/-- VERIFY (R213). -/
def execVerify (h : CmdHdr) (p : List Byte) (s : State) : Host.Outcome State Fault Refusal := s.onChip (deckEffect .verify h p)
/-- COMPRESSION_SET (R219). -/
def execCompressionSet (h : CmdHdr) (p : List Byte) (s : State) : Host.Outcome State Fault Refusal := s.onChip (deckEffect .compressionSet h p)
/-- PROFILE_LOAD (R220). -/
def execProfileLoad (h : CmdHdr) (p : List Byte) (s : State) : Host.Outcome State Fault Refusal := s.onChip (deckEffect .profileLoad h p)
/-- WRITE_DATA (R206, R207). -/
def execWriteData (h : CmdHdr) (p : List Byte) (s : State) : Host.Outcome State Fault Refusal := s.onChip (writeDataEffect h p)

/-! ### Held entries (R22, R493) -/

/-! ### Staging of replies (05: R143, R147, R148) -/

/-- The queue without the records at the places `bad` among its first `n`: each was read as poison, and counts as lost with class 7
(R142, R278). -/
def EvtQueue.without (q : EvtQueue) (n : Nat) (bad : Nat → Bool) : EvtQueue :=
  let gone := (List.range (min n q.recs.length)).filter bad
  gone.foldl (fun q _ => q.lose 0xE0) { q with recs := (q.recs.zipIdx.filter (fun x => !gone.contains x.2)).map (·.1) }

/-- The words of the first `n` EVT records of context i, record by record, where the row gives the places. -/
def Chip.recordWords (ch : Chip) (i : Ctx) (n : Nat) (slots : List Nat) : List (List (BitVec 18)) :=
  (slots.take (min n (ch.ctxs.get i).evt.recs.length)).map (ch.placeWords i 2)

/-- The event path reads the EVT records that an EVENTS_FETCH takes, at most `n`: those that read as poison are lost (R278). -/
def Chip.readRecords (ch : Chip) (i : Ctx) (n : Nat) (slots : List Nat) (dm : Damage) : Chip × Nat :=
  let out := (ch.recordWords i n slots).foldl (fun (a : Chip × List Bool) ws =>
    let r := a.1.readEntry 3 dm ws
    (r.1, a.2 ++ [r.2])) (ch, [])
  let lost := (out.2.filter id).length
  (if lost = 0 then out.1 else out.1.modCtx i (fun x => { x with evt := x.evt.without n (fun j => (out.2[j]?).getD false) }), n - lost)

/-- The end that an operation has still to show becomes `st`: in a notice, or in its completion (R278). -/
def CookWork.failing (i : Ctx) (tag : W16) (st : Stat) : CookWork → CookWork
  | .ended n => .ended (if n.ctx = i ∧ n.tag = tag then { n with stat := st, payload := [] } else n)
  | .endedMove n => .endedMove (n.map (fun n => if n.ctx = i ∧ n.tag = tag then { n with stat := st, payload := [] } else n))
  | .reread p => .reread p

/-- The reply `r` has been lost with its poisoned entry: the operation it named ends ENGINE_FAULT (R278). A completion gives way to one
that says so; a data reply's operation ends, or its completion says so. -/
def Chip.lostReply (ch : Chip) (i : Ctx) (q : Nat) (r : Reply) : Chip :=
  if q = 0 then ch.modCtx i (fun x => { x with rpl := { r with stat := Stat.engineFault, payload := [], fetch := none, time := ch.now } :: x.rpl })
  else
    let d : Deck := Fin.ofNat 4 (q - 1)
    if (ch.decks.get d).seq.op.any (fun o => decide (o.ctx = i) && decide (o.tag = r.tag)) then ch.engineEnds d Stat.engineFault []
    else (ch.modDeck d (fun k => { k with cookQ := k.cookQ.map (CookWork.failing i r.tag Stat.engineFault) })).modCtx i (fun x =>
      { x with rpl := x.rpl.map (fun c => if c.tag = r.tag then { c with stat := Stat.engineFault, payload := [] } else c) })

/-- The head of reply queue q of a context leaves it: 0 RPL, 1 + d RDATA of deck d. -/
def Context.popReply (x : Context) (q : Nat) : Context :=
  if q = 0 then { x with rpl := x.rpl.drop 1 }
  else { x with rdata := x.rdata.set (Fin.ofNat 4 (q - 1)) ((x.rdata.get (Fin.ofNat 4 (q - 1))).drop 1) }

/-- REPLY_STAGE: the next reply moves into a free reply buffer; an EVENTS_FETCH completion takes its records now (R143, R148). `slots` are
the places in their queues' storage of the reply's entry and of the records taken. An entry that reads as poison is removed unread (R278).
The row waits while a bank it has to read is not served. -/
def replyStageEffect (p : Port) (slots : List Nat) (dm : Damage) (ch : Chip) : Chip :=
  if ¬ (ch.portsUp p && ch.portEnabled p) ∨ 2 ≤ (ch.replyOut p).staged.length then ch
  else
    match ch.nextStaged p with
    | none => ch
    | some i =>
      match (ch.ctxs.get i).oldest with
      | none => ch
      | some (q, r) =>
        let entry := (slots.take 1).flatMap (ch.placeWords i (if q = 0 then 1 else 6 + q))
        let records := match r.fetch with
          | some n => ch.recordWords i n (slots.drop 1)
          | none => []
        if ¬ (entry ++ records.flatten).all ch.bankServes then ch
        else
          let seen := ch.readEntry 1 dm entry
          let c1 := seen.1.modCtx i (fun x => x.popReply q)
          if seen.2 then c1.lostReply i q r
          else
            let out := match r.fetch with
              | none => (c1, r)
              | some n =>
                let c2 := c1.readRecords i n (slots.drop 1) dm
                let evt := (c2.1.ctxs.get i).evt
                (c2.1.modCtx i (fun x => { x with evt := x.evt.fetched c2.2 }), { r with payload := evt.fetchBytes c2.2, fetch := none })
            { out.1.modReplyOut p (fun o => { o with staged := o.staged ++ [out.2] }) with rotor := out.1.rotor.set p i.val }

/-- REPLY_STAGE (R148). -/
def execReplyStage (p : Port) (slots : List Nat) (damage : Damage) (s : State) : Host.Outcome State Fault Refusal :=
  s.onChip (replyStageEffect p slots damage)

/-- QUEUE_ENTRY_PLACED: the entry held longest for a queue enters it as soon as there is room, at this time (R147); a WRITE_DATA that waited
then completes by a notice of port data movement. -/
def queueEntryPlacedEffect (q : Nat) (ch : Chip) : Chip :=
  match ch.held.find? (fun x => x.1 == q) with
  | none => ch
  | some e =>
    let i : Ctx := Fin.ofNat 64 (q / 12)
    let x := ch.ctxs.get i
    let c1 := { ch with held := ch.held.eraseIdx (ch.held.findIdx (fun (y : Nat × HeldEntry) => y.1 == q)) }
    match e.2 with
    | .wdata r reply =>
      let d : Deck := Fin.ofNat 4 (q % 12 - 3)
      if x.depth (Fin.ofNat 11 (q % 12)) ≤ (x.wdata.get d).length ∨ ¬ ch.canStore i 0 then ch
      else
        let c2 := (c1.flushBuffer (portBuffer x.port) []).modCtx i (fun x => { x with wdata := x.wdata.set d (x.wdata.get d ++ [r]) })
        if r.silent then c2
        else if r.durable then c2.waitDurable .writeData i r.tag r.rcrc d r.object (r.object + 1) reply
        else c2.notice d { ctx := i, tag := r.tag, rcrc := r.rcrc, stat := c2.bufferedStat d, payload := reply }
    | .rdata r =>
      let d : Deck := Fin.ofNat 4 (q % 12 - 7)
      if x.depth (Fin.ofNat 11 (q % 12)) ≤ (x.rdata.get d).length then ch
      else c1.modCtx i (fun x => { x with rdata := x.rdata.set d (x.rdata.get d ++ [{ r with time := ch.now }]) })

/-- QUEUE_ENTRY_PLACED (R22, R493). -/
def execQueueEntryPlaced (queue : Nat) (s : State) : Host.Outcome State Fault Refusal := s.onChip (queueEntryPlacedEffect queue)

/-- EVENT_DELIVERY: the event path delivers the oldest accepted event (R140, R501). -/
def eventDeliveryEffect (ch : Chip) : Chip :=
  match ch.events with
  | [] => ch
  | e :: rest => { ch with events := rest }.deliver e
def execEventDelivery (s : State) : Host.Outcome State Fault Refusal := s.onChip eventDeliveryEffect

end Sys2Proof.Machine
end

