-- ==== Sys2Proof/Machine/Locks.lean ====
section
/-! DEFINITION. Deck locks: DECK_LOCK, DECK_UNLOCK, DECK_ADOPT, DECK_STATUS, leases, the orphan rule and the adopt window (06: R163–R171;
07: R187–R190). -/

namespace Sys2Proof.Machine

/-! ### DECK_STATUS (R187, R189) -/

/-- Milliseconds left on a lease, the full length while a command of the holder that names the deck executes. -/
def Chip.leaseLeft (ch : Chip) (d : Deck) : Nat :=
  let l := (ch.decks.get d).lock
  match l.holder with
  | none => 0xFFFFFFFF
  | some i =>
    if l.lease = 0 then 0xFFFFFFFF
    else if (ch.ctxs.get i).working d then l.lease.toNat
    else l.lease.toNat - (ch.now - l.leaseAt).toNat / pinchesPerMs

/-- The capstan target in 0.01 % of the profile's maximum. -/
def DeckAll.speedShown (k : DeckAll) : Nat :=
  match k.profile with
  | none => 0
  | some p => if k.seq.capSpeed = speedOf p k.matcher.target then k.matcher.target else k.seq.capSpeed * 10000 / p.speedMax

/-- A vector of flags as a number, element 0 in bit 0. -/
def bitsOf (l : List Bool) : Nat := (l.zipIdx.map (fun x => if x.1 then 2 ^ x.2 else 0)).foldl (· + ·) 0

/-- DECK_STATUS's reply (Table 7-6). -/
def Chip.deckStatus (ch : Chip) (d : Deck) : List Byte :=
  let k := ch.decks.get d
  let io := k.io
  let owner : Byte := match k.lock.owner with
    | some i => BitVec.ofNat 8 i.val
    | none => 0xFF
  let media : Byte := match k.tape.media with
    | some .blank => 0
    | some .krf => 1
    | some .unreadable => 2
    | none => 0xFF
  [BitVec.ofNat 8 k.seq.state.code, BitVec.ofNat 8 k.lock.state.code, owner,
   BitVec.ofNat 8 (bitsOf [io.cart, io.door, io.posLo.active, io.posHi.active, io.tapemk, ch.deckHeld d, k.profile.isSome]),
   BitVec.ofNat 8 (bitsOf (io.axes.toList.map (·.trip) ++ io.axes.toList.map (·.tripIn))), media, k.seq.cause,
   k.tape.partition.setWidth 8] ++ leBytes 2 k.speedShown ++ leBytes 2 k.tape.wrap.toNat ++ leBytes 4 (k.tape.dataset.toNat % 4294967296)
    ++ leBytes 4 (ch.leaseLeft d) ++ leBytes 2 (bitsOf (k.loops.slots.toList.map (fun s => decide (s.state = .open))))
    ++ leBytes 2 k.roller.fill ++ leBytes 8 ch.now.toNat

/-! ### DECK_LOCK and DECK_ADOPT (R164, Table 6-7, R171) -/

/-- The settings of a DECK_LOCK (R164). -/
def DeckLock.settings (l : DeckLock) (p : List Byte) : DeckLock :=
  let ms := leAt p 2 2
  { l with lease := if ms = 0 then 0 else BitVec.ofNat 16 (max ms 100), keep := decide (byteAt p 1 = 1#8),
           window := if byteAt p 4 = 0#8 then 10#8 else byteAt p 4 }

def Chip.actLock (ch : Chip) (cmd : Cmd) (d : Deck) : Chip :=
  let l := (ch.decks.get d).lock
  if ch.deckHeld d then ch.answerCmd cmd Stat.mgmtHold []
  else match l.state with
    | .free =>
      (ch.setLock d { DeckLock.reset.settings cmd.payload with state := .held cmd.ctx, leaseAt := ch.now }).answerCmd cmd Stat.done []
    | .held j =>
      if j = cmd.ctx then (ch.setLock d { l.settings cmd.payload with leaseAt := ch.now, warned := false }).answerCmd cmd Stat.already []
      else ch.answerCmd cmd Stat.heldByOther []
    | .draining _ | .window _ => ch.answerCmd cmd Stat.adoptWindow []

/-- DECK_ADOPT's reply (Table 7-6). -/
def DeckLock.adoptReply (l : DeckLock) : List Byte :=
  let r := l.report
  [BitVec.ofNat 8 (bit r.byLease), BitVec.ofNat 8 (bit r.marker + 2 * bit (r.waiting != 0) + 4 * bit r.noMove)]
    ++ leBytes 2 r.discarded.toNat ++ leBytes 2 r.written.toNat ++ leBytes 2 r.waiting.toNat ++ leBytes 4 r.lastDurable.toNat
    ++ [BitVec.ofNat 8 (bit l.keep), l.window, 0, 0]

/-- The adopter takes the lock with the recorded keep and window and no lease (R171). -/
def DeckLock.adopted (l : DeckLock) (i : Ctx) (now : W64) : DeckLock :=
  { l with state := .held i, lease := 0, leaseAt := now, warned := false, report := .reset }

def Chip.actAdopt (ch : Chip) (cmd : Cmd) (d : Deck) : Chip :=
  let l := (ch.decks.get d).lock
  if ch.deckHeld d then ch.answerCmd cmd Stat.mgmtHold []
  else match l.state with
    | .free => ch.answerCmd cmd Stat.deckState []
    | .held j => ch.answerCmd cmd (if j = cmd.ctx then Stat.already else Stat.heldByOther) []
    | .draining j => ch.answerCmd cmd (if j = cmd.ctx then Stat.deckBusy else Stat.adoptWindow) []
    | .window j =>
      if j = cmd.ctx then
        ((ch.setLock d (l.adopted cmd.ctx ch.now)).post Ev.lockAdopted .all 9 (deckObject d) (BitVec.ofNat 32 cmd.ctx.val)).answerCmd cmd
          Stat.done l.adoptReply
      else ch.answerCmd cmd Stat.adoptWindow []

/-! ### DECK_UNLOCK (R166) -/

/-- The deck is at rest: no operation, no motion, no FAULT_STOP or SAFE stop phase. -/
def Chip.deckStopped (ch : Chip) (d : Deck) : Bool :=
  let q := (ch.decks.get d).seq
  q.op.isNone && !ch.raisePending d && !(ch.decks.get d).opEnding && (match q.state with
    | .dormant | .empty | .present | .ready => true
    | .faultStop | .safe => q.rest
    | _ => false)

def Chip.actUnlock (ch : Chip) (cmd : Cmd) (d : Deck) : Chip :=
  let k := ch.decks.get d
  let ticket : Bool := match (ch.ctxs.get cmd.ctx).ticket with
    | some t => decide (t.deck = d)
    | none => false
  match firstFail [(ch.deckHeld d, Stat.mgmtHold), ((k.lock.state.refuses cmd.ctx).isSome, (k.lock.state.refuses cmd.ctx).getD Stat.notLocked),
      (!ch.deckStopped d || decide (0 < ch.stagedObjects d) || ticket || (k.tape.marker && decide (k.seq.state ≠ .ready)), Stat.deckState)] with
  | some st => ch.answerCmd cmd st []
  | none => if k.tape.marker then (ch.setOp d cmd true).flushStep d else (ch.answerCmd cmd Stat.done []).freeLock d

/-! ### Leases and windows (R167–R171) -/

/-- LEASE_WARNING (R167): once per run, with the milliseconds remaining. -/
def leaseWarningEffect (d : Deck) (ch : Chip) : Chip :=
  let l := (ch.decks.get d).lock
  if ch.leaseRuns d ∧ ¬ l.warned then
    (ch.modDeck d (fun k => { k with lock := { k.lock with warned := true } })).postDeck d Ev.leaseWarning 9
      (BitVec.ofNat 32 (min (l.lease.toNat / 4) 1000))
  else ch

/-- LEASE_EXPIRY (R167). -/
def leaseExpiryEffect (d : Deck) (ch : Chip) : Chip := if ch.leaseRuns d then ch.expireLease d else ch

/-- The drain is over: nothing is left to write, or nothing can be written any more, and the deck is at rest. -/
def Chip.drained (ch : Chip) (d : Deck) : Bool :=
  let k := ch.decks.get d
  ch.deckStopped d && (k.lock.report.noMove || k.cannotMove ||
    (decide (ch.stagedObjects d = 0) && ch.writeIdle d && (!k.tape.marker || k.roller.eodFailed)))

/-- ORPHAN_DRAIN_END: ORPHANED-WINDOW, and the outcome goes to the fault log (Table 6-8, step 8; R170). -/
def orphanDrainEndEffect (d : Deck) (ch : Chip) : Chip :=
  let k := ch.decks.get d
  match k.lock.state with
  | .draining i =>
    if ¬ ch.drained d then ch
    else
      let report : DrainReport := { k.lock.report with waiting := satU16 (k.staged.filter Staged.isRecord).length }
      let l : DeckLock := { k.lock with state := .window i, leaseAt := ch.now, report := report }
      let flags := l.adoptReply
      (ch.setLock d l).logFault 0x23 (servoUnit d) (deckObject d)
        (BitVec.ofNat 32 ((byteAt flags 0).toNat + 256 * (byteAt flags 1).toNat + 65536 * report.waiting.toNat))
        (BitVec.ofNat 32 (report.discarded.toNat + 65536 * report.written.toNat)) report.lastDurable
  | _ => ch

/-- ADOPT_WINDOW_EXPIRY: what is still held is discarded and the lock becomes FREE (Table 6-8, step 9). -/
def adoptWindowExpiryEffect (d : Deck) (ch : Chip) : Chip :=
  match (ch.decks.get d).lock.state with
  | .window _ => (ch.discardStaged d).freeLock d
  | _ => ch

/-! ### The commands -/

/-- A lock or status opcode is taken: orders 1 and 2, then its own answer. -/
def lockEffect (op : Op) (h : CmdHdr) (p : List Byte) (act : Chip → Cmd → Deck → Chip) (ch : Chip) : Chip :=
  let cmd := cmdOf op h p
  match ch.take cmd with
  | none => ch
  | some c0 =>
    let c1 := (c0.settleLease (deckOf p)).execute cmd (deckOf p)
    if reservedBad op p then c1.answerCmd cmd Stat.reservedNonzero []
    else if c1.rangeBad op p then c1.answerCmd cmd Stat.badField []
    else match deckOf p with
      | some d => act c1 cmd d
      | none => c1.answerCmd cmd Stat.badField []

/-- DECK_LOCK (R164). -/
def execDeckLock (h : CmdHdr) (p : List Byte) (s : State) : Host.Outcome State Fault Refusal := s.onChip (lockEffect .deckLock h p Chip.actLock)
/-- DECK_UNLOCK (R166). -/
def execDeckUnlock (h : CmdHdr) (p : List Byte) (s : State) : Host.Outcome State Fault Refusal :=
  s.onChip (lockEffect .deckUnlock h p Chip.actUnlock)
/-- DECK_ADOPT (R164, R171). -/
def execDeckAdopt (h : CmdHdr) (p : List Byte) (s : State) : Host.Outcome State Fault Refusal :=
  s.onChip (lockEffect .deckAdopt h p Chip.actAdopt)
/-- DECK_STATUS (R188, R189). -/
def execDeckStatus (h : CmdHdr) (p : List Byte) (s : State) : Host.Outcome State Fault Refusal :=
  s.onChip (lockEffect .deckStatus h p (fun c cmd d => c.answerCmd cmd Stat.done (c.deckStatus d)))
/-- LEASE_WARNING (R167). -/
def execLeaseWarning (d : Deck) (s : State) : Host.Outcome State Fault Refusal := s.onChip (leaseWarningEffect d)
/-- LEASE_EXPIRY (R167). -/
def execLeaseExpiry (d : Deck) (s : State) : Host.Outcome State Fault Refusal := s.onChip (leaseExpiryEffect d)
/-- ORPHAN_DRAIN_END (R169, R170). -/
def execOrphanDrainEnd (d : Deck) (s : State) : Host.Outcome State Fault Refusal := s.onChip (orphanDrainEndEffect d)
/-- ADOPT_WINDOW_EXPIRY (R169). -/
def execAdoptWindowExpiry (d : Deck) (s : State) : Host.Outcome State Fault Refusal := s.onChip (adoptWindowExpiryEffect d)

end Sys2Proof.Machine
end

