-- ==== Sys2Proof/Machine/Contexts.lean ====
section
/-! DEFINITION. The life of a context: CTX_OPEN, CTX_CLOSE, CTX_RESET, the reset sequence and the end of a close (06: R151–R156, R159,
R172–R174; 07: R183, R185; 19: R468). -/

namespace Sys2Proof.Machine

/-- The island domain of context i (Table 19-3). -/
def islandUnit (i : Ctx) : Nat := 16 + i.val / 4

/-- The island's policy is OFF (R466, R468). -/
def Chip.islandOff (ch : Chip) (i : Ctx) : Bool := decide (2 ≤ ((ch.domains.policy[islandUnit i]?).getD 0).toNat)

/-- CTX_OPEN's reply payload (Table 7-4). -/
def Chip.openReply (ch : Chip) (i : Ctx) : List Byte :=
  let g := ch.passQ.active
  [BitVec.ofNat 8 (ch.ctxs.get i).port.val, 0] ++ leBytes 2 (12 * i.val) ++ leBytes 2 (g.cellQuota.get i).toNat
    ++ leBytes 2 (g.blockQuota.get i).toNat

/-- A CTX_OPEN is refused: in its context's RPL queue when the command came by the bound port, else as a wire reply of the port it
came by, since no RPL queue of that port is the context's (log entry 31). The trailer follows the request's flags (R126). -/
def Chip.refuseOpen (ch : Chip) (cmd : Cmd) (st : Stat) : Chip :=
  let x := ch.ctxs.get cmd.ctx
  if x.state = .open ∧ x.port = cmd.port then ch.answerCmd cmd st []
  else (ch.offerWire cmd.port { wireReply (BitVec.ofNat 8 cmd.ctx.val) cmd.tag st ch.now with trailer := cmd.rcrc }).1

/-- A context with the default queues and the quotas of the active generation, bound to port p (R159). -/
def Chip.freshContext (ch : Chip) (i : Ctx) (p : Port) : Context :=
  { Context.reset with state := .open, port := p, cellQuota := ch.passQ.active.cellQuota.get i, blockQuota := ch.passQ.active.blockQuota.get i }

/-- A CLOSED context opens, when the pool can supply its queues (R152, R159). -/
def Chip.openContext (ch : Chip) (cmd : Cmd) : Chip :=
  let c1 := ch.sweepCells (ch.ladle.openCells.take defaultCells)
  if c1.ladle.cellsFree < defaultCells + pantryCells then c1.refuseOpen cmd Stat.poolEmpty
  else
    let c2 := (c1.modCtx cmd.ctx (fun _ => c1.freshContext cmd.ctx cmd.port)).drawQueues cmd.ctx false
    if c2.queuesDrawn cmd.ctx then c2.answerCmd cmd Stat.done (c2.openReply cmd.ctx)
    else ((c2.returnQueues cmd.ctx).modCtx cmd.ctx (fun _ => Context.reset)).refuseOpen cmd Stat.poolEmpty

/-- What stays of a Cook work queue entry when context i is reset: its notice goes, the stop of the tape stays. -/
def CookWork.without (i : Ctx) : CookWork → Option CookWork
  | .ended n => if n.ctx = i then none else some (.ended n)
  | .endedMove (some n) => some (.endedMove (if n.ctx = i then none else some n))
  | w => some w

/-- Work of context i that only it keeps: merge entries, queued commands, notices and held entries (Table 6-9, steps 2, 3 and 6). -/
def Chip.dropWork (ch : Chip) (i : Ctx) : Chip :=
  { ch with
    merge := ch.merge.map (fun b => b.filter (fun e => e.ctx != some i)),
    held := ch.held.filter (fun x => x.1 / 12 != i.val),
    tongsQ := ch.tongsQ.filter (fun n => n.ctx != i),
    decks := ch.decks.map (fun k => { k with cookQ := k.cookQ.filterMap (CookWork.without i) }) }

/-- The reset sequence of Table 6-9, with the port the context is bound to afterwards and the completion's payload; the queues'
storage draws on the Pantry for any shortfall. -/
def Chip.resetContext (ch : Chip) (cmd : Cmd) (p : Port) (rebind : Bool) : Chip :=
  let i := cmd.ctx
  let c1 := ch.modCtx i (fun x => { x with state := .resetting, cmd := [], cmdAt := [], heldReset := none })
  let c2 := allDecks.foldl (fun c d => if (c.decks.get d).lock.holder = some i then c.orphan d false else c) c1
  let c3 := ((c2.dropWork i).releaseAll i.val).returnQueues i
  let c4 := (c3.modCtx i (fun _ => c3.freshContext i p)).drawQueues i true
  c4.modCtx i (fun x => { x with rpl :=
    [ctxReply 0x80 i cmd.tag cmd.rcrc Stat.done (if rebind then c4.openReply i else []) c4.now] })

/-- What a CTX_OPEN that has been taken does by its context's state (Table 6-2, R155, R468). -/
def Chip.openTaken (ch : Chip) (cmd : Cmd) : Chip :=
  let x := ch.ctxs.get cmd.ctx
  if ch.islandOff cmd.ctx then
    ({ ch with domains := { ch.domains with refused := ch.domains.refused + 1 } }).refuseOpen cmd Stat.ctxState
  else match x.state with
    | .open =>
      if x.port = cmd.port then ch.answerCmd cmd Stat.already (ch.openReply cmd.ctx)
      else if (byteAt cmd.payload 0).getLsbD 0 ∧ ¬ ch.portEnabled x.port then ch.resetContext cmd cmd.port true
      else ch.refuseOpen cmd Stat.ctxState
    | .closing => ch.modCtx cmd.ctx (fun y => { y with waitingOpen := y.waitingOpen ++ [cmd] })
    | .closed => ch.openContext cmd
    | .resetting => ch

/-- The island of a CLOSED context is off under AUTO: its CTX_OPEN waits while the domain comes on (R466, R467). -/
def Chip.islandAsleep (ch : Chip) (i : Ctx) : Bool :=
  decide ((ch.ctxs.get i).state = .closed) && !ch.islandOff i && !ch.domOn (islandUnit i)

/-- CTX_OPEN (Table 6-2, R155, R468). -/
def ctxOpenEffect (h : CmdHdr) (p : List Byte) (ch : Chip) : Chip :=
  let cmd := cmdOf .ctxOpen h p
  if ch.islandAsleep h.ctx then ch
  else match ch.take cmd with
  | none => ch
  | some c1 =>
    if ¬ (fieldZero p 1 3) ∨ 2 ≤ (byteAt p 0).toNat then c1.refuseOpen cmd Stat.reservedNonzero else c1.openTaken cmd

/-- CTX_RESET (R160, R172): it begins when it is placed, whatever waits in the CMD queue. -/
def ctxResetEffect (h : CmdHdr) (p : List Byte) (ch : Chip) : Chip :=
  let cmd := cmdOf .ctxReset h p
  let x := ch.ctxs.get h.ctx
  if ch.cookCan ∧ x.state = .resetting ∧ (cmd ∈ x.cmd ∨ x.heldReset = some cmd) then
    ({ ch with cook := { ch.cook with state := .running } }).resetContext cmd x.port false
  else ch

/-- CTX_CLOSE (R156): the completion enters the RPL queue, the context is CLOSING, and it releases what it holds. -/
def ctxCloseEffect (h : CmdHdr) (p : List Byte) (ch : Chip) : Chip :=
  let cmd := cmdOf .ctxClose h p
  match ch.take cmd with
  | none => ch
  | some c1 =>
    let x := c1.ctxs.get h.ctx
    let holds := allDecks.any (fun d => decide ((c1.decks.get d).lock.holder = some h.ctx))
    if holds ∨ x.cmd ≠ [] ∨ x.executing ≠ [] then c1.answerCmd cmd Stat.ctxState []
    else
      ((c1.answerCmd cmd Stat.done []).releaseAll h.ctx.val).modCtx h.ctx (fun y => { y with
        state := .closing, evt := { y.evt with recs := [], lost := 0, lostClass := 0 } })

/-- CTX_CLOSE_STAGED, while the Cook runs: the close completion is in the port's reply buffer; the queues return and the context is CLOSED; a CTX_OPEN that
waited opens it afresh, and a further one finds it as the first left it (Table 6-2, R155). -/
def ctxCloseStagedEffect (i : Ctx) (ch : Chip) : Chip :=
  let x := ch.ctxs.get i
  if x.state ≠ .closing ∨ x.rpl ≠ [] ∨ ¬ ch.cookCan then ch
  else
    let c1 := (ch.returnQueues i).modCtx i (fun _ => Context.reset)
    x.waitingOpen.foldl Chip.openTaken c1

/-- CTX_OPEN (R151–R155). -/
def execCtxOpen (h : CmdHdr) (p : List Byte) (s : State) : Host.Outcome State Fault Refusal := s.onChip (ctxOpenEffect h p)
/-- CTX_CLOSE (R156). -/
def execCtxClose (h : CmdHdr) (p : List Byte) (s : State) : Host.Outcome State Fault Refusal := s.onChip (ctxCloseEffect h p)
/-- CTX_RESET (R172). -/
def execCtxReset (h : CmdHdr) (p : List Byte) (s : State) : Host.Outcome State Fault Refusal := s.onChip (ctxResetEffect h p)
/-- CTX_CLOSE_STAGED (Table 6-2). -/
def execCtxCloseStaged (c : Ctx) (s : State) : Host.Outcome State Fault Refusal := s.onChip (ctxCloseStagedEffect c)

end Sys2Proof.Machine
end

