-- ==== Sys2Proof/Machine/Holds.lean ====
section
/-! DEFINITION. The holds of a deck and the emergency stop (21: R522; 19: R464; 04: R115; 01: R36). -/

namespace Sys2Proof.Machine

/-- EMERG_STATUS [11:0]: emergency, thermal and EXTEST holds. -/
def Emergency.mask (e : Emergency) : BitVec 12 := e.jtag ++ e.thermal ++ e.hold

/-- The emergency stop of a deck on which the first hold is set: DECK_EMERGENCY, then FAULT_STOP with cause 0x00, or rest where the
loops do not run; with coast every axis is OFF at once (R522). -/
def Chip.emergencyStop (ch : Chip) (d : Deck) : Chip :=
  (ch.postDeck d Ev.deckEmergency 155 0).faultStop d Cause.other false (ch.emergency.coast.getLsbD d.val)

/-- After a change of the holds: every deck that `before` did not hold and that is held now is stopped. -/
def Chip.stopNewlyHeld (ch : Chip) (before : Deck → Bool) : Chip :=
  allDecks.foldl (fun c d => if !before d && ch.deckHeld d then c.emergencyStop d else c) ch

/-- A change of the emergency, thermal or EXTEST holds: DECK_HOLD when the mask changes, then the stops (R522). -/
def Chip.changeHolds (ch : Chip) (f : Emergency → Emergency) : Chip :=
  let c1 := { ch with emergency := f ch.emergency }
  let c2 := if c1.emergency.mask = ch.emergency.mask then c1
    else c1.logFault 0x61 155 0 (c1.emergency.mask.setWidth 32) 0 0
  c2.stopNewlyHeld ch.deckHeld

/-- EMERG_CTRL: hold in [3:0], coast in [7:4] (Table 21-8). -/
def emergencyHoldEffect (hold coast : BitVec 4) (ch : Chip) : Chip := ch.changeHolds (fun e => { e with hold := hold, coast := coast })
/-- EMERGENCY_HOLD (R522). -/
def execEmergencyHold (hold coast : BitVec 4) (s : State) : Host.Outcome State Fault Refusal := s.onRegister (emergencyHoldEffect hold coast)

end Sys2Proof.Machine
end

