-- ==== Sys2Proof/Machine/Jtag.lean ====
section
/-! DEFINITION. The JTAG test access port (04: R114–R117; 22: R528; 21: R522). -/

namespace Sys2Proof.Machine

def Chip.modJtag (ch : Chip) (f : Jtag → Jtag) : Chip := { ch with jtag := f ch.jtag }

/-- The TAP answers: 3 ms after VIN valid, with VIOM good (R114, R464). -/
def Chip.tapOn (ch : Chip) : Bool := ch.jtag.ready && ch.power.viom

/-- Cells of the boundary register (R528). -/
def boundaryCells : Nat := 521

/-- First cell of each PWM leg: the H pad's data and enable cells, then the L pad's (R528 over Tables 22-1, 22-2 and 22-4). The
sixteen cells of rows 1 and 2 of decks 0 and 1 begin at 0, 24, 40 and 63, those of decks 2 and 3 at 385, 401, 417 and 433. -/
def pwmLegs : List Nat := [0, 24, 40, 63, 385, 401, 417, 433].flatMap (fun b => (List.range 4).map (fun l => b + 4 * l))

/-- A leg whose H and L outputs would both be driven on is driven with both off (R115). -/
def safeLeg (cells : List Bool) (i : Nat) : List Bool :=
  if [i, i + 1, i + 2, i + 3].all (fun j => (cells[j]?).getD false) then (cells.set i false).set (i + 2) false else cells

/-- A preloaded pattern as the pads take it: 521 cells, no leg with both outputs on (R115). -/
def safePattern (p : List Bool) : List Bool :=
  pwmLegs.foldl safeLeg ((p ++ List.replicate (boundaryCells - p.length) false).take boundaryCells)

/-- The instructions of Table 4-7. -/
inductive JtagIr where
  | extest | idcode | samplePreload | delaycalRead | macroIsolate | bypass
  deriving DecidableEq, Repr

/-- What a value of the instruction register selects: every opcode that Table 4-7 does not list, BYPASS (R114). -/
def jtagIr (ir : BitVec 5) : JtagIr :=
  if ir = 0b00000 then .extest
  else if ir = 0b00001 then .idcode
  else if ir = 0b00010 then .samplePreload
  else if ir = 0b10000 then .delaycalRead
  else if ir = 0b10001 then .macroIsolate
  else .bypass

/-- What Capture-IR captures (R114). -/
def irCapture : BitVec 5 := 0b00001

/-- EXTEST is left: the pads return to the core, and its holds end (R115, R522). -/
def Chip.leaveExtest (ch : Chip) : Chip :=
  if ch.jtag.extest then
    ((ch.modJtag (fun j => { j with extest := false })).logFault 0x60 148 0 0 0 0).changeHolds (fun e => { e with jtag := 0 })
  else ch

/-- Another instruction than EXTEST becomes current: in Test-Logic-Reset, or at Update-IR. -/
def Chip.selectIr (ch : Chip) (ir : BitVec 5) : Chip := ch.leaveExtest.modJtag (fun j => { j with ir := ir })

/-- The isolation of a macro ends (R117). -/
def Chip.endIsolation (ch : Chip) : Chip :=
  if ch.jtag.isoOn then
    (((ch.modJtag (fun j => { j with isoOn := false, isoMacro := 0 })).modSram (fun m => { m with isolated := none })).logFault 0x15 148 0
      (ch.jtag.isoMacro.setWidth 32) 0 0).settleErasure
  else ch

/-- EXTEST at Update-IR: the boundary register takes the pads with the pattern it holds, every deck is held and stopped, and the
entry is logged (R115). -/
def Chip.enterExtest (ch : Chip) : Chip :=
  let c1 := ch.modJtag (fun j => { j with ir := 0b00000, extest := true })
  let c2 := if ch.jtag.extest then c1 else c1.logFault 0x60 148 0 1 0 0
  c2.changeHolds (fun e => { e with jtag := 0xF })

/-- First cells of the two legs of axis a of deck d (R528, Table 22-2). -/
def axisLegs (d : Deck) (a : Axis) : List Nat :=
  let row := (if d.val < 2 then (if a.val < 2 then [0, 24] else [40, 63]) else (if a.val < 2 then [385, 401] else [417, 433]))
  let base := (row[d.val % 2]?).getD 0 + 8 * (a.val % 2)
  [base, base + 4]

/-- What the boundary register drives on the covered pads while EXTEST is current: its pattern, with the outputs of every axis whose
trip input is low off (R115). -/
def Chip.extestPads (ch : Chip) : Option (List Bool) :=
  if ¬ ch.jtag.extest then none
  else some (allDecks.foldl (fun l d => ([0, 1, 2, 3] : List Axis).foldl (fun l a =>
    if (((ch.decks.get d).io.axes.get a).tripIn) then (axisLegs d a).foldl (fun l i => (l.set i false).set (i + 2) false) l else l) l)
    ch.jtag.boundary)

/-- The five entries of DELAYCAL-READ, least significant first (R116). -/
def Timebase.calEntry (t : Timebase) (l : Lines) : W16 :=
  BitVec.ofBool (decide (t.refState = .freeRun)) ++ BitVec.ofBool l.shadowBusy ++ BitVec.ofBool l.valid ++ l.elements
def Timebase.calRegister (t : Timebase) : BitVec 80 :=
  t.calEntry (t.decks.get 3) ++ t.calEntry (t.decks.get 2) ++ t.calEntry (t.decks.get 1) ++ t.calEntry (t.decks.get 0) ++ t.calEntry t.central

/-- The IDCODE (R114). -/
def jtagIdcode : W32 := 0x2A440C5B

/-- What Capture-DR of MACRO-ISOLATE returns (R117). -/
def Chip.isolateCapture (ch : Chip) : Byte :=
  BitVec.ofNat 8 (ch.jtag.isoMacro.toNat + 32 * bit ch.jtag.isoOn + 64 * bit ch.jtag.isoRefused + 128 * bit ch.declaredErasure.isSome)

/-- An instruction is scanned in: Capture-IR, then Update-IR with `ir`; its data register is captured then (R114–R117). -/
def Chip.updateIr (ch : Chip) (ir : BitVec 5) : Chip :=
  let c1 := ch.modJtag (fun j => { j with irOut := irCapture })
  match jtagIr ir with
  | .extest => c1.enterExtest
  | .idcode => (c1.selectIr ir).modJtag (fun j => { j with dr := jtagIdcode.setWidth 80 })
  | .samplePreload => c1.selectIr ir
  | .delaycalRead => (c1.selectIr ir).modJtag (fun j => { j with dr := ch.timebase.calRegister })
  | .macroIsolate => (c1.selectIr ir).modJtag (fun j => { j with dr := ch.isolateCapture.setWidth 80 })
  | .bypass => (c1.selectIr ir).modJtag (fun j => { j with dr := 0 })

/-- Update-DR of the boundary register (R115). -/
def Chip.updateBoundary (ch : Chip) (pattern : List Bool) : Chip := ch.modJtag (fun j => { j with boundary := safePattern pattern })

/-- EXTEST at Update-IR, with the pattern held since the last Update-DR of the boundary register, and an Update-DR that may follow. -/
def extestEffect (update : Option (List Bool)) (ch : Chip) : Chip :=
  if ¬ ch.tapOn then ch
  else match update with
    | none => ch.updateIr 0b00000
    | some p => (ch.updateIr 0b00000).updateBoundary p
def idcodeEffect (ch : Chip) : Chip := if ch.tapOn then ch.updateIr 0b00001 else ch
/-- SAMPLE/PRELOAD at Update-IR, then Update-DR with `pattern`. -/
def samplePreloadEffect (pattern : List Bool) (ch : Chip) : Chip :=
  if ch.tapOn then (ch.updateIr 0b00010).updateBoundary pattern else ch
def delaycalReadEffect (ch : Chip) : Chip := if ch.tapOn then ch.updateIr 0b10000 else ch
/-- BYPASS, or an opcode that Table 4-7 does not list. -/
def bypassEffect (ir : BitVec 5) (ch : Chip) : Chip := if ch.tapOn then ch.updateIr ir else ch

/-- MACRO-ISOLATE: the capture, then Update-DR with `value` (R117). -/
def macroIsolateEffect (value : Byte) (ch : Chip) : Chip :=
  if ¬ ch.tapOn then ch
  else
    let c1 := ch.updateIr 0b10001
    let m : BitVec 5 := value.extractLsb' 0 5
    if ¬ value.getLsbD 7 then c1.endIsolation.modJtag (fun j => { j with isoRefused := false })
    else if h : m.toNat < 19 then
      let other : Bool := match c1.declaredErasure with
        | some a => decide (a.val ≠ m.toNat)
        | none => false
      if other ∨ (c1.jtag.isoOn ∧ c1.jtag.isoMacro ≠ m) then c1.modJtag (fun j => { j with isoRefused := true })
      else
        let c2 := c1.modJtag (fun j => { j with isoRefused := false })
        if c2.jtag.isoOn then c2
        else
          (((c2.modJtag (fun j => { j with isoOn := true, isoMacro := m })).modSram (fun s => { s with
            isolated := some ⟨m.toNat, h⟩ })).logFault 0x15 148 0 (m.setWidth 32) 1 0).settleErasure
    else c1.modJtag (fun j => { j with isoRefused := true })

/-- Test-Logic-Reset selects IDCODE and ends any isolation (R114, R117). -/
def testLogicResetEffect (ch : Chip) : Chip := if ch.tapOn then (ch.selectIr 0b00001).endIsolation else ch

/-- EXTEST (R115). -/
def execExtest (update : Option (List Bool)) (s : State) : Host.Outcome State Fault Refusal := s.onChip (extestEffect update)
/-- IDCODE (R114). -/
def execIdcode (s : State) : Host.Outcome State Fault Refusal := s.onChip idcodeEffect
/-- SAMPLE/PRELOAD (R114). -/
def execSamplePreload (pattern : List Bool) (s : State) : Host.Outcome State Fault Refusal := s.onChip (samplePreloadEffect pattern)
/-- DELAYCAL-READ (R116). -/
def execDelaycalRead (s : State) : Host.Outcome State Fault Refusal := s.onChip delaycalReadEffect
/-- MACRO-ISOLATE (R117). -/
def execMacroIsolate (value : Byte) (s : State) : Host.Outcome State Fault Refusal := s.onChip (macroIsolateEffect value)
/-- BYPASS (R114). -/
def execBypass (ir : BitVec 5) (s : State) : Host.Outcome State Fault Refusal := s.onChip (bypassEffect ir)
/-- TEST_LOGIC_RESET (R114, R117). -/
def execTestLogicReset (s : State) : Host.Outcome State Fault Refusal := s.onChip testLogicResetEffect

end Sys2Proof.Machine
end

