-- ==== Sys2Proof/Machine/Ehran.lean ====
section
/-! DEFINITION. The Ehran ports: packets, replies, wire violations and configuration (03: R66–R91). -/

namespace Sys2Proof.Machine

/-- The packet-port number of an Ehran port. -/
def EPort.port (p : EPort) : Port := ⟨p.val, by omega⟩

/-- The port is enabled and powered, so that it sees its pins (R67, R87). -/
def Chip.ehranOn (ch : Chip) (p : EPort) : Bool := ch.portsUp (EPort.port p) && (ch.ehran.get p).enabled

/-- Bytes of one transfer at the port's width (R77). -/
def EhranPort.bytesOf (e : EhranPort) (w : W16) : List Byte :=
  if e.width16 then [w.extractLsb' 0 8, w.extractLsb' 8 8] else [w.extractLsb' 0 8]

/-- Received bytes that a packet of n bytes fills: whole transfers (R77). -/
def EhranPort.wireLength (e : EhranPort) (n : Nat) : Nat := if e.width16 then (n + 1) / 2 * 2 else n

/-! ### Pins (R66, R67, R69, R70, R76) -/

/-- What the port drives between cycles: the level of En_ACK# and En_FRM, none where they are left to their weak bias, and whether
it drives En_D[7:0] and En_D[15:8] (R67). -/
structure EhranDrive where
  ack : Option Bool
  frm : Option Bool
  lo  : Bool
  hi  : Bool
  deriving DecidableEq, Repr

/-- The port answers its strobes: enabled, powered and selected (R67). -/
def Chip.selected (ch : Chip) (p : EPort) : Bool := ch.ehranOn p && (ch.ehran.get p).sel

/-- Between two replies En_FRM is low; inside one it stays high (R76). -/
def EhranPort.frmOut (e : EhranPort) : Bool :=
  match e.out.cur with
  | some t => decide (0 < t.done)
  | none => false

/-- The drivers of En_ACK#, En_FRM and En_D between cycles; En_D[15:8] are never driven in 8-bit width (R67). -/
def Chip.ehranDrive (ch : Chip) (p : EPort) : EhranDrive :=
  let e := ch.ehran.get p
  let out := ch.selected p && e.dir
  { ack := if ch.selected p then some true else none,
    frm := if out then some e.frmOut else none,
    lo := out, hi := out && e.width16 }

/-- The edges of a whole cycle (Tables 3-2 and 3-3): En_FRM as it stands at the strobe's fall, while En_ACK# is low, and after its rise. -/
def cycleSteps (before during after : Bool) (d : W16) : List BusStep :=
  [⟨false, true, before, d⟩, ⟨false, false, during, d⟩, ⟨true, false, during, d⟩, ⟨true, true, after, d⟩]

/-- The edges of a cycle whose strobe rises early and that completes all the same (R83). -/
def earlySteps (before during after : Bool) (d : W16) : List BusStep :=
  [⟨false, true, before, d⟩, ⟨true, true, before, d⟩, ⟨true, false, during, d⟩, ⟨true, true, after, d⟩]

/-- The edges of an abandoned cycle: En_ACK# never falls (R83). -/
def abandonedSteps (frm : Bool) (d : W16) : List BusStep := [⟨false, true, frm, d⟩, ⟨true, true, frm, d⟩]

/-- The transfer that carries these bytes: on 16 bits the second byte, or 0x00, on En_D[15:8] (R77); on 8 bits the pull-ups hold
En_D[15:8] (R67, Table 3-1). -/
def EhranPort.transferWord (e : EhranPort) (bs : List Byte) : W16 :=
  (if e.width16 then byteAt bs 1 else 0xFF#8) ++ byteAt bs 0

/-! ### The host's direction -/

/-- Port data movement has moved n whole packets out of the receive buffer (R85). -/
def EhranPort.moveOn (e : EhranPort) (n : Nat) : EhranPort := { e with rxHeld := e.rxHeld - n }

/-- A transfer with a packet open, or one that opens it: its bytes are kept; beyond the expected length it makes the packet long
(R75, R82 kind 2), unless its length field is above 4,096 (R91). -/
def EhranPort.receive (e : EhranPort) (w : W16) : EhranPort :=
  let e1 := { e with xferIn := e.xferIn + 1 }
  if e1.rxLong then e1
  else
    let rx := e1.rx ++ e1.bytesOf w
    if 8 ≤ e1.rx.length ∧ hdrLength rx ≤ 4096 ∧ e1.wireLength (packetExpected rx) < rx.length then
      { e1 with rxLong := true, long := e1.long + 1, lastViol := 2 }
    else { e1 with rx := rx }

/-- A packet begins (R74). With both places of the receive buffer full the cycle is paced until port data movement has moved one
packet on (R82 kind 7, R85): every later transfer of the packet has the place that this one waited for. -/
def EhranPort.openPacket (e : EhranPort) : EhranPort :=
  let e1 := { e with rxOpen := true, armed := false, rx := [], rxLong := false }
  if 2 ≤ e.rxHeld then { e1.moveOn 1 with pace := e.pace + 1, lastViol := 7 } else e1

/-- A write transfer outside a packet is a stray (R82 kind 3). -/
def EhranPort.strayIn (e : EhranPort) : EhranPort :=
  { e with xferIn := e.xferIn + 1, stray := e.stray + 1, lastViol := 3 }

/-- A strobe with En_FRM high begins a packet: none is open, and En_FRM has been seen low since the last (R74). -/
def EhranPort.begins (e : EhranPort) : Bool := !e.rxOpen && e.armed

/-- The transfer of a write cycle with En_FRM high (R74, R82). -/
def EhranPort.writeHigh (e : EhranPort) (w : W16) : EhranPort :=
  let e1 := { e with frm := true }
  if e.rxOpen then e1.receive w
  else if e.armed then e1.openPacket.receive w
  else e1.strayIn

/-- A wire reply for the open packet (R84). -/
def Chip.wireAnswer (ch : Chip) (p : EPort) (bs : List Byte) (st : Stat) : Chip :=
  (ch.offerWire (EPort.port p) (wireReply (refusalCtx bs) (refusalTag bs) st ch.now)).1

/-- The open packet ends and is judged by checks 1 to 3 of Table 5-4, then by Sieve (R75, R82, R127); the transfer's merge entries are
flushed (R283). A packet that Sieve takes keeps its place of the receive buffer until it is moved on; the bytes of any other are
discarded. -/
def Chip.endPacket (ch : Chip) (p : EPort) : Chip :=
  let e := ch.ehran.get p
  if ¬ e.rxOpen then ch
  else
    let bs := e.rx
    let c1 := (ch.flushBuffer (Fin.castLE (by omega) p) []).modEhran p (fun e => { e with rxOpen := false, rx := [], rxLong := false, pktIn := e.pktIn + 1 })
    let runt (c : Chip) : Chip :=
      (c.modEhran p (fun e => { e with runt := e.runt + 1, lastViol := 1 })).wireAnswer p bs Stat.wireRunt
    if bs.length < 8 then runt c1
    else if 4096 < hdrLength bs then c1.refuse (EPort.port p) bs Stat.lengthOver
    else if e.rxLong then c1.wireAnswer p bs Stat.wireLong
    else if bs.length < e.wireLength (packetExpected bs) then runt c1
    else (c1.modEhran p (fun e => { e with rxHeld := e.rxHeld + 1 })).sieve4to16 (EPort.port p) (bs.take (packetExpected bs))

/-- En_FRM is seen low: an open packet ends, and the next may begin (R74). -/
def Chip.frmLow (ch : Chip) (p : EPort) : Chip := (ch.endPacket p).modEhran p (fun e => { e with frm := false, armed := true })

/-- One write cycle with En_FRM at `frm`. A strobe that finds En_FRM low finds the packet ended. -/
def Chip.writeCycle (ch : Chip) (p : EPort) (frm : Bool) (w : W16) : Chip :=
  if frm then ch.modEhran p (fun e => e.writeHigh w) else (ch.frmLow p).modEhran p EhranPort.strayIn

/-- The ordinary write cycles of one packet, with what port data movement moved on before them; the port ignores them while it does
not answer strobes, or while En_DIR is high. -/
def Chip.writeRun (ch : Chip) (p : EPort) (run : WriteRun) : Chip :=
  if ch.selected p && !(ch.ehran.get p).dir then
    ch.modEhran p (fun e => { run.words.foldl EhranPort.writeHigh (e.moveOn run.moved) with
      wave := run.words.flatMap (cycleSteps true true true) })
  else ch.modEhran p (fun e => e.moveOn run.moved)

/-! ### The device's direction -/

/-- The words of the transfers that carry these bytes, `step` bytes each, for at most n transfers. -/
def EhranPort.transferWords (e : EhranPort) (step : Nat) : Nat → List Byte → List W16
  | 0, _ => []
  | n + 1, bs => e.transferWord bs :: EhranPort.transferWords e step n (bs.drop step)

/-- n transfers of the current reply are read; the last one frees its slot (R79–R81). En_FRM rises with the En_ACK# fall of the first
transfer and falls after the En_ACK# rise of the last (R76, log entry 76). -/
def Chip.readTransfers (ch : Chip) (p : EPort) (n : Nat) : Chip :=
  let e := ch.ehran.get p
  if n = 0 then ch
  else
    let t := ch.current (EPort.port p)
    let step := if e.width16 then 2 else 1
    let left := (t.bytes.length - t.done + step - 1) / step
    let k := min n left
    let t1 := { t with done := t.done + k * step }
    let words := e.transferWords step k (t.bytes.drop t.done)
    let taken := words.flatMap e.bytesOf
    let edges := (words.zipIdx).flatMap (fun x =>
      cycleSteps (decide (0 < t.done) || decide (0 < x.2)) true (!(decide (k = left) && decide (x.2 + 1 = k))) x.1)
    ch.modEhran p (fun e => { e with
      xferOut := e.xferOut + BitVec.ofNat 32 k, wave := edges,
      pktOut := if k = left then e.pktOut + 1 else e.pktOut,
      idleOut := if k = left ∧ t.source = .idle then e.idleOut + 1 else e.idleOut,
      out := if k = left then { e.out.finished t with last := taken } else { e.out with cur := some t1, last := taken } })

/-- The transfer of a cycle that completes: in the host's direction by En_FRM as the host drives it, in the device's one transfer of
the current reply. -/
def Chip.cycle (ch : Chip) (p : EPort) (frm : Bool) (w : W16) : Chip :=
  if (ch.ehran.get p).dir then ch.readTransfers p 1
  else (ch.writeCycle p frm w).modEhran p (fun e => { e with wave := cycleSteps frm frm frm w })

/-- The direction changes: an open host packet ends; the other direction counts, and En_FRM changes hands, low (R74, R82 kind 5). -/
def Chip.turn (ch : Chip) (p : EPort) (toHost : Bool) : Chip :=
  let c1 := if toHost then ch.frmLow p else ch
  c1.modEhran p (fun e => { e with dir := toHost })

/-! ### The commands' effects -/

/-- EHRAN_PACKET_END: the transfers of a packet arrive with En_FRM high, and then En_FRM falls or En_DIR rises (R74). -/
def ehranPacketEndEffect (p : EPort) (run : WriteRun) (how : PacketEnd) (ch : Chip) : Chip :=
  let c1 := ch.writeRun p run
  if ¬ (ch.selected p && !(ch.ehran.get p).dir) then
    match how with
    | .frame => c1.modEhran p (fun e => { e with frm := false })
    | .direction => c1.modEhran p (fun e => { e with dirPin := true })
  else match how with
    | .frame => c1.frmLow p
    | .direction => (c1.turn p true).modEhran p (fun e => { e with dirPin := true })

/-- EHRAN_REPLY_READ: at most the rest of one reply is read. -/
def ehranReplyReadEffect (p : EPort) (n : Nat) (ch : Chip) : Chip :=
  if ch.selected p && (ch.ehran.get p).dir then ch.readTransfers p n else ch

/-- STRAY_TRANSFER: one write cycle with En_FRM at `frm`, a stray unless it begins a packet or one is open. -/
def strayTransferEffect (p : EPort) (frm : Bool) (w : W16) (ch : Chip) : Chip :=
  if ch.selected p && !(ch.ehran.get p).dir then ch.cycle p frm w else ch

/-- EARLY_RELEASE: settled as a completed or an abandoned cycle (R83). An abandoned read is presented again, with the bytes it
was first presented with (R133). DESIGN CHOICE (log entry 77): where the cycle makes another violation too, EHR_LAST_VIOL keeps kind
4; a reply whose first transfer was abandoned counts as partly read. -/
def earlyReleaseEffect (p : EPort) (frm : Bool) (w : W16) (completed : Bool) (ch : Chip) : Chip :=
  let e := ch.ehran.get p
  if ¬ ch.selected p then ch
  else
    let c1 := ch.modEhran p (fun e => { e with early := e.early + 1 })
    let c2 := if completed then
      (c1.cycle p frm w).modEhran p (fun e => { e with wave :=
        match e.wave with
        | [a, b, _, z] => earlySteps a.frm b.frm z.frm a.d
        | _ => e.wave })
    else if e.dir then
      let t := ch.current (EPort.port p)
      c1.modEhran p (fun e => { e with
        wave := abandonedSteps (decide (0 < t.done)) (e.transferWord (t.bytes.drop t.done)),
        out := { e.out with cur := some t } })
    else (if frm then c1.modEhran p (fun e => { e with frm := true }) else c1.frmLow p).modEhran p (fun e => { e with
      wave := abandonedSteps frm w })
    c2.modEhran p (fun e => { e with lastViol := 4 })

/-- DIRECTION_GLITCH: the cycle completes in the direction seen at its strobe; then the other direction counts. DESIGN CHOICE (log
entry 77): EHR_LAST_VIOL keeps kind 5. -/
def directionGlitchEffect (p : EPort) (frm : Bool) (w : W16) (ch : Chip) : Chip :=
  let e := ch.ehran.get p
  if ¬ ch.selected p then ch
  else
    let c1 := (ch.cycle p frm w).modEhran p (fun e => { e with dirGlitch := e.dirGlitch + 1, lastViol := 5 })
    (c1.turn p (!e.dir)).modEhran p (fun x => { x with dirPin := !e.dir })

/-- SELECT_GLITCH: the cycle completes and the pins are released (R82 kind 6, R67). DESIGN CHOICE (log entry 77): EHR_LAST_VIOL keeps
kind 6. -/
def selectGlitchEffect (p : EPort) (frm : Bool) (w : W16) (ch : Chip) : Chip :=
  if ¬ ch.selected p then ch
  else (ch.cycle p frm w).modEhran p (fun e => { e with selGlitch := e.selGlitch + 1, lastViol := 6, sel := false })

/-- TURNAROUND (R71): En_DIR changes; it counts while the port is selected, and at the next En_SEL# fall otherwise (R74). -/
def turnaroundEffect (p : EPort) (toHost : Bool) (ch : Chip) : Chip :=
  let c1 := ch.modEhran p (fun e => { e with dirPin := toHost })
  if ch.selected p && decide ((ch.ehran.get p).dir ≠ toHost) then c1.turn p toHost else c1

/-- The port takes the present levels of En_FRM and En_DIR (R74). -/
def Chip.takeLevels (ch : Chip) (p : EPort) : Chip :=
  let e := ch.ehran.get p
  let c1 := if e.frm then ch else ch.frmLow p
  if e.dir ≠ e.dirPin then c1.turn p e.dirPin else c1

/-- PORT_RESELECT (R74): the present levels act as changes made at this instant. A port that is off takes them when it comes on. -/
def portReselectEffect (p : EPort) (frm toHost : Bool) (ch : Chip) : Chip :=
  let c1 := ch.modEhran p (fun e => { e with sel := true, frm := frm && !toHost, dirPin := toHost })
  if ch.ehranOn p then c1.takeLevels p else c1

/-- PORT_DESELECT (R67), after the write cycles of a packet that stays open. -/
def portDeselectEffect (p : EPort) (run : WriteRun) (ch : Chip) : Chip :=
  (ch.writeRun p run).modEhran p (fun e => { e with sel := false })

/-- PACE_RELEASE (R82 kind 7, R85): the strobe that begins a packet found the receive buffer full; room frees, its acknowledge falls
and the transfer is taken. With room, or with no packet to begin, no acknowledge waits. DESIGN CHOICE (log entry 77): EHR_LAST_VIOL
keeps kind 7. -/
def paceReleaseEffect (p : EPort) (w : W16) (ch : Chip) : Chip :=
  let e := ch.ehran.get p
  if ch.selected p && !e.dir && e.begins && decide (2 ≤ e.rxHeld) then
    (ch.cycle p true w).modEhran p (fun e => { e with lastViol := 7 })
  else ch

/-- What port p would use of the active generation. -/
def Chip.wanted (ch : Chip) (p : Port) : PortCfg := ch.passQ.active.ports.get p

/-- Declares a port's rate to Kettle (R88); a rejection at once sets decl_refused, which only a confirmed raise clears. -/
def Chip.declareRate (ch : Chip) (p : Port) (r : BitVec 6) : Chip :=
  let x := ch.declare (.port p r) none
  if x.2 ≠ .rejected then x.1
  else if h : p.val < 4 then x.1.modEhran ⟨p.val, h⟩ (fun e => { e with declRefused := e.enabled })
  else { x.1 with spi := { x.1.spi with declRefused := true } }

/-- PORT_CONFIG_ADOPT (R86): at a boundary the port adopts width, rate and enable of the active generation; enable 1 needs no boundary
(R87), so that a partly read reply resumes, and until the boundary the rate is declared at the width in force. An enabled port takes
the present levels of its pins. -/
def portConfigAdoptEffect (p : EPort) (ch : Chip) : Chip :=
  let e := ch.ehran.get p
  let g := ch.wanted (EPort.port p)
  let boundary := !e.rxOpen && e.out.cur.isNone
  if ¬ ch.power.core ∨ ¬ e.cfgPending ∨ (e.enabled ∧ ¬ g.enable) ∨ (e.enabled ∧ ¬ boundary) ∨ (¬ g.enable ∧ ¬ boundary) then ch
  else
    let wide := if boundary then g.wide else e.width16
    let c1 := (ch.modEhran p (fun e => { e with enabled := g.enable, width16 := wide, cfgPending := decide (wide ≠ g.wide) })).declareRate
      (EPort.port p) (g.rate (if wide then 50 else 25))
    if e.enabled then c1 else if c1.ehranOn p then c1.takeLevels p else c1

/-- PORT_DISABLE (R87): with both handshake lines high, after the write cycles of a packet, the port adopts enable 0; an open host
packet ends and is judged. -/
def portDisableEffect (p : EPort) (run : WriteRun) (ch : Chip) : Chip :=
  let g := ch.wanted (EPort.port p)
  let c1 := ch.writeRun p run
  if ¬ ch.power.core ∨ ¬ (ch.ehran.get p).enabled ∨ g.enable then c1
  else
    ((c1.endPacket p).modEhran p (fun e => { e with enabled := false, cfgPending := decide (e.width16 ≠ g.wide) })).declareRate
      (EPort.port p) 0

/-! ### The commands -/

/-- EHRAN_PACKET_END (R74, R127). -/
def execEhranPacketEnd (p : EPort) (run : WriteRun) (how : PacketEnd) (s : State) : Host.Outcome State Fault Refusal :=
  s.onChip (ehranPacketEndEffect p run how)
/-- EHRAN_REPLY_READ (R79–R81). -/
def execEhranReplyRead (p : EPort) (n : Nat) (s : State) : Host.Outcome State Fault Refusal := s.onChip (ehranReplyReadEffect p n)
/-- STRAY_TRANSFER (R82). -/
def execStrayTransfer (p : EPort) (frm : Bool) (w : W16) (s : State) : Host.Outcome State Fault Refusal :=
  s.onChip (strayTransferEffect p frm w)
/-- EARLY_RELEASE (R83). -/
def execEarlyRelease (p : EPort) (frm : Bool) (w : W16) (completed : Bool) (s : State) : Host.Outcome State Fault Refusal :=
  s.onChip (earlyReleaseEffect p frm w completed)
/-- DIRECTION_GLITCH (R82). -/
def execDirectionGlitch (p : EPort) (frm : Bool) (w : W16) (s : State) : Host.Outcome State Fault Refusal :=
  s.onChip (directionGlitchEffect p frm w)
/-- SELECT_GLITCH (R82). -/
def execSelectGlitch (p : EPort) (frm : Bool) (w : W16) (s : State) : Host.Outcome State Fault Refusal :=
  s.onChip (selectGlitchEffect p frm w)
/-- TURNAROUND (R71). -/
def execTurnaround (p : EPort) (toHost : Bool) (s : State) : Host.Outcome State Fault Refusal := s.onChip (turnaroundEffect p toHost)
/-- PORT_RESELECT (R74). -/
def execPortReselect (p : EPort) (frm toHost : Bool) (s : State) : Host.Outcome State Fault Refusal :=
  s.onChip (portReselectEffect p frm toHost)
/-- PORT_DESELECT (R67). -/
def execPortDeselect (p : EPort) (run : WriteRun) (s : State) : Host.Outcome State Fault Refusal := s.onChip (portDeselectEffect p run)
/-- PACE_RELEASE (R85). -/
def execPaceRelease (p : EPort) (w : W16) (s : State) : Host.Outcome State Fault Refusal := s.onChip (paceReleaseEffect p w)
/-- PORT_CONFIG_ADOPT (R86). -/
def execPortConfigAdopt (p : EPort) (s : State) : Host.Outcome State Fault Refusal := s.onChip (portConfigAdoptEffect p)
/-- PORT_DISABLE (R87). -/
def execPortDisable (p : EPort) (run : WriteRun) (s : State) : Host.Outcome State Fault Refusal := s.onChip (portDisableEffect p run)

end Sys2Proof.Machine
end

