-- ==== Sys2Proof/Machine/KettleRows.lean ====
section
/-! DEFINITION. Kettle's evaluation with the confirmation of declarations, declarations from the planes, their time limit, and the loss
of the reference (02: R34, R52, R53, R58, R60; 07: order 11). -/

namespace Sys2Proof.Machine

/-- The flag decl_refused of a port (R88, R104). -/
def Chip.setDeclRefused (ch : Chip) (p : Port) (b : Bool) : Chip :=
  if h : p.val < 4 then ch.modEhran ⟨p.val, h⟩ (fun e => { e with declRefused := b })
  else { ch with spi := { ch.spi with declRefused := b } }

/-- What follows the confirmation of a raise: its command goes on, a port's flag falls (R60, R88). -/
def Chip.confirmed (ch : Chip) (r : Raise) : Chip :=
  match r.decl, r.cmd with
  | .deck d _, some cmd => ch.run cmd d
  | .deck _ _, none => ch
  | .port p _, _ => ch.setDeclRefused p false

/-- What follows the rejection of a raise: at_ceiling, LOAD_UNCOVERED and the command's refusal, or a port's flag (R60, R88). -/
def Chip.rejected (ch : Chip) (r : Raise) : Chip :=
  let c1 := ch.modKettle (fun k => { k with atCeiling := true })
  match r.decl, r.cmd with
  | .deck d _, some cmd => c1.uncovered cmd d
  | .deck d _, none => c1.postDeck d Ev.loadUncovered 152 0
  | .port p _, _ => c1.setDeclRefused p true

/-- The engine domains of a deck that a load names, as places in 48 + 6d + j (Table 2-4, Table 19-3). -/
def loadEngines (l : DeckLoad) : List Nat :=
  if l.tracks = 0 then []
  else if l.reading then (if l.decompress then [1, 3] else [3])
  else if l.compress then [0, 2, 4] else [2, 4]

/-- The domains that a declaration names are on; one that is held is not waited for (R467, R500). -/
def Chip.awake (ch : Chip) (x : Declaration) : Bool := match x with
  | .deck d l => (loadEngines l).all (fun j => ch.domOn (engineUnit d j) || ch.log.held.contains (engineUnit d j))
  | .port .. => true

/-- KETTLE_EVALUATE: the pending raises are confirmed together when their whole set is covered and the domains that they name have come on
(R60, R467), then the control procedure runs
on the loads in force (R58), and the commands that waited go on. -/
def kettleEvaluateEffect (times : List (BitVec 24)) (ch : Chip) : Chip :=
  if ¬ ch.kettleEvaluates then ch
  else if ch.kettle.raising ≠ [] ∧ ch.kettle.covered times ∧ ch.kettle.raising.all (fun r => ch.awake r.decl) then
    let c1 := (ch.modKettle (fun k => { k.withPending with raising := [], atCeiling := false })).kettleMeasure times
    ch.kettle.raising.foldl (fun c r => c.confirmed r) c1
  else ch.kettleMeasure times

/-- LOAD_DECLARATION: a plane declares a load by itself (R34). -/
def loadDeclarationEffect (x : Declaration) (ch : Chip) : Chip :=
  if ¬ ch.power.core then ch
  else
    let r := ch.declare x none
    match r.2 with
    | .rejected => r.1.rejected { decl := x, cmd := none }
    | .applied | .waiting => r.1

/-- DECLARATION_TIMEOUT: the 10 ms of the oldest pending raise run out; it alone is rejected (R60). -/
def declarationTimeoutEffect (ch : Chip) : Chip :=
  match ch.kettle.raising with
  | [] => ch
  | r :: rest => (ch.modKettle (fun k => { k with raising := rest })).rejected r

/-- REFERENCE_LOSS (R52, R53): FREE_RUN from a state in which HGREF drove the counter. -/
def referenceLossEffect (ch : Chip) : Chip :=
  if ¬ ch.timebase.onRef then ch
  else
    let c1 := ch.modTb (fun t => { t with
      refState := .freeRun, wasFree := true, lossCount := sat8 (t.lossCount.toNat + 1), lossTime := ch.now,
      central := t.central.lose, decks := t.decks.map Lines.lose })
    let c2 := (c1.logFault 0x31 149 0 (c1.timebase.lossCount.setWidth 32) 0 0).post Ev.refLost .locks 149 0 0
    let c3 := c2.modKettle (fun k => if k.recal then { k with recal := false, settling := false } else k)
    allDecks.foldl (fun c d => c.faultStop d Cause.refLost false false) c3

/-- KETTLE_EVALUATE (R57, R58, R60). -/
def execKettleEvaluate (times : List (BitVec 24)) (s : State) : Host.Outcome State Fault Refusal := s.onChip (kettleEvaluateEffect times)
/-- LOAD_DECLARATION (R34, R60). -/
def execLoadDeclaration (l : Declaration) (s : State) : Host.Outcome State Fault Refusal := s.onChip (loadDeclarationEffect l)
/-- DECLARATION_TIMEOUT (R60). -/
def execDeclarationTimeout (s : State) : Host.Outcome State Fault Refusal := s.onChip declarationTimeoutEffect
/-- REFERENCE_LOSS (R52, R53). -/
def execReferenceLoss (s : State) : Host.Outcome State Fault Refusal := s.onChip referenceLossEffect

end Sys2Proof.Machine
end

