-- ==== Sys2Proof/Machine/Domains.lean ====
section
/-! DEFINITION. Domain control: policies, idle reports, switch-off and wake, deck holds and SRAM groups (19: R465–R470, R485; 01: R35). -/

namespace Sys2Proof.Machine

/-- The policy a domain acts on (Table 19-3, R466): 0 ON, 1 AUTO, 2 OFF. -/
def Domains.acts (x : Domains) (n : Nat) : Nat :=
  let p := ((x.policy[n]?).getD 0).toNat
  let auto := decide (11 ≤ n ∧ n ≤ 35) || decide (48 ≤ n ∧ n ≤ 71 ∧ (n - 48) % 6 ≤ 4)
  if p = 0 then 0 else if p = 1 then (if auto then 1 else 0) else if 11 ≤ n ∧ n ≤ 31 then 2 else 0

/-- The deck of a domain from 48 to 71. -/
def domainDeck (n : Nat) : Deck := Fin.ofNat 4 ((n - 48) / 6)

/-- A domain reports idle (Table 19-3). -/
def Chip.domIdle (ch : Chip) (n : Nat) : Bool :=
  if n = 1 then ch.timebase.trimsRead
  else if n = 9 ∨ n = 10 then ch.cook.restarting
  else if 11 ≤ n ∧ n ≤ 15 then !ch.portEnabled (Fin.ofNat 5 (n - 11))
  else if 16 ≤ n ∧ n ≤ 31 then
    (List.range 4).all (fun j => decide ((ch.ctxs.get (Fin.ofNat 64 (4 * (n - 16) + j))).state = .closed))
  else if 32 ≤ n ∧ n ≤ 35 then (ch.merge.get (Fin.ofNat 9 (n - 27))).isEmpty
  else if 48 ≤ n ∧ n ≤ 71 then
    let d := domainDeck n
    let k := ch.decks.get d
    let l := ch.kettle.decks.get d
    let writes := decide (l.tracks ≠ 0) && !l.reading
    let reads := decide (l.tracks ≠ 0) && l.reading
    match (n - 48) % 6 with
    | 0 => !(writes && l.compress) && k.staged.isEmpty && (match k.lock.owner with
        | some i => (ch.waitingRecs i d).isEmpty
        | none => true)
    | 1 => !(reads && l.decompress) && k.toExpand.isEmpty
    | 2 => !writes && k.staged.isEmpty && k.orders.isEmpty && k.roller.buffers.isEmpty && k.roller.open_.isNone
    | 3 => !reads && k.toExpand.isEmpty && !k.strainer.reading
    | 4 => !writes && k.roller.buffers.isEmpty
    | _ => false
  else false

/-- Domains with a policy field that can switch them, past their first-on time and not kept off (R466, R469, R500). -/
def Chip.switchable (ch : Chip) (n : Nat) : Bool :=
  !ch.log.held.contains n && !ch.domains.recovering.contains n &&
  (if 11 ≤ n ∧ n ≤ 35 then ch.power.core
   else if 48 ≤ n ∧ n ≤ 71 then ch.power.decksOn && !ch.domains.deckOff.getLsbD (domainDeck n).val
   else false)

/-- What a domain loses by being off: a port domain its wire replies and its open packet, a read path its alignment and track
locks, servo I/O everything but the levels on its pins (R467). -/
def Chip.freshDomain (ch : Chip) (n : Nat) : Chip :=
  if 11 ≤ n ∧ n ≤ 15 then
    let p : Port := Fin.ofNat 5 (n - 11)
    let c1 := ch.modReplyOut p (fun o => { o with wire := [] })
    if h : p.val < 4 then c1.modEhran ⟨p.val, h⟩ (fun e => { e with rxOpen := false, rx := [], rxLong := false, rxHeld := 0 }) else { c1 with spi := { c1.spi with rxHeld := 0 } }
  else if 48 ≤ n ∧ n ≤ 71 ∧ (n - 48) % 6 = 3 then
    ch.modDeck (domainDeck n) (fun k => { k with strainer := { k.strainer with
      aligned := false, tracks := Vector.replicate 16 .reset, pass := 0, rows := [], reading := false } })
  else if 48 ≤ n ∧ n ≤ 71 ∧ (n - 48) % 6 = 5 then
    ch.modDeck (domainDeck n) (fun k => { k with io := { MotionIo.reset with
      axes := k.io.axes, encs := k.io.encs.map (fun e => { Encoder.reset with a := e.a, b := e.b }),
      posLo := { Limit.reset with raw := k.io.posLo.raw, active := k.io.posLo.raw },
      posHi := { Limit.reset with raw := k.io.posHi.raw, active := k.io.posHi.raw },
      cart := k.io.cart, door := k.io.door, tapemk := k.io.tapemk } })
  else ch

/-- DOMAIN_AUTO_OFF: a domain under AUTO, or under OFF, that reports idle is switched off (R466). -/
def domainAutoOffEffect (n : Fin 148) (ch : Chip) : Chip :=
  if ch.switchable n.val ∧ ch.domOn n.val ∧ ch.domains.acts n.val ≠ 0 ∧ ch.domIdle n.val then ch.switchDomains [n.val] false else ch

/-- A declared need of a domain (R466): a load that names it, confirmed or waiting, or entries in the engine's queues; a CTX_OPEN for a context
of the island; a port that is enabled. A descriptor posted to a Tongs channel comes with its own row. -/
def Chip.needed (ch : Chip) (n : Nat) : Bool :=
  if 16 ≤ n ∧ n ≤ 31 then ch.openQ.any (fun c => decide (c.ctx.val / 4 = n - 16))
  else if 32 ≤ n ∧ n ≤ 35 then true
  else !ch.domIdle n || ch.kettle.raising.any (fun r => match r.decl with
    | .deck d l => (loadEngines l).any (fun j => engineUnit d j == n)
    | .port .. => false)

/-- DOMAIN_WAKE: a need switches an AUTO domain on from its reset state (R466, R467); a unit under recovery comes on again, and its
restart is finished (R499). -/
def domainWakeEffect (n : Fin 148) (ch : Chip) : Chip :=
  if ch.domOn n.val ∨ ch.power.warning then ch
  else if ch.domains.recovering.contains n.val ∧ ¬ ch.log.held.contains n.val then
    ((ch.freshDomain n.val).switchDomains [n.val] true).modDom (fun x => { x with recovering := x.recovering.filter (· != n.val) })
  else if ch.switchable n.val ∧ ch.domains.acts n.val = 1 ∧ ch.needed n.val then
    ((ch.freshDomain n.val).switchDomains [n.val] true).modDom (fun x => { x with wakes := x.wakes + 1 })
  else ch

/-- A policy field is written (R466, R485). -/
def Chip.setPolicy (ch : Chip) (n : Nat) (p : BitVec 2) : Chip :=
  let c1 := ch.modDom (fun x => { x with policy := x.policy.set n p })
  if ¬ c1.switchable n then c1
  else match c1.domains.acts n with
    | 0 => if c1.domOn n then c1 else (c1.freshDomain n).switchDomains [n] true
    | 2 => if c1.domIdle n then c1.switchDomains [n] false else c1
    | _ => c1

/-- The lines of deck d calibrate when a reference counts them (R49, Table 19-6). -/
def Chip.calibrateDeck (ch : Chip) (d : Deck) : Chip :=
  if ch.timebase.onRef ∧ ch.domOn (44 + d.val) then ch.modTb (fun t => { t with decks := t.decks.set d (t.decks.get d).start }) else ch

/-- The nine domains of deck d come on, but those of held units, and its lines calibrate (R469, R500). -/
def Chip.deckDomainsUp (ch : Chip) (d : Deck) : Chip :=
  (ch.switchDomains ((deckDomains d).filter (fun n => !ch.log.held.contains n && !ch.domains.recovering.contains n)) true).calibrateDeck d

/-- DOM_CTRL.deck_hold takes a value (R469): set bits wait for their conditions, cleared bits switch the nine domains on. -/
def Chip.setDeckHold (ch : Chip) (v : BitVec 4) : Chip :=
  let back := ch.domains.deckOff &&& ~~~v
  let c1 := ch.modDom (fun x => { x with deckHold := v, holdPend := v &&& ~~~x.deckOff, deckOff := x.deckOff &&& v })
  let c2 := allDecks.foldl (fun c (d : Deck) => if back.getLsbD d.val && c.power.decksOn then c.deckDomainsUp d else c) c1
  allDecks.foldl (fun c d => c.applyHold d) c2

/-- DOM_CTRL.sram_off takes a value (R470): cleared bits switch a group on, whose words Colander rewrites (R289). -/
def Chip.setSramOff (ch : Chip) (v : BitVec 4) : Chip :=
  let back := ch.domains.sramActive &&& ~~~v
  let c1 := ch.modDom (fun x => { x with sramOff := v, sramActive := x.sramActive &&& v, sramPend := v &&& ~~~x.sramActive })
  let c2 := [0, 1, 2, 3].foldl (fun c (q : Nat) =>
    if back.getLsbD q then
      (if c.power.core then c.switchDomains (groupDomains q) true else c).modSram (fun m => { m with
        mem := m.mem.filter (fun x => x.1 / 2097152 != q) })
    else c) c1
  c2.settleSram

/-- DOMAIN_AUTO_OFF (R466). -/
def execDomainAutoOff (n : Fin 148) (s : State) : Host.Outcome State Fault Refusal := s.onChip (domainAutoOffEffect n)
/-- DOMAIN_WAKE (R467). -/
def execDomainWake (n : Fin 148) (s : State) : Host.Outcome State Fault Refusal := s.onChip (domainWakeEffect n)
/-- DECK_HOLD (R469). -/
def execDeckHold (value : BitVec 4) (s : State) : Host.Outcome State Fault Refusal := s.onRegister (fun ch => ch.setDeckHold value)
/-- SRAM_OFF (R470). -/
def execSramOff (value : BitVec 4) (s : State) : Host.Outcome State Fault Refusal := s.onRegister (fun ch => ch.setSramOff value)

end Sys2Proof.Machine
end

