-- ==== Sys2Proof/Machine/Spi.lean ====
section
/-! DEFINITION. Port S: framing, packets in and out, violations and configuration (04: R94–R105). One command is one transaction,
to the rise of S_CS#. -/

namespace Sys2Proof.Machine

/-- Port S is port 4 of the packet ports. -/
def portS : Port := 4

def Chip.modSpi (ch : Chip) (f : SpiPort → SpiPort) : Chip := { ch with spi := f ch.spi }

/-- Port S sees S_CS# (R103, R464). -/
def Chip.spiOn (ch : Chip) : Bool := ch.portsUp portS && ch.spi.enabled

/-- A wire reply or a wholly staged reply waits (Table 4-2). -/
def ReplyOut.ready (o : ReplyOut) : Bool := !o.wire.isEmpty || !o.staged.isEmpty

/-- The door byte (Table 4-2): room as taken at the fall of S_CS# (R102). -/
def Chip.doorByte (ch : Chip) (room : Bool) : Byte :=
  BitVec.ofNat 8 (0x0B + 128 * bit room + 64 * bit ch.spi.out.ready + 32 * bit ch.phase.isSome)

/-- S_CS# falls: the room there is now is the transaction's, and the door byte is shifted during the framing byte (R96, R102). -/
def Chip.csFall (ch : Chip) : Chip :=
  let room := ch.spi.room
  let b := ch.doorByte room
  ch.modSpi (fun v => { v with door := b, cs := some room })

/-- A transaction begins, unless S_CS# has been low since the last command; n packets have been moved out of the receive buffer. -/
def Chip.beginXact (ch : Chip) (moved : Nat) : Chip :=
  let c1 := ch.modSpi (fun v => { v with rxHeld := v.rxHeld - moved })
  if c1.spi.cs.isSome then c1 else c1.csFall

/-- S_CS# rises; `next` when it falls again before the next command. -/
def Chip.endXact (ch : Chip) (next : Bool) : Chip :=
  let c1 := ch.modSpi (fun v => { v with cs := none })
  if next && c1.spiOn then c1.csFall else c1

/-- A violation of kind k is counted (Table 4-4). -/
def SpiPort.violation (v : SpiPort) (k : Fin 7) : SpiPort :=
  { v with cnt := v.cnt.set k (v.cnt.get k + 1), lastViol := BitVec.ofNat 4 (k.val + 1) }

/-- A counted violation with its wire reply (R84, R101). -/
def Chip.spiAnswer (ch : Chip) (k : Fin 7) (bs : List Byte) (st : Stat) : Chip :=
  ((ch.modSpi (fun v => v.violation k)).offerWire portS (wireReply (refusalCtx bs) (refusalTag bs) st ch.now)).1

/-- What the framing byte opens (R96, R101). -/
inductive Framing where
  | packetIn | packetOut | bad
  deriving DecidableEq, Repr

def framingOf (b : Byte) : Framing := if b = 0x5A then .packetIn else if b = 0xA5 then .packetOut else .bad

/-- The body of a packet-in (R97, R101, R127); an empty one is a door peek and changes nothing. DESIGN CHOICE (log entry 78): an
incomplete byte of a packet that finds no room is not counted as kind 5. A packet that Sieve takes keeps its place of the
receive buffer until it is moved on. -/
def Chip.packetIn (ch : Chip) (body : List Byte) (oddBits : Bool) : Chip :=
  if body.isEmpty then ch
  else
    let c1 := (ch.flushBuffer 4 []).modSpi (fun v => { v with xactIn := v.xactIn + 1 })
    if ch.spi.cs ≠ some true then c1.spiAnswer 5 body Stat.wireNoroom
    else
      let c2 := if oddBits then c1.modSpi (fun v => v.violation 4) else c1
      if body.length < 8 then c2.spiAnswer 0 body Stat.wireRunt
      else if 4096 < hdrLength body then c2.refuse portS body Stat.lengthOver
      else if body.length < packetExpected body then c2.spiAnswer 0 body Stat.wireRunt
      else if packetExpected body < body.length then c2.spiAnswer 1 body Stat.wireLong
      else (c2.modSpi (fun v => { v with rxHeld := v.rxHeld + 1 })).sieve4to16 portS body

/-- The body of a packet-out (R98, R99): `shifted` bytes leave before S_CS# rises; after the reply's last byte they are 0x00. DESIGN
CHOICE (log entry 78): an incomplete byte of it is not counted as kind 5. -/
def Chip.packetOut (ch : Chip) (shifted : Nat) : Chip :=
  let t := ch.current portS
  let seen := (t.bytes ++ List.replicate (shifted - t.bytes.length) 0#8).take shifted
  if t.bytes.length ≤ shifted then
    ch.modSpi (fun v => { v with xactOut := v.xactOut + 1,
                                 idleOut := if t.source = .idle then v.idleOut + 1 else v.idleOut,
                                 out := { v.out.finished t with last := seen } })
  else
    ch.modSpi (fun v => { v.violation 6 with
      out := { v.out with cur := if t.source = .idle then none else some { t with done := 0 }, last := seen } })

/-- A transaction with a whole framing byte: the bytes of the host after it, whether an incomplete byte follows them, and as many
bytes shifted out (R96–R101). -/
def Chip.transaction (ch : Chip) (framing : Byte) (body : List Byte) (oddBits : Bool) (shifted : Nat) : Chip :=
  match framingOf framing with
  | .packetIn => ch.packetIn body oddBits
  | .packetOut => ch.packetOut shifted
  | .bad => ch.modSpi (fun v => v.violation 3)

/-- SPI_PACKET_IN: framing byte 0x5A. -/
def spiPacketInEffect (moved : Nat) (body : List Byte) (oddBits next : Bool) (ch : Chip) : Chip :=
  if ch.spiOn then ((ch.beginXact moved).transaction 0x5A body oddBits 0).endXact next else ch
/-- SPI_PACKET_OUT: framing byte 0xA5. -/
def spiPacketOutEffect (moved shifted : Nat) (next : Bool) (ch : Chip) : Chip :=
  if ch.spiOn then ((ch.beginXact moved).transaction 0xA5 [] false shifted).endXact next else ch
/-- DOOR_PEEK (R97): framing byte 0x5A and no body. -/
def doorPeekEffect (next : Bool) (ch : Chip) : Chip :=
  if ch.spiOn then ((ch.beginXact 0).transaction 0x5A [] false 0).endXact next else ch
/-- SPI_FRAGMENT (R101 kind 3). -/
def spiFragmentEffect (next : Bool) (ch : Chip) : Chip :=
  if ch.spiOn then ((ch.beginXact 0).modSpi (fun v => v.violation 2)).endXact next else ch
/-- SPI_BAD_FRAMING (R101 kind 4): the framing byte opens what it opens. -/
def spiBadFramingEffect (framing : Byte) (next : Bool) (ch : Chip) : Chip :=
  if ch.spiOn then ((ch.beginXact 0).transaction framing [] false 0).endXact next else ch

/-- SPI_CONFIG_ADOPT: at an instant when S_CS# is high (R103, R104). -/
def spiConfigAdoptEffect (ch : Chip) : Chip :=
  let g := ch.wanted portS
  if ¬ ch.power.core ∨ ¬ ch.spi.cfgPending ∨ ch.spi.cs.isSome then ch
  else
    (ch.modSpi (fun v => { v with enabled := g.enable, quad := g.wide, cfgPending := false })).declareRate portS
      (g.rate (if g.wide then 25 else 7))

/-- SPI_PACKET_IN (R97). -/
def execSpiPacketIn (moved : Nat) (body : List Byte) (oddBits next : Bool) (s : State) : Host.Outcome State Fault Refusal :=
  s.onChip (spiPacketInEffect moved body oddBits next)
/-- SPI_PACKET_OUT (R98). -/
def execSpiPacketOut (moved shifted : Nat) (next : Bool) (s : State) : Host.Outcome State Fault Refusal :=
  s.onChip (spiPacketOutEffect moved shifted next)
/-- DOOR_PEEK (R97). -/
def execDoorPeek (next : Bool) (s : State) : Host.Outcome State Fault Refusal := s.onChip (doorPeekEffect next)
/-- SPI_FRAGMENT (R101). -/
def execSpiFragment (next : Bool) (s : State) : Host.Outcome State Fault Refusal := s.onChip (spiFragmentEffect next)
/-- SPI_BAD_FRAMING (R101). -/
def execSpiBadFraming (framing : Byte) (next : Bool) (s : State) : Host.Outcome State Fault Refusal :=
  s.onChip (spiBadFramingEffect framing next)
/-- SPI_CONFIG_ADOPT (R103). -/
def execSpiConfigAdopt (s : State) : Host.Outcome State Fault Refusal := s.onChip spiConfigAdoptEffect

end Sys2Proof.Machine
end

