-- ==== Sys2Proof/Machine/Power.lean ====
section
/-! DEFINITION. Power-up, straps, device resets, the Cook's boot, the power-fail sequence and the I/O banks (19: R461–R486; 21: R518–R520,
R550; 20: R498, R503; 03: R87; 01: R36, R37). -/

namespace Sys2Proof.Machine

def Chip.modPower (ch : Chip) (f : Power → Power) : Chip := { ch with power := f ch.power }

/-! ### VIN and its threshold (R461, R462, R484) -/

/-- VIN is v now. -/
def Power.seen (p : Power) (v : BitVec 10) : Power := { p with vin := v, vinLow := if v.toNat < p.vinLow.toNat then v else p.vinLow }

/-- The warning threshold in force, 0.1 V (PWR_PFW, Table 19-9). -/
def Power.threshold (p : Power) : Nat := max 300 (min 450 p.pfw.toNat)

/-- VIN is at or above the threshold plus 1.0 V. -/
def Power.recovered (p : Power) (v : BitVec 10) : Bool := decide (p.threshold + 10 ≤ v.toNat)

/-- An Ehran port of which only the levels on its pins are left. -/
def EhranPort.pins (e : EhranPort) : EhranPort :=
  { EhranPort.reset with sel := e.sel, dirPin := e.dirPin, frm := e.frm, armed := !e.frm }

/-- The chip with nothing on: power-on's state with the bank levels and the count of free values as they are. -/
def Chip.dark (ch : Chip) : Chip :=
  { Chip.reset with
    power := { Power.reset with vioe := ch.power.vioe, viod := ch.power.viod, viom := ch.power.viom, resetLow := ch.power.resetLow },
    ehran := ch.ehran.map EhranPort.pins, freeUsed := ch.freeUsed }

/-- START (R517, code 0x71). -/
def Chip.logStart (ch : Chip) : Chip := ch.logFault 0x71 150 0 (ch.power.lastStart.setWidth 32) 0 0

/-- POWER_ON: VIN valid (R475, 0 ms). -/
def powerOnEffect (vin : BitVec 10) (ch : Chip) : Chip :=
  if ch.power.valid then ch
  else
    (((ch.dark.modPower (fun p => { p.seen vin with valid := true })).switchDomains [0, 1, 2] true).modTb (fun t => { t with
      running := true })).logStart

/-- V3A_UP (R475, 1 ms). -/
def v3aUpEffect (ch : Chip) : Chip := if ch.power.valid then ch.modPower (fun p => { p with v3a := true }) else ch

/-- TRIM_READ (R46, R474, R475, 2 ms): the trims are read, domain 1 goes off, MA is sampled. -/
def trimReadEffect (ma : BitVec 3) (ch : Chip) : Chip :=
  if ¬ ch.power.valid ∨ ch.timebase.trimsRead then ch
  else
    let c1 := ((ch.modPower (fun p => { p with ma := ma })).modTb (fun t => { t with trimsRead := true })).switchDomains [1] false
    { c1 with i2c := { c1.i2c with addr := 0x30#7 + ma.setWidth 7 } }

/-- ALWAYS_ON_READY (R107, R114, 3 ms). -/
def alwaysOnReadyEffect (ch : Chip) : Chip :=
  if ch.power.valid then { ch with i2c := { ch.i2c with ready := true }, jtag := { ch.jtag with ready := true } } else ch

/-! ### Straps (R474) -/

/-- The reset width of the Ehran ports, in both generations and in force (R78, R90). -/
def Generation.withWidth (g : Generation) (wide : Bool) : Generation :=
  { g with ports := ([0, 1, 2, 3] : List (Fin 5)).foldl (fun v (p : Fin 5) => v.set p { v.get p with wide := wide }) g.ports }

/-- SIMPLE# and BOOTMODE are taken (Table 19-5). -/
def Chip.takeStraps (ch : Chip) (bootmode : BitVec 2) (simple : Bool) : Chip :=
  let c1 := ch.modPower (fun p => { p with bootmode := bootmode, simple := simple })
  let c2 := { c1 with
    cook := { c1.cook with bootHold := !bootmode.getLsbD 0 },
    ehran := c1.ehran.map (fun (e : EhranPort) => { e with width16 := simple }),
    passQ := { c1.passQ with staged := c1.passQ.staged.withWidth simple, active := c1.passQ.active.withWidth simple } }
  c2.setDeckHold (if bootmode.getLsbD 1 then 0 else 0xF)

/-- STRAP_SAMPLE (R475, 9 ms). -/
def strapSampleEffect (bootmode : BitVec 2) (simple : Bool) (ch : Chip) : Chip :=
  if ch.power.valid ∧ ¬ ch.power.core ∧ ¬ ch.power.warning ∧ ¬ ch.power.waiting then ch.takeStraps bootmode simple else ch

/-! ### The 10 ms row (R472, R475) -/

/-- The domains that come on at 10 ms (Table 19-3): but domains under OFF that are idle, held units, and SRAM groups that are off. -/
def Chip.coreDomains (ch : Chip) : List Nat :=
  ([3, 4, 5, 6, 7, 8] ++ (List.range 25).map (· + 11)).filter (fun n =>
      !(decide (ch.domains.acts n = 2) && ch.domIdle n) && !ch.log.held.contains n) ++
    ([0, 1, 2, 3].filter (fun q => !ch.domains.sramActive.getLsbD q)).flatMap groupDomains

/-- The Ehran ports that answer take the present levels of their pins (R74). -/
def Chip.portsTakeLevels (ch : Chip) : Chip :=
  ([0, 1, 2, 3] : List EPort).foldl (fun c p => if c.selected p then c.takeLevels p else c) ch

/-- The core domains come on and the start-up phase begins; each enabled port takes its pins' levels and declares its rate (R88, R104). -/
def Chip.coreRow (ch : Chip) : Chip :=
  let c1 := ((ch.modPower (fun p => { p with core := true, waiting := false, inReset := false })).switchDomains ch.coreDomains true).portsTakeLevels
  let c2 := ([0, 1, 2, 3] : List EPort).foldl (fun c p =>
    let g := c.wanted (EPort.port p)
    c.declareRate (EPort.port p) (g.rate (if g.wide then 50 else 25))) c1
  let g := c2.wanted portS
  c2.declareRate portS (g.rate (if g.wide then 25 else 7))

/-- STARTUP_PHASE_BEGIN: the timeline waits here while RESET# is low (R472). -/
def startupPhaseBeginEffect (ch : Chip) : Chip :=
  if ¬ ch.power.valid ∨ ¬ ch.power.v3a ∨ ch.power.core ∨ ch.power.warning ∨ ch.power.waiting then ch
  else if ch.power.resetLow then ch.modPower (fun p => { p with waiting := true })
  else ch.coreRow

/-! ### The Cook boots (R518, R520) -/

/-- Words of a patch image. -/
def patchWordCount : Nat := 4096

/-- The CRC-32 of the 16,384 bytes of an image (R520). -/
def Generation.imageCrc (g : Generation) : W32 :=
  crc32 (((g.patchWords ++ List.replicate (patchWordCount - g.patchWords.length) 0#32).take patchWordCount).flatMap (fun w => leBytes 4 w.toNat))

/-- A deck leaves SAFE when COOK_RESTARTED goes out (R457). -/
def Chip.leaveSafe (ch : Chip) (d : Deck) : Chip :=
  let k := ch.decks.get d
  if k.seq.state ≠ .safe then ch
  else if k.seq.wasLoaded then
    let c1 := (if k.loops.running then ch.haltLoops d else ch).modDeck d (fun k => k.modSeq (fun q => { q with
      cause := 0, cartOut := false, rest := true }))
    (c1.postDeck d Ev.faultStop (servoUnit d) 0).setDeckState d .faultStop
  else ch.setDeckState d (if k.io.cart then .present else .empty)

/-- A boot: the image is copied and checked, COOK_BOOT is appended, and the Cook runs (R518, R520). A boot of a Cook restart ends SAFE
(R498). -/
def Chip.boot (ch : Chip) : Chip :=
  let g := ch.passQ.active
  let enable := g.patchCfg.getLsbD 0
  let ok := enable && decide (g.imageCrc = g.patchCrc)
  let boots := sat8 (ch.cook.boots.toNat + 1)
  let c1 := { ch with cook := { ch.cook with
    state := .running, patchActive := ok, patchRejected := enable && !ok, boots := boots, keptRelease := false, restarting := false,
    hooks := if ok then g.hooks.toList else [], patchRam := g.patchWords } }
  let c2 := (c1.modPower (fun p => { p with cookTook := true })).logFault 0x42 154 0 (boots.setWidth 32)
    ((g.patchCfg.extractLsb' 16 16).setWidth 32) (BitVec.ofNat 32 (bit ok + 2 * bit (enable && !ok)))
  if ch.cook.restarting then
    let c3 := { c2 with cook := { c2.cook with safe := false } }.post Ev.cookRestarted .all 154 0 0
    if ch.cook.safe then allDecks.foldl (fun c d => c.leaveSafe d) c3 else c3
  else c2

/-- COOK_BOOT: at 60 ms the Cook's domains come on, and it boots unless BOOTMODE[0] holds it; a release, or a restart, that waits in
BOOTING boots it (R475, R518). -/
def cookBootEffect (ch : Chip) : Chip :=
  if ¬ ch.power.core ∨ ch.power.warning ∨ ¬ ch.ladle.built then ch
  else match ch.cook.state with
    | .off =>
      let c1 := ch.switchDomains [9, 10] true
      if c1.cook.bootHold ∧ ¬ c1.cook.keptRelease then { c1 with cook := { c1.cook with state := .held } } else c1.boot
    | .booting => (ch.switchDomains [9, 10] true).boot
    | _ => ch

/-! ### The decks come up (R475) -/

/-- DECK_DOMAINS_ON (150 ms): the per-deck domains of every deck not held. -/
def deckDomainsOnEffect (ch : Chip) : Chip :=
  if ¬ ch.power.core ∨ ch.power.decksOn ∨ ch.power.warning then ch
  else
    allDecks.foldl (fun c (d : Deck) => if c.domains.deckOff.getLsbD d.val then c else c.deckDomainsUp d)
      (ch.modPower (fun p => { p with decksOn := true }))

/-- DECKS_CONTROLLABLE (300 ms): decks may leave DORMANT, and Kettle may step (R440, R62). -/
def decksControllableEffect (ch : Chip) : Chip :=
  if ch.power.core ∧ ch.power.decksOn ∧ ¬ ch.power.warning then ch.modPower (fun p => { p with control := true }) else ch

/-! ### Device resets (R471–R473, R482) -/

/-- A generation after a device reset: its retirement and patch parts stay (R295, R550). -/
def Generation.afterReset (g : Generation) : Generation :=
  { Generation.reset with retire := g.retire, eraseMacro := g.eraseMacro, eraseOn := g.eraseOn, patchCfg := g.patchCfg, patchCrc := g.patchCrc,
                          patchWords := g.patchWords, hooks := g.hooks }

/-- What a device reset clears and keeps (Table 19-4, R471). -/
def Chip.deviceReset (ch : Chip) : Chip :=
  { Chip.reset with
    power := { ch.power with core := false, cookTook := false, decksOn := false, control := false },
    domains := { ch.domains with on := (Domains.reset.on.set 0 true).set 2 true, recovering := [], mirror := [] },
    timebase := { ch.timebase with decks := Vector.replicate 4 .reset },
    kettle := { Kettle.reset with
      modeReq := ch.kettle.modeReq, hold := ch.kettle.hold, vminCode := ch.kettle.vminCode, vmaxCode := ch.kettle.vmaxCode,
      overruns := ch.kettle.overruns, overSite := ch.kettle.overSite, raises := ch.kettle.raises },
    temp := ch.temp,
    log := { ch.log with held := [] },
    cook := { Cook.reset with boots := ch.cook.boots, traps := ch.cook.traps, lastTrap := ch.cook.lastTrap, patchIndex := ch.cook.patchIndex },
    emergency := { ch.emergency with mirror := Vector.replicate 4 .reset },
    passQ := { PassQ.reset with staged := ch.passQ.staged.afterReset, active := ch.passQ.active.afterReset },
    sram := { Sram.reset with mem := ch.sram.mem, isolated := ch.sram.isolated, erased := ch.sram.erased, declared := ch.sram.declared,
                              erasePending := ch.sram.erasePending },
    i2c := ch.i2c,
    jtag := ch.jtag,
    ehran := ch.ehran.map EhranPort.pins,
    decks := ch.decks.map (fun k => { k.cleared with cookQ := [], workQ := [] }),
    freeUsed := ch.freeUsed }

/-- RESET_ASSERT (R472, R473): no effect before the 10 ms row, and none from a warning on. -/
def resetAssertEffect (ch : Chip) : Chip :=
  let c1 := ch.modPower (fun p => { p with resetLow := true })
  if ¬ ch.power.core ∨ ch.power.warning then c1
  else ((c1.endIsolation).deviceReset).modPower (fun p => { p with waiting := true, inReset := true })

/-- RESET_RELEASE (R473): the straps are sampled, and the timeline runs from its 10 ms row when it waits there. -/
def resetReleaseEffect (bootmode : BitVec 2) (simple : Bool) (ch : Chip) : Chip :=
  let c1 := ch.modPower (fun p => { p with resetLow := false })
  if ¬ ch.power.waiting ∨ ch.power.warning then c1
  else
    let c2 := if ch.power.inReset then (c1.modPower (fun p => { p with lastStart := 1, cntReset := p.cntReset + 1 })).logStart else c1
    (c2.takeStraps bootmode simple).coreRow

/-- BROWNOUT_RESTART (R482): after the seal, VIN at or above the threshold plus 1.0 V. -/
def brownoutRestartEffect (vin : BitVec 10) (bootmode : BitVec 2) (simple : Bool) (ch : Chip) : Chip :=
  if ¬ ch.power.sealed ∨ ¬ ch.power.recovered vin then ch
  else
    let c1 := ch.deviceReset.modPower (fun p => { p.seen vin with
      warning := false, sealed := false, lastStart := 2, cntReset := p.cntReset + 1, waiting := false, inReset := false })
    let c2 := (({ c1 with log := { c1.log.settle with sealed := false } }.logStart).settleLog).takeStraps bootmode simple
    if c2.power.resetLow then c2.modPower (fun p => { p with waiting := true }) else c2.coreRow

/-- UVLO_FALL (R461, R483): every domain switches off at once. -/
def uvloFallEffect (ch : Chip) : Chip := if ch.power.valid then ch.dark else ch

/-! ### The power-fail sequence (R462, R479–R483) -/

/-- WARNING_ARM (R462). -/
def warningArmEffect (vin : BitVec 10) (ch : Chip) : Chip :=
  if ch.power.valid ∧ ¬ ch.power.warning ∧ ch.power.recovered vin then ch.modPower (fun p => { p.seen vin with armed := true }) else ch

/-- Step 3 of Table 19-8: what the Cook executes, and every completion that waits, ends ABORTED, BY_POWER_FAIL; a halted Cook ends
nothing (R480, R504). -/
def Chip.powerFailCommands (ch : Chip) (can : Bool) : Chip :=
  if ¬ can then ch
  else
    let c1 := allDecks.foldl (fun c d => (((c.modDeck d (fun k => { k with cookQ := [] })).endOp d Stat.byPowerFail []).endWaiters d
      Stat.byPowerFail).endStops d Stat.byPowerFail) ({ ch with tongsQ := [] }.modKettle (fun k => { k with raising := k.raising.filter (fun r => r.cmd.isNone) }))
    allCtxs.foldl (fun c i => (c.ctxs.get i).executing.foldl (fun c e => c.complete i e.tag e.rcrc Stat.byPowerFail []) c) c1

/-- Step 6: every merge entry is flushed and every dirty cache line written back (Table 20-5). -/
def Chip.flushAll (ch : Chip) : Chip := ((List.finRange 9).foldl (fun c b => c.flushBuffer b []) ch).cleanCache

/-- The domains that step 7 switches off: the Cook's, Tongs, the data plane's and the SRAM's. -/
def powerFailDomains : List Nat :=
  [5, 8, 9, 10, 32, 33, 34, 35] ++ ((List.range 24).map (· + 48)).filter (fun n => decide ((n - 48) % 6 ≠ 5)) ++ (List.range 76).map (· + 72)

/-- A write gate is on. -/
def Chip.writing (ch : Chip) : Bool := allDecks.any (fun d => (ch.decks.get d).roller.gate)

/-- POWER_FAIL_WARNING: the whole of Table 19-8, to the seal. `gapUs` is t_p − t_w where a gate was on. -/
def powerFailWarningEffect (vin vinSeal : BitVec 10) (gapUs : W32) (ch : Chip) : Chip :=
  if ¬ ch.power.valid ∨ ¬ ch.power.armed ∨ ch.power.warning ∨ ch.power.threshold ≤ vin.toNat then ch
  else
    let gap : W32 := if ch.writing then gapUs else 0
    let c1 := (ch.modPower (fun p => { p.seen vin with
      armed := false, warning := true, cntWarn := p.cntWarn + 1, tWarn := ch.now, waiting := false })).post Ev.powerFailWarning .all 150 0 (vin.setWidth 32)
    let c3 := allDecks.foldl (fun c d => (c.faultStop d Cause.power false false).gateOff d) (c1.powerFailCommands ch.cookCan)
    let c4 := (c3.flushAll).switchDomains powerFailDomains false
    let c5 := { c4.modPower (fun p => { p.seen vinSeal with core := false, cookTook := false, decksOn := false }) with
      cook := { c4.cook with state := .off }, cache := Cache.reset,
      sram := { c4.sram with mem := [], initDone := false, scrubbing := false } }
    let c6 := (c5.logFault 0x70 150 0 (vinSeal.setWidth 32) gap 0).settleLog
    { c6.modPower (fun p => { p with sealed := true }) with log := { c6.log with sealed := true } }

/-! ### I/O banks (R464) -/

/-- VIO_BANK_CHANGE: bank 0 is VIOE, 1 to 4 VIOD0 to VIOD3, 5 VIOM. A VIOD bank that fails sets a hold on its deck (R522), and its trip
inputs read inactive at once, the others through their own rows; while
VIOE is not good an Ehran port acts as disabled, so its open packet ends (R87). -/
def vioBankChangeEffect (bank : Fin 6) (good : Bool) (ch : Chip) : Chip :=
  if bank.val = 0 then
    let c1 := if good then ch else ([0, 1, 2, 3] : List EPort).foldl (fun c p =>
      if c.ehranOn p then c.endPacket p else c) ch
    (c1.modPower (fun x => { x with vioe := good })).portsTakeLevels
  else if bank.val = 5 then ch.modPower (fun x => { x with viom := good })
  else
    let d : Deck := Fin.ofNat 4 (bank.val - 1)
    let c0 := ch.modPower (fun x => { x with viod := x.viod.set d good })
    let c1 := if good then c0 else c0.modDeck d (fun k => { k with io := { k.io with axes := k.io.axes.map (fun x => { x with tripIn := false }) } })
    if ch.power.valid then c1.stopNewlyHeld ch.deckHeld else c1

/-! ### Registers (R462, R484) -/

/-- PWR_PFW: the threshold acts at once, and an armed warning must arm again (R462). -/
def pwrPfwWriteEffect (value : W32) (ch : Chip) : Chip := ch.modPower (fun p => { p with pfw := value.setWidth 9, armed := false })
/-- PWR_CTRL.clear_low. -/
def pwrClearLowEffect (ch : Chip) : Chip := ch.modPower (fun p => { p with vinLow := p.vin })
/-- A read of PWR_T_WARN_LO latches bits [63:32] (R484). -/
def pwrTWarnLoReadEffect (ch : Chip) : Chip := ch.modPower (fun p => { p with tLatch := p.tWarn.extractLsb' 32 32 })

/-! ### The commands -/

/-- POWER_ON (R475). -/
def execPowerOn (vin : BitVec 10) (s : State) : Host.Outcome State Fault Refusal := s.onChip (powerOnEffect vin)
/-- V3A_UP (R475). -/
def execV3aUp (s : State) : Host.Outcome State Fault Refusal := s.onChip v3aUpEffect
/-- TRIM_READ (R46). -/
def execTrimRead (ma : BitVec 3) (s : State) : Host.Outcome State Fault Refusal := s.onChip (trimReadEffect ma)
/-- ALWAYS_ON_READY (R107). -/
def execAlwaysOnReady (s : State) : Host.Outcome State Fault Refusal := s.onChip alwaysOnReadyEffect
/-- STRAP_SAMPLE (R474). -/
def execStrapSample (bootmode : BitVec 2) (simple : Bool) (s : State) : Host.Outcome State Fault Refusal :=
  s.onChip (strapSampleEffect bootmode simple)
/-- STARTUP_PHASE_BEGIN (R475). -/
def execStartupPhaseBegin (s : State) : Host.Outcome State Fault Refusal := s.onChip startupPhaseBeginEffect
/-- COOK_BOOT (R518). -/
def execCookBoot (s : State) : Host.Outcome State Fault Refusal := s.onChip cookBootEffect
/-- DECK_DOMAINS_ON (R475). -/
def execDeckDomainsOn (s : State) : Host.Outcome State Fault Refusal := s.onChip deckDomainsOnEffect
/-- DECKS_CONTROLLABLE (R475). -/
def execDecksControllable (s : State) : Host.Outcome State Fault Refusal := s.onChip decksControllableEffect
/-- RESET_ASSERT (R473). -/
def execResetAssert (s : State) : Host.Outcome State Fault Refusal := s.onChip resetAssertEffect
/-- RESET_RELEASE (R473). -/
def execResetRelease (bootmode : BitVec 2) (simple : Bool) (s : State) : Host.Outcome State Fault Refusal :=
  s.onChip (resetReleaseEffect bootmode simple)
/-- BROWNOUT_RESTART (R482). -/
def execBrownoutRestart (vin : BitVec 10) (bootmode : BitVec 2) (simple : Bool) (s : State) : Host.Outcome State Fault Refusal :=
  s.onChip (brownoutRestartEffect vin bootmode simple)
/-- UVLO_FALL (R461). -/
def execUvloFall (s : State) : Host.Outcome State Fault Refusal := s.onChip uvloFallEffect
/-- WARNING_ARM (R462). -/
def execWarningArm (vin : BitVec 10) (s : State) : Host.Outcome State Fault Refusal := s.onChip (warningArmEffect vin)
/-- POWER_FAIL_WARNING (R479). -/
def execPowerFailWarning (vin vinSeal : BitVec 10) (gapUs : W32) (s : State) : Host.Outcome State Fault Refusal :=
  s.onChip (powerFailWarningEffect vin vinSeal gapUs)
/-- VIO_BANK_CHANGE (R464). -/
def execVioBankChange (bank : Fin 6) (good : Bool) (s : State) : Host.Outcome State Fault Refusal := s.onChip (vioBankChangeEffect bank good)
/-- PWR_PFW_WRITE (R462). -/
def execPwrPfwWrite (value : W32) (s : State) : Host.Outcome State Fault Refusal := s.onRegister (pwrPfwWriteEffect value)
/-- PWR_CLEAR_LOW (R484). -/
def execPwrClearLow (s : State) : Host.Outcome State Fault Refusal := s.onRegister pwrClearLowEffect
/-- PWR_T_WARN_LO_READ (R484). -/
def execPwrTWarnLoRead (s : State) : Host.Outcome State Fault Refusal := s.onRegister pwrTWarnLoReadEffect

end Sys2Proof.Machine
end

