-- ==== Sys2Proof/Machine/Faults.lean ====
section
/-! DEFINITION. Cook traps, the double fault, SAFE, the Cook restart, engine faults and Tongs descriptors (20: R495–R500; 21: R518,
R519; 18: R457; 11: R278, R284). -/

namespace Sys2Proof.Machine

/-! ### Commands that end with no reply (R498, Table 19-4) -/

/-- What stays of a Cook work queue entry: a notice for a command that `p` names goes, the stop of the tape stays. -/
def CookWork.forget (p : Ctx → W16 → Bool) : CookWork → Option CookWork
  | .ended n => if p n.ctx n.tag then none else some (.ended n)
  | .endedMove (some n) => some (.endedMove (if p n.ctx n.tag then none else some n))
  | w => some w

/-- The commands that `p` names stop executing: nothing completes them later, and their notices are dropped (R498). -/
def Chip.forget (ch : Chip) (p : Ctx → W16 → Bool) : Chip :=
  let c1 := allCtxs.foldl (fun c i => (c.restartLeases i).modCtx i (fun x => { x with executing := x.executing.filter (fun e => !p i e.tag) })) ch
  { c1 with
    decks := c1.decks.map (fun k => { k.modSeq (fun q => { q with
        op := q.op.map (fun o => { o with silent := o.silent || p o.ctx o.tag }),
        waiters := q.waiters.filter (fun w => !p w.ctx w.tag),
        stopWaiters := q.stopWaiters.filter (fun w => !p w.ctx w.tag) }) with cookQ := k.cookQ.filterMap (CookWork.forget p) }),
    tongsQ := c1.tongsQ.filter (fun n => !p n.ctx n.tag),
    held := c1.held.map (fun x => match x.2 with
      | .wdata r reply => (x.1, .wdata { r with silent := r.silent || p (Fin.ofNat 64 (x.1 / 12)) r.tag } reply)
      | .rdata r => (x.1, .rdata r)),
    kettle := { c1.kettle with raising := c1.kettle.raising.map (fun r => { r with cmd := match r.cmd with
      | some m => if p m.ctx m.tag then none else some m
      | none => none }) } }

/-- The executing command of context i with this tag. -/
def Context.executes (x : Context) (tag : W16) : Option Executing := x.executing.find? (fun e => e.tag == tag)

/-- The command that a trap, or a halted descriptor, ends: an executing one, or one that the Cook has just taken, from the CMD queue of
the context that holds the F-PORT grant or from the open queues, or a CTX_OPEN that waits for a close. It completes with `st` (R182). -/
def Chip.endJob (ch : Chip) (i : Ctx) (tag : W16) (st : Stat) : Chip :=
  let x := ch.ctxs.get i
  match x.executes tag, x.cmd.head?, ch.openQ.head?, x.waitingOpen.find? (fun m => m.tag == tag) with
  | some e, _, _, _ => (ch.complete i tag e.rcrc st []).forget (fun j t => decide (j = i ∧ t = tag))
  | none, _, _, some m => (ch.modCtx i (fun x => { x with waitingOpen := x.waitingOpen.erase m })).refuseOpen m st
  | none, some m, o, none =>
    if m.tag = tag ∧ x.state = .open ∧ ch.grantFor 16 i.val then
      ((ch.useGrant 16).modCtx i (fun x => { x with cmd := x.cmd.tail, cmdAt := x.cmdAt.tail })).complete i tag m.rcrc st []
    else match o with
      | some m => if m.ctx = i ∧ m.tag = tag then { ch with openQ := ch.openQ.tail }.refuseOpen m st else ch
      | none => ch
  | none, none, some m, none => if m.ctx = i ∧ m.tag = tag then { ch with openQ := ch.openQ.tail }.refuseOpen m st else ch
  | none, none, none, none => ch

/-! ### SAFE (R457, R497) -/

/-- A deck enters SAFE: a running operation ends with no reply, writing ends, and running loops begin the stop phase (R457, R498). -/
def Chip.enterSafe (ch : Chip) (d : Deck) : Chip :=
  let k := ch.decks.get d
  if ¬ ch.servoOn d then ch
  else
    let c1 := (ch.modDeck d (fun k => (k.failTune.loseHome).modSeq (fun q => { q with
      op := none, waiters := [], stopWaiters := [], unloadAfter := false, stage := 0, rest := !k.loops.running,
      wasLoaded := k.tape.media.isSome || k.loops.running }))).haltEngines d
    let modes := (c1.decks.get d).io.axes
    let c2 := c1.setDeckState d .safe
    if k.loops.running then c2.modDeck d (fun k => ({ k with io := { k.io with axes := modes } }).beginStopPhase false) else c2

/-- The device enters SAFE (R497, R519): DEVICE_SAFE, every deck in SAFE, and no waiting declaration starts a command. -/
def Chip.safe (ch : Chip) : Chip :=
  if ch.cook.safe then ch
  else
    let c1 := { ch with cook := { ch.cook with safe := true } }.post Ev.deviceSafe .all 154 0 0
    (allDecks.foldl (fun c d => c.enterSafe d) c1).modKettle (fun k => { k with raising := k.raising.map (fun r => { r with cmd := none }) })

/-! ### Traps and the double fault (R495, R496, R519) -/

/-- The Cook executes microcode. -/
def Chip.cookActive (ch : Chip) : Bool :=
  match ch.cook.state with
  | .running | .handler => true
  | _ => false

/-- The Cook suffers a double fault: dirty lines are written back, and it halts (R496, R503). -/
def Chip.doubleFault (ch : Chip) (cause : Nat) (pc : W32) : Chip :=
  let c1 := (ch.cleanCache).logFault 0x41 9 0 (BitVec.ofNat 32 cause) pc 0
  { c1 with cook := { c1.cook with state := .halted } }.safe

/-- A micro-PC in the coding of the fault-code table, from a free value: a patch word only while a patch is active (R514). -/
def microPcOf (v : BitVec 15) (patch : Bool) : W32 :=
  if v.getLsbD 14 && patch then BitVec.ofNat 32 (2147483648 + v.toNat % 4096) else BitVec.ofNat 32 (v.toNat % 16384)

/-- A double fault at an unstated micro-PC: a free value (log entry 8). -/
def Chip.haltSomewhere (ch : Chip) (cause : Nat) : Chip :=
  { ch with freeUsed := ch.freeUsed + 1 }.doubleFault cause (microPcOf (Config.microPc ch.freeUsed) ch.cook.patchActive)

/-- A trap is counted. -/
def Cook.trapped (c : Cook) (pc : W32) : Cook := { c with traps := c.traps + 1, lastTrap := pc }

/-- COOK_TRAP (R495, R496): `job` is the command that the Cook was executing. -/
def cookTrapEffect (cause : Nat) (pc : W32) (job : Option (Ctx × W16)) (ch : Chip) : Chip :=
  match ch.cook.state with
  | .running =>
    let c1 := { ch.cleanCache with cook := { ch.cook.trapped pc with state := .handler } }.logFault 0x40 9 0 (BitVec.ofNat 32 cause) pc
      (match job with
       | some j => j.2.setWidth 32
       | none => 0)
    match job with
    | some (i, tag) => c1.endJob i tag Stat.cookTrap
    | none => c1
  | .handler => { ch with cook := ch.cook.trapped pc }.doubleFault 1 pc
  | _ => ch

/-- COOK_DOUBLE_FAULT (R496): cause 1 a trap in the handler, cause 2 a handler active for more than 200 µs. -/
def cookDoubleFaultEffect (cause : Nat) (pc : W32) (ch : Chip) : Chip :=
  match ch.cook.state with
  | .handler => (if cause = 1 then { ch with cook := ch.cook.trapped pc } else ch).doubleFault cause pc
  | _ => ch

/-- A CMD, open or Cook work queue holds an entry (R496). -/
def Chip.cookHasWork (ch : Chip) : Bool :=
  ch.ctxs.toList.any (fun x => !x.cmd.isEmpty) || !ch.openQ.isEmpty || !ch.tongsQ.isEmpty || ch.decks.toList.any (fun k => !k.cookQ.isEmpty)

/-- COOK_SUPERVISION_TIMEOUT (R496). -/
def cookSupervisionTimeoutEffect (ch : Chip) : Chip := if ch.cookActive ∧ ch.cookHasWork then ch.haltSomewhere 3 else ch

/-- COOK_CTRL.halt (R519). -/
def cookHaltEffect (ch : Chip) : Chip := if ch.cookActive then ch.haltSomewhere 4 else ch

/-! ### Release and restart (R498, R518, R519; 01: R37) -/

/-- COOK_CTRL.release (R518). -/
def cookReleaseEffect (ch : Chip) : Chip :=
  match ch.cook.state with
  | .held => { ch with cook := { ch.cook with state := .booting } }
  | .off => { ch with cook := { ch.cook with keptRelease := true } }
  | _ => ch

/-- COOK_CTRL.restart: once the cache is idle the Cook's domains go off and on, and it boots; what it was executing ends with no reply
(R37, R498, R503, Table 19-4). -/
def cookRestartRequestEffect (ch : Chip) : Chip :=
  match ch.cook.state with
  | .running | .handler | .halted =>
    let c1 := ((ch.cleanCache).forget (fun _ _ => true)).switchDomains [9, 10] false
    { c1 with cook := { c1.cook with state := .booting, restarting := true, patchActive := false, hooks := [], patchRam := [] }, cache := Cache.reset }
  | _ => ch

/-- COOK_RESTART: the restart through its boot (R498). -/
def cookRestartEffect (ch : Chip) : Chip :=
  let c1 := cookRestartRequestEffect ch
  if c1.cook.state = .booting ∧ c1.cook.restarting then (c1.switchDomains [9, 10] true).boot else c1

/-! ### Faults of units (R499, R500) -/

/-- A unit's domain is cycled, or kept off when the unit faults before its restart has finished; whether it is now held. -/
def Chip.cycleUnit (ch : Chip) (n : Nat) : Chip × Bool :=
  if ch.domains.recovering.contains n then
    (({ ch with log := { ch.log with held := insertNat n ch.log.held } }.modDom (fun x => { x with
      recovering := x.recovering.filter (· != n) })).switchDomains [n] false, true)
  else ((ch.modDom (fun x => { x with recovering := n :: x.recovering })).switchDomains [n] false, false)

/-- A unit that can fault now: on, or restarting. -/
def Chip.canFault (ch : Chip) (n : Nat) : Bool := !ch.log.held.contains n && (ch.domOn n || ch.domains.recovering.contains n)

/-- What Tongs group g abandons: its merge entries (R499, Table 19-3). -/
def Chip.dropGroup (ch : Chip) (g : Fin 4) : Chip := { ch with merge := ch.merge.set (Fin.ofNat 9 (5 + g.val)) [] }

/-- ENGINE_FAULT: a Tongs group, a deck engine or a deck's servo I/O (R499). -/
def engineFaultEffect (unit : Fin 148) (detail : W32) (ch : Chip) : Chip :=
  let n := unit.val
  if ¬ ch.canFault n then ch
  else if 32 ≤ n ∧ n ≤ 35 then
    let r := ch.cycleUnit n
    (r.1.dropGroup (Fin.ofNat 4 (n - 32))).logFault 0x50 n 0 detail (BitVec.ofNat 32 (bit r.2)) 0
  else if 48 ≤ n ∧ n ≤ 71 then
    let d := domainDeck n
    let r := ch.cycleUnit n
    let c1 := (r.1.logFault 0x50 n (deckObject d) detail (BitVec.ofNat 32 (bit r.2)) 0).postDeck d Ev.engineFault n (BitVec.ofNat 32 n)
    let c2 := c1.modDeck d (fun k => if (n - 48) % 6 = 1 ∨ (n - 48) % 6 = 3 then { k with toExpand := [], tape := { k.tape with current := none } } else k)
    c2.faultStop d Cause.engine false false
  else ch

/-! ### Tongs (11: R278, R284) -/

/-- Channel c halts on a poisoned descriptor: its notice ends its command, and its group's domain is cycled (R21, R499, Table 11-3). -/
def Chip.descriptorHalt (ch : Chip) (g : Fin 4) (channel : Nat) (descriptor : BitVec 18) (job : Option (Ctx × W16)) : Chip :=
  let r := ch.cycleUnit (32 + g.val)
  let c1 := (r.1.dropGroup g).logFault 0x51 (32 + g.val) 0 (BitVec.ofNat 32 channel) (BitVec.ofNat 32 (16 * descriptor.toNat)) 0
  match job with
  | some (i, tag) =>
    match (c1.ctxs.get i).executes tag with
    | some e => { c1 with tongsQ := c1.tongsQ ++ [{ ctx := i, tag := tag, rcrc := e.rcrc, stat := Stat.descriptorHalt, payload := [] }] }
    | none => c1
  | none => c1

/-- One word moves from a to b: the group's own entries for the source flush first; a poisoned word is written poisoned (R276, R283). -/
def Chip.moveWord (ch : Chip) (buf : Fin 9) (dm : Damage) (a b : BitVec 18) : Chip :=
  let r := (ch.flushWhere buf dm (fun e => e.word == a)).demandRead 2 a (errOf dm a)
  { r.1 with merge := r.1.merge.set buf ((r.1.merge.get buf).filter (fun e => e.word != b)) }.writeBytes 2 b 0xFFFF r.2.data r.2.poison []

/-- A Tongs channel can move: its group's domain is on, it holds F-MOVE's grant (R252, R261), and F-BANK serves every word of the move. -/
def Chip.canMove (ch : Chip) (channel : Fin 32) (descriptor : BitVec 18) (words : List (BitVec 18 × BitVec 18)) : Bool :=
  ch.domOn (32 + channel.val / 8) && !ch.cook.safe && ch.grantFor 17 channel.val && ch.bankServes descriptor &&
    words.all (fun x => ch.bankServes x.1 && ch.bankServes x.2)

/-- TONGS_DESCRIPTOR: the channel reads its descriptor, moves its words, and posts its entry after the merge flush (R284). -/
def tongsDescriptorEffect (channel : Fin 32) (job : Option (Ctx × W16)) (descriptor : BitVec 18) (words : List (BitVec 18 × BitVec 18))
    (dm : Damage) (ch : Chip) : Chip :=
  let g : Fin 4 := Fin.ofNat 4 (channel.val / 8)
  let buf : Fin 9 := Fin.ofNat 9 (5 + g.val)
  if ¬ ch.canMove channel descriptor words then ch
  else
    let r := ((ch.useGrant 17).flushWhere buf dm (fun e => e.word == descriptor)).demandRead 2 descriptor (errOf dm descriptor)
    if r.2.poison then r.1.descriptorHalt g channel.val descriptor job
    else (words.foldl (fun c x => c.moveWord buf dm x.1 x.2) r.1).flushBuffer buf dm

/-! ### The commands -/

/-- COOK_TRAP (R495). -/
def execCookTrap (cause : Nat) (pc : W32) (job : Option (Ctx × W16)) (s : State) : Host.Outcome State Fault Refusal :=
  s.onChip (cookTrapEffect cause pc job)
/-- COOK_DOUBLE_FAULT (R496). -/
def execCookDoubleFault (cause : Nat) (pc : W32) (s : State) : Host.Outcome State Fault Refusal := s.onChip (cookDoubleFaultEffect cause pc)
/-- COOK_SUPERVISION_TIMEOUT (R496). -/
def execCookSupervisionTimeout (s : State) : Host.Outcome State Fault Refusal := s.onChip cookSupervisionTimeoutEffect
/-- COOK_RESTART (R498). -/
def execCookRestart (s : State) : Host.Outcome State Fault Refusal := s.onChip cookRestartEffect
/-- COOK_RELEASE (R518). -/
def execCookRelease (s : State) : Host.Outcome State Fault Refusal := s.onRegister cookReleaseEffect
/-- COOK_RESTART_REQUEST (R519). -/
def execCookRestartRequest (s : State) : Host.Outcome State Fault Refusal := s.onRegister cookRestartRequestEffect
/-- COOK_HALT (R519). -/
def execCookHalt (s : State) : Host.Outcome State Fault Refusal := s.onRegister cookHaltEffect
/-- ENGINE_FAULT (R499). -/
def execEngineFault (unit : Fin 148) (detail : W32) (s : State) : Host.Outcome State Fault Refusal := s.onChip (engineFaultEffect unit detail)
/-- TONGS_DESCRIPTOR (R284). -/
def execTongsDescriptor (channel : Fin 32) (job : Option (Ctx × W16)) (descriptor : BitVec 18) (words : List (BitVec 18 × BitVec 18))
    (damage : Damage) (s : State) : Host.Outcome State Fault Refusal := s.onChip (tongsDescriptorEffect channel job descriptor words damage)

end Sys2Proof.Machine
end

