-- ==== Sys2Proof/Machine/PassQ.lean ====
section
/-! DEFINITION. Pass Q: commit and revert of a generation, and what its readers adopt at once (01: R27–R29; 09: R241–R243;
11: R279, R293–R295). -/

namespace Sys2Proof.Machine

/-- Block quota of a context as it acts: at most 64 (R246). -/
def Context.blockLimit (x : Context) : Nat := min x.blockQuota.toNat 64

/-- A context adopts its quotas; QUOTA_CHANGED when a quota that acts has changed (R146). -/
def Chip.adoptQuota (ch : Chip) (i : Ctx) : Chip :=
  let g := ch.passQ.active
  let x := ch.ctxs.get i
  let y := { x with cellQuota := g.cellQuota.get i, blockQuota := g.blockQuota.get i }
  let c1 := ch.modCtx i (fun _ => y)
  if x.isOpen ∧ (x.cellLimit ≠ y.cellLimit ∨ x.blockLimit ≠ y.blockLimit) then
    c1.post Ev.quotaChanged (.ctx i) 5 (ctxObject i) (BitVec.ofNat 32 (y.cellLimit + 65536 * y.blockLimit))
  else c1

/-- Units of context i that the new list retires and the old one did not (R294). -/
def Ladle.newlyHeld (l : Ladle) (old new : List RetEntry) (i : Nat) : Nat :=
  ((l.chains.filter (fun k => k.holders.contains i)).map (fun k =>
    (k.cells.filter (fun c => cellRetired new c && !cellRetired old c)).length)).foldl (· + ·) 0 +
  ((List.range 64).filter (fun j => match l.blocks[j]? with
    | some b => decide (b.state = .held) && b.holders.contains i && blockRetired new j && !blockRetired old j
    | none => false)).length

/-- Units on the free lists that the new list names pass to owner 126; units of owner 126 that it no longer names return to the free list.
A unit that R244 took out of service stays out until a later sweep (R29, R294). -/
def Ladle.adoptRetirement (l : Ladle) (new : List RetEntry) : Ladle :=
  let gone := l.freeCells.filter (cellRetired new)
  let back := (ascending l.retired).filter (fun i => !cellRetired new i)
  let backIn := back.filter (fun i => l.leaving != some (cellBank i))
  let backB := (List.range 64).filter (fun j => match l.blocks[j]? with
    | some b => decide (b.state = .retired) && !blockRetired new j
    | none => false)
  let goneB := l.freeBlocks.filter (blockRetired new)
  Ladle.noteLow { l with
    freeCells := backIn ++ minus l.freeCells gone,
    retired := gone ++ minus l.retired back,
    freeBlocks := backB.filter (fun j => l.leaving != some (blockBank j)) ++ minus l.freeBlocks goneB,
    blocks := goneB.foldl (fun v j => v.setIfInBounds j { state := .retired, owner := 126, holders := [] })
      (backB.foldl (fun v j => v.setIfInBounds j { state := .free, owner := 127, holders := [] }) l.blocks) }

/-- Ladle adopts the retirement list of the active generation, with BUFFER_RETIRED to the holders (R294). -/
def Chip.adoptRetirement (ch : Chip) (old : List RetEntry) : Chip :=
  if ¬ ch.ladle.built then ch
  else
    let new := ch.retireList
    let c1 := allCtxs.foldl (fun c (i : Ctx) =>
      let n := ch.ladle.newlyHeld old new i.val
      if n = 0 then c else c.post Ev.bufferRetired (.ctx i) 5 (ctxObject i) (BitVec.ofNat 32 n)) ch
    c1.relist (fun l => l.adoptRetirement new)

/-- Every port waits for its next boundary (R86, R103). -/
def Chip.portsPending (ch : Chip) : Chip :=
  { ch with ehran := ch.ehran.map (fun e => { e with cfgPending := true }), spi := { ch.spi with cfgPending := true } }

/-- A commit whose cell_banks is 0 or above 16 is refused (R243). -/
def Generation.commitOk (g : Generation) : Bool := decide (1 ≤ g.cellBanks.toNat) && decide (g.cellBanks.toNat ≤ 16)

/-- LADLE_QCOMMIT.commit (R243). -/
def Chip.qcommit (ch : Chip) : Chip :=
  let g := ch.passQ.staged
  if g.commitOk then
    let old := ch.retireList
    let c1 := { ch with passQ := { ch.passQ with active := g, gen := ch.passQ.gen + 1, refused := false } }
    let c2 := c1.logFault 0x17 153 0 (c1.passQ.gen.setWidth 32) 1 0
    let c3 := allCtxs.foldl (fun c i => c.adoptQuota i) c2
    let c4 := (c3.adoptRetirement old).leaveNext
    c4.portsPending.settleErasure.settleSram
  else { ch with passQ := { ch.passQ with refused := true } }.logFault 0x17 153 0 (ch.passQ.gen.setWidth 32) 0 0

/-- LADLE_QCOMMIT.revert (R243). -/
def Chip.qrevert (ch : Chip) : Chip := { ch with passQ := { ch.passQ with staged := ch.passQ.active } }

/-- LADLE_QCOMMIT.commit (R243). -/
def execQcommitCommit (s : State) : Host.Outcome State Fault Refusal := s.onRegister Chip.qcommit
/-- LADLE_QCOMMIT.revert (R243). -/
def execQcommitRevert (s : State) : Host.Outcome State Fault Refusal := s.onRegister Chip.qrevert

end Sys2Proof.Machine
end

