-- ==== Sys2Proof/Machine/Mgmt.lean ====
section
/-! DEFINITION. The management plane's own blocks: temperature, the log window and the release of units, the staged patch image, and the
mirror's time (21: R508–R523). -/

namespace Sys2Proof.Machine

/-! ### Temperature (R508, R509) -/

/-- The warning threshold in 1/8 °C, and the limit that acts: at most 109 °C, and at least warn (Table 21-3). -/
def Temp.warn8 (t : Temp) : Int := 8 * t.warn.toNat
def Temp.limit8 (t : Temp) : Int := 8 * max (min t.limit.toNat 109) t.warn.toNat

/-- A threshold's state: set when the value rises to it, cleared when it falls below it minus 5 °C (R509). -/
def hysteresis (old : Bool) (value threshold : Int) : Bool := decide (threshold ≤ value) || (old && decide (threshold - 40 ≤ value))

/-- The hottest value in whole degrees, rounded toward minus infinity (R508). -/
def Temp.whole (t : Temp) : Int := t.hottest / 8

/-- The hottest value meets the thresholds: the events of upward crossings, then the thermal hold (R509). -/
def Chip.judgeTemp (ch : Chip) : Chip :=
  let t := ch.temp
  let warning := hysteresis t.warning t.hottest t.warn8
  let limited := hysteresis t.limited t.hottest t.limit8
  let critical := decide (880 ≤ t.hottest) || (t.critical && decide (t.warn8 - 40 ≤ t.hottest))
  let arg : W32 := wordOfInt 32 t.whole
  let c1 := { ch with temp := { t with warning := warning, limited := limited, critical := critical } }
  let c2 := if warning && !t.warning then c1.post Ev.thermalWarning .all 151 0 arg else c1
  let c3 := if limited && !t.limited then c2.post Ev.thermalLimit .all 151 0 arg else c2
  c3.changeHolds (fun e => { e with thermal := if critical then 0xF else 0 })

/-- The hottest of the readings that pass their checks and its sensor, the lower one at equal readings (R508). -/
def hottestOf (readings : Vector (BitVec 12) 8) (bad : Byte) : Option (Int × Nat) :=
  (List.range 8).foldl (fun best i =>
    let r : Int := (((readings[i]?).getD 0).toInt)
    if bad.getLsbD i then best
    else match best with
      | none => some (r, i)
      | some (b, j) => if b < r then some (r, i) else some (b, j)) none

/-- The eight readings are taken; with every sensor failing, the hottest value is a free value (log entry 9). -/
def Chip.takeReadings (ch : Chip) (readings : List (BitVec 12)) (bad : Byte) : Chip :=
  let v : Vector (BitVec 12) 8 := (Vector.range 8).map (fun i => (readings[i]?).getD 0)
  let f := Config.noSensor ch.freeUsed
  let x := (hottestOf v bad).getD ((f.setWidth 12).toInt, f.toNat / 4096)
  let peak := max ch.temp.peak.toInt (x.1 / 8)
  { ch with
    freeUsed := if (hottestOf v bad).isSome then ch.freeUsed else ch.freeUsed + 1,
    temp := { ch.temp with sensors := v, bad := bad, hottest := x.1, sensor := BitVec.ofNat 3 x.2, peak := wordOfInt 8 peak } }

/-- TEMP_SAMPLE: `bad` names the sensors whose readings fail their checks; one that newly fails is logged (R508, R509). -/
def tempSampleEffect (readings : List (BitVec 12)) (bad : Byte) (ch : Chip) : Chip :=
  if ¬ ch.power.valid then ch
  else
    let c1 := (List.range 8).foldl (fun c i =>
      if bad.getLsbD i && !ch.temp.bad.getLsbD i then c.logFault 0x53 151 0 (BitVec.ofNat 32 i) 0 0 else c) ch
    (c1.takeReadings readings bad).judgeTemp

/-- TEMP_CTRL.clear_peak. -/
def tempClearPeakEffect (ch : Chip) : Chip := { ch with temp := { ch.temp with peak := wordOfInt 8 ch.temp.whole } }

/-! ### The log window (R515, R516)

An access to the log comes after every entry handed to Pass L so far: those of the present instant take their places first (log
entry 19). -/

/-- The entry that LOG_SEL chooses (R515). -/
def FaultLog.chosen (l : FaultLog) : Option LogEntry :=
  if l.sel.getLsbD 9 then
    (l.slots.find? (fun x => x.1 == 2 * (l.sel.toNat % 256) + bit (l.sel.getLsbD 8))).map (·.2)
  else l.store.head?

/-- LOG_WIN_0 is read: the window latches the chosen entry; a word that the store code cannot correct sets flags[3] (R510, R515). -/
def logWinReadEffect (damaged : Bool) (ch : Chip) : Chip :=
  let l := ch.log.settle
  { ch with log := { l with win := match l.chosen with
      | some e => { e with flags := if damaged then e.flags ||| 0x08 else e.flags }.bytes
      | none => List.replicate 32 0 } }

/-- LOG_POP (R516). -/
def logPopEffect (seq : W32) (ch : Chip) : Chip :=
  let l := ch.log.settle
  { ch with log := match l.store with
    | e :: es => if e.seq = seq then { l with store := es } else { l with popMiss := l.popMiss + 1 }
    | [] => { l with popMiss := l.popMiss + 1 } }

/-- LOG_SLOT_CLEAR: `which` names the first and the second slot of the unit (Table 21-6). -/
def logSlotClearEffect (unit : Byte) (which : BitVec 2) (ch : Chip) : Chip :=
  let l := ch.log.settle
  { ch with log := { l with slots := l.slots.filter (fun x =>
      !((which.getLsbD 0 && x.1 == 2 * unit.toNat) || (which.getLsbD 1 && x.1 == 2 * unit.toNat + 1))) } }

/-- A unit's domain may be on now (R465, R469). -/
def Chip.unitMayRun (ch : Chip) (n : Nat) : Bool :=
  if 48 ≤ n ∧ n ≤ 71 then ch.power.decksOn && !ch.domains.deckOff.getLsbD (domainDeck n).val else ch.power.core

/-- LOG_RELEASE: the hold of a unit ends, and its domain comes on from its reset state (R516). -/
def logReleaseEffect (unit : Byte) (ch : Chip) : Chip :=
  let n := unit.toNat
  if ¬ ch.log.held.contains n then ch
  else
    let c1 := { ch with log := { ch.log with held := ch.log.held.filter (· != n) } }
    let c2 := if c1.unitMayRun n then (c1.freshDomain n).switchDomains [n] true else c1
    c2.logFault 0x52 155 0 (BitVec.ofNat 32 n) 0 0

/-! ### The staged patch image (Table 21-7) -/

/-- Word i of an image; words beyond the list are 0. -/
def Generation.patchWord (g : Generation) (i : Nat) : W32 := (g.patchWords[i]?).getD 0

/-- The image with word i set. -/
def Generation.setPatchWord (g : Generation) (i : Nat) (w : W32) : Generation :=
  { g with patchWords := (g.patchWords ++ List.replicate (i + 1 - g.patchWords.length) 0).set i w }

/-- COOK_PATCH_DATA: a read, or a write of a word; the index advances and wraps. -/
def cookPatchDataAccessEffect (write : Option W32) (ch : Chip) : Chip :=
  let i := ch.cook.patchIndex
  let c1 := match write with
    | some w => { ch with passQ := { ch.passQ with staged := ch.passQ.staged.setPatchWord i.toNat w } }
    | none => ch
  { c1 with cook := { c1.cook with patchIndex := i + 1 } }

/-! ### The mirror's time -/

/-- MIR_TIME_LO is read: bits [63:32] are latched for MIR_TIME_HI (Table 21-8). -/
def mirTimeLoReadEffect (d : Deck) (ch : Chip) : Chip :=
  let m := ch.emergency.mirror.get d
  { ch with emergency := { ch.emergency with mirror := ch.emergency.mirror.set d { m with latch := m.time.extractLsb' 32 32 } } }

/-! ### The commands -/

/-- TEMP_SAMPLE (R508). -/
def execTempSample (readings : List (BitVec 12)) (bad : Byte) (s : State) : Host.Outcome State Fault Refusal :=
  s.onChip (tempSampleEffect readings bad)
/-- TEMP_CLEAR_PEAK (R508). -/
def execTempClearPeak (s : State) : Host.Outcome State Fault Refusal := s.onRegister tempClearPeakEffect
/-- LOG_WIN_READ (R515). -/
def execLogWinRead (damaged : Bool) (s : State) : Host.Outcome State Fault Refusal := s.onRegister (logWinReadEffect damaged)
/-- LOG_POP (R516). -/
def execLogPop (seq : W32) (s : State) : Host.Outcome State Fault Refusal := s.onRegister (logPopEffect seq)
/-- LOG_SLOT_CLEAR (R516). -/
def execLogSlotClear (unit : Byte) (which : BitVec 2) (s : State) : Host.Outcome State Fault Refusal := s.onRegister (logSlotClearEffect unit which)
/-- LOG_RELEASE (R516). -/
def execLogRelease (unit : Byte) (s : State) : Host.Outcome State Fault Refusal := s.onRegister (logReleaseEffect unit)
/-- COOK_PATCH_DATA_ACCESS (R506). -/
def execCookPatchDataAccess (write : Option W32) (s : State) : Host.Outcome State Fault Refusal := s.onRegister (cookPatchDataAccessEffect write)
/-- MIR_TIME_LO_READ (R376, R523). -/
def execMirTimeLoRead (d : Deck) (s : State) : Host.Outcome State Fault Refusal := s.onRegister (mirTimeLoReadEffect d)

end Sys2Proof.Machine
end

