-- ==== Sys2Proof/Machine/RegRead.lean ====
section
/-! DEFINITION. What every management register reads as (21: Table 21-1; 02: R63, R64; 03: R90; 04: R105, R113; 05: R129; 09: R246;
10: R264; 11: R296; 14: R376; 17: R437; 19: R484, R485; 00: R12, R14). Reserved bits, write-only fields and undefined addresses
read 0. -/

namespace Sys2Proof.Machine

/-! ### Identity, Kettle, timebase (Tables 21-2, 2-5, 2-6) -/

def readId (a : Nat) : W32 :=
  match a with
  | 0x00 => 0x2A440C5B
  | 0x04 => 0x0002A440
  | 0x08 => 0x00000001
  | 0x0C => lo32 Config.serial
  | 0x10 => hi32 Config.serial
  | 0x14 => fields [(4, 0), (64, 4), (19, 11), (4096, 16)]
  | 0x18 => 0x34345A53
  | _ => 0

/-- KETTLE_LOAD_Dn. -/
def loadWord (l : DeckLoad) : W32 :=
  fields [(l.loopPeriod.toNat, 0), (l.tracks.toNat, 12), flag l.compress 17, flag l.decompress 18, (l.cellRate.toNat, 20)]

def readKettle (k : Kettle) (a : Nat) : W32 :=
  match a with
  | 0x100 => fields [(k.modeReq.toNat, 0), flag k.hold 2]
  | 0x104 => fields [(k.vminCode.toNat, 0), (k.vmaxCode.toNat, 8)]
  | 0x108 => fields [(k.vcore.toNat, 0), (k.mode, 8), (k.floor, 10), flag (k.settling || k.recal) 12, flag (!k.raising.isEmpty) 13,
                     flag k.atCeiling 14]
  | 0x10C => fields [(k.slack.toNat, 0), (k.slackSite.toNat, 16)]
  | 0x110 => loadWord (k.decks.get 0)
  | 0x114 => loadWord (k.decks.get 1)
  | 0x118 => loadWord (k.decks.get 2)
  | 0x11C => loadWord (k.decks.get 3)
  | 0x120 => fields ((k.ports.toList.map (·.toNat)).zipIdx.map (fun x => (x.1, 6 * x.2)))
  | 0x124 => fields [(k.overruns.toNat, 0), (k.overSite.toNat, 16)]
  | 0x128 => fields [(k.raises.toNat, 0)]
  | _ => 0

/-- TB_STATUS.cal_valid: the central lines, and those of every deck whose delay-line domain is on (R54). -/
def Chip.calValid (ch : Chip) : Bool :=
  ch.timebase.central.valid && allDecks.all (fun d => !ch.domOn (44 + d.val) || (ch.timebase.decks.get d).valid)

/-- TB_CAL_Dn. -/
def linesWord (l : Lines) : W32 := fields [(l.elements.toNat, 0), flag l.valid 13, flag l.shadowBusy 14, (l.calCount.toNat, 16)]

def readTb (ch : Chip) (a : Nat) : W32 :=
  let t := ch.timebase
  match a with
  | 0x400 => fields [(t.refState.code, 0), flag t.ref20 2, flag ch.calValid 3, (t.lossCount.toNat, 8)]
  | 0x404 => lo32 ch.now
  | 0x408 => t.timeLatch
  | 0x40C => fields [(t.trim.toNat, 0)]
  | 0x410 => linesWord (t.decks.get 0)
  | 0x414 => linesWord (t.decks.get 1)
  | 0x418 => linesWord (t.decks.get 2)
  | 0x41C => linesWord (t.decks.get 3)
  | 0x420 => lo32 t.lossTime
  | 0x424 => hi32 t.lossTime
  | _ => 0

/-! ### Supply, domains, temperature (Tables 19-9, 19-10, 21-3) -/

def readPower (p : Power) (a : Nat) : W32 :=
  match a with
  | 0x180 => fields [(p.vin.toNat, 0), (p.vinLow.toNat, 16)]
  | 0x184 => fields [(p.pfw.toNat, 0)]
  | 0x188 => fields [flag p.armed 0, flag p.warning 1, flag p.sealed 2, flag (p.warning && p.recovered p.vin) 3, (p.lastStart.toNat, 8),
                     flag p.vioe 16, (deckBits (fun d => p.viod.get d), 17), flag p.viom 21]
  | 0x18C => fields [(p.bootmode.toNat, 0), flag p.simple 2, (p.ma.toNat, 3)]
  | 0x190 => p.cntWarn
  | 0x194 => p.cntReset
  | 0x19C => lo32 p.tWarn
  | 0x1A0 => p.tLatch
  | _ => 0

/-- Bits of the 32 domains from 32r on, up to domain 147. -/
def domainBits (p : Nat → Bool) (r : Nat) : W32 :=
  BitVec.ofNat 32 (bitField ((List.range 32).map (fun i => decide (32 * r + i < 148) && p (32 * r + i))))

def readDomains (ch : Chip) (a : Nat) : W32 :=
  let x := ch.domains
  if a < 0x228 then
    fields ((List.range 16).map (fun i => (if 16 * ((a - 0x200) / 4) + i < 148 then ((x.policy[16 * ((a - 0x200) / 4) + i]?).getD 0).toNat else 0, 2 * i)))
  else if 0x240 ≤ a ∧ a < 0x254 then domainBits (fun n => ch.domOn n) ((a - 0x240) / 4)
  else if 0x260 ≤ a ∧ a < 0x274 then domainBits (fun n => ch.domIdle n) ((a - 0x260) / 4)
  else match a with
    | 0x280 => fields [(x.deckHold.toNat, 0), (x.sramOff.toNat, 4), (x.idleMs.toNat, 8)]
    | 0x284 => fields [(x.deckOff.toNat, 0), (x.holdPend.toNat, 4), (x.sramActive.toNat, 8), (x.sramPend.toNat, 12)]
    | 0x288 => x.wakes
    | 0x28C => x.refused
    | _ => 0

def readTemp (t : Temp) (a : Nat) : W32 :=
  if a < 0x320 then ((t.sensors[(a - 0x300) / 4]?).getD 0).setWidth 32
  else match a with
    | 0x320 => fields [(t.warn.toNat, 0), (t.limit.toNat, 8)]
    | 0x324 => fields [((wordOfInt 8 t.whole).toNat, 0), (t.sensor.toNat, 8), flag t.warning 11, flag t.limited 12, flag t.critical 13,
                       (t.bad.toNat, 14)]
    | 0x328 => fields [(t.peak.toNat, 0)]
    | _ => 0

/-! ### Fault log (Table 21-6) -/

/-- Four bytes of a list, least significant first. -/
def wordAt (bs : List Byte) (off : Nat) : W32 := BitVec.ofNat 32 (leAt bs off 4)

def readLog (l : FaultLog) (a : Nat) : W32 :=
  if 0x828 ≤ a ∧ a < 0x83C then
    BitVec.ofNat 32 (bitField ((List.range 32).map (fun i => l.held.contains (32 * ((a - 0x828) / 4) + i))))
  else if 0x840 ≤ a ∧ a < 0x860 then wordAt l.win (a - 0x840)
  else match a with
    | 0x800 => fields [(l.store.length, 0), flag l.sealed 11]
    | 0x804 => l.dropped
    | 0x808 => l.appended
    | 0x80C => l.seq
    | 0x814 => fields [(l.sel.toNat, 0)]
    | 0x820 => l.slotsFull
    | 0x824 => l.popMiss
    | _ => 0

/-! ### Ladle and Pass Q (Table 9-8) -/

def readLadle (ch : Chip) (a : Nat) : W32 :=
  let l := ch.ladle
  let q := ch.passQ
  if 0xD00 ≤ a ∧ a < 0xE00 then
    fields [((q.staged.cellQuota.get (Fin.ofNat 64 ((a - 0xD00) / 4))).toNat, 0), ((q.staged.blockQuota.get (Fin.ofNat 64 ((a - 0xD00) / 4))).toNat, 16)]
  else if 0xE00 ≤ a ∧ a < 0xF80 then
    fields [(l.cellsHeld ((a - 0xE00) / 4), 0), (l.blocksHeld ((a - 0xE00) / 4), 16)]
  else match a with
    | 0xC00 => fields [(q.gen.toNat, 8), flag q.refused 16]
    | 0xC04 => fields [(q.staged.cellBanks.toNat, 0)]
    | 0xC08 => fields [(l.cellBanks, 0), flag l.leaving.isSome 5, (l.leaving.getD 0, 6)]
    | 0xC0C => fields [(l.cellsFree, 0), (l.blocksFree, 16)]
    | 0xC10 => fields [(l.lowCells.toNat, 0), (l.lowBlocks.toNat, 16)]
    | 0xC14 => fields [(l.sharesUsed, 0), (l.shareFull.toNat, 16)]
    | 0xC18 => l.badptr
    | 0xC1C => l.notHolder
    | 0xC20 => l.pantry
    | 0xC24 => l.sweep
    | _ => 0

/-! ### Funnel (Table 10-4) -/

/-- FUNNEL_CFG_s and FUNNEL_WIN_s. -/
def siteCfgWord (c : SiteCfg) : W32 := fields [flag c.deadline 0, flag c.park 1, (c.burst.toNat, 8), (c.aging.toNat, 16)]
def siteWinWord (c : SiteCfg) : W32 := fields [(c.threshold.toNat, 0), (c.window.toNat, 8), (c.quota.toNat, 16)]
/-- FUNNEL_STAT_s. -/
def siteStatWord (s : Site) : W32 :=
  fields [flag s.frozen 0, flag s.drained 1, flag s.granted 2, flag s.parked 3, (s.owner, 8), (s.used, 16)]

def readFunnel (ch : Chip) (a : Nat) : W32 :=
  let f := ch.funnel
  let g := ch.passQ.staged
  if 0x1080 ≤ a ∧ a < 0x10B0 then ((g.ofsBank[(a - 0x1080) / 4]?).getD 0).setWidth 32
  else if 0x1100 ≤ a ∧ a < 0x1200 then ((g.ofsPort[(a - 0x1100) / 4]?).getD 0).setWidth 32
  else if 0x1200 ≤ a ∧ a < 0x1280 then ((g.ofsMove[(a - 0x1200) / 4]?).getD 0).setWidth 32
  else match a with
    | 0x1000 => siteCfgWord (g.sites.get 0)
    | 0x1004 => siteWinWord (g.sites.get 0)
    | 0x1008 => siteStatWord (f.sites.get (Fin.ofNat 18 f.cselBank.toNat))
    | 0x1010 => siteCfgWord (g.sites.get 1)
    | 0x1014 => siteWinWord (g.sites.get 1)
    | 0x1018 => siteStatWord (f.sites.get 16)
    | 0x1020 => siteCfgWord (g.sites.get 2)
    | 0x1024 => siteWinWord (g.sites.get 2)
    | 0x1028 => siteStatWord (f.sites.get 17)
    | 0x1030 => BitVec.ofNat 32 (bitField (f.sites.toList.map (·.frozen)))
    | 0x1034 => BitVec.ofNat 32 (bitField (f.sites.toList.map (·.drained)))
    | 0x103C => fields [(f.cselIn.toNat, 0), (f.cselSite.toNat, 8), (f.cselBank.toNat, 12)]
    | 0x1040 => f.snap.grants
    | 0x1044 => f.snap.lost
    | 0x1048 => f.snap.waitR
    | 0x104C => f.snap.waitUs
    | _ => 0

/-! ### SRAM (Table 11-6) -/

def readSram (ch : Chip) (a : Nat) : W32 :=
  let m := ch.sram
  let g := ch.passQ.staged
  if 0x1440 ≤ a ∧ a < 0x148C then (m.macros[(a - 0x1440) / 4]?).getD 0
  else if 0x1490 ≤ a ∧ a < 0x14D0 then (m.banks[(a - 0x1490) / 4]?).getD 0
  else if 0x1600 ≤ a ∧ a < 0x1700 then
    let r := g.retire.get (Fin.ofNat 64 ((a - 0x1600) / 4))
    fields [(r.kind.toNat, 0), (r.index.toNat, 4)]
  else match a with
    | 0x1404 => fields [((m.erased.map (·.val)).getD 0, 0), flag m.erased.isSome 5, flag m.erasePending 6, flag m.isolated.isSome 7,
                        ((m.isolated.map (·.val)).getD 0, 8), flag m.scrubbing 13, flag m.initDone 14]
    | 0x1408 => fields [(m.periodMs.toNat, 0), flag m.scrubEn 16]
    | 0x140C => BitVec.ofNat 32 ch.scrubNext
    | 0x1410 => m.passes
    | 0x1414 => m.late
    | 0x1418 => m.corr
    | 0x141C => m.uncorr
    | 0x1420 => m.addr
    | 0x1424 => m.poison
    | 0x1428 => m.fixed
    | 0x142C => m.lastErr
    | 0x1430 => m.threshold.setWidth 32
    | 0x1500 => fields [(g.eraseMacro.toNat, 0), flag g.eraseOn 7]
    | _ => 0

/-! ### The Cook (Table 21-7) -/

def CookState.code : CookState → Nat
  | .off => 0
  | .held => 1
  | .booting => 2
  | .running => 3
  | .handler => 4
  | .halted => 5

def readCook (ch : Chip) (a : Nat) : W32 :=
  let c := ch.cook
  let g := ch.passQ.staged
  if 0x1880 ≤ a ∧ a < 0x1900 then g.hooks.get (Fin.ofNat 32 ((a - 0x1880) / 4))
  else match a with
    | 0x1804 => fields [(c.state.code, 0), flag c.safe 3, flag c.patchActive 4, flag c.patchRejected 5, (c.boots.toNat, 8)]
    | 0x1808 => c.traps
    | 0x180C => c.lastTrap
    | 0x1810 => g.patchCfg
    | 0x1814 => g.patchCrc
    | 0x1818 => c.patchIndex.setWidth 32
    | 0x181C => g.patchWord c.patchIndex.toNat
    | _ => 0

/-! ### Ports and Sieve (Tables 3-8, 4-5, 4-6, 5-5) -/

/-- rx_room reads as the door byte would show it: while S_CS# is low as taken at its fall (R102). -/
def readSpi (ch : Chip) (off : Nat) : W32 :=
  let v := ch.spi
  if 0x14 ≤ off ∧ off < 0x30 then (v.cnt[(off - 0x14) / 4]?).getD 0
  else match off with
    | 0x00 => portCfgWord (ch.passQ.staged.ports.get 4)
    | 0x04 => fields [flag v.enabled 0, flag v.quad 1, flag v.cfgPending 2, flag v.cs.isSome 3, flag (!v.out.wire.isEmpty || !v.out.staged.isEmpty) 4,
                      flag (v.cs.getD v.room) 5, ((ch.kettle.ports.get 4).toNat, 8), flag v.declRefused 14, (v.out.wire.length, 16)]
    | 0x08 => v.xactIn
    | 0x0C => v.xactOut
    | 0x10 => v.idleOut
    | 0x30 => v.wireLost
    | 0x34 => v.lastViol.setWidth 32
    | _ => 0

def readI2c (i : I2cPort) (a : Nat) : W32 :=
  match a with
  | 0x1D80 => fields [flag i.pecEn 0]
  | 0x1D84 => fields [flag i.pecOn 0, flag i.pecErr 1, (i.addr.toNat, 8)]
  | 0x1D88 => i.xact
  | 0x1D8C => i.pec
  | 0x1D90 => i.form
  | 0x1D94 => i.timeout
  | 0x1D98 => i.overread
  | _ => 0

def readSieve (v : Sieve) (off : Nat) : W32 :=
  match off with
  | 0x00 => v.admitted
  | 0x04 => v.refuse
  | 0x08 => v.hdrcrc
  | 0x0C => v.paycrc
  | 0x10 => v.init
  | 0x14 => v.busy
  | 0x18 => v.last
  | 0x1C => v.noslot
  | _ => 0

/-! ### Emergency stop and mirror (Table 21-8) -/

def readEmergency (ch : Chip) (a : Nat) : W32 :=
  let e := ch.emergency
  if a = 0x2000 then fields [(e.hold.toNat, 0), (e.coast.toNat, 4)]
  else if a = 0x2004 then
    fields [(e.hold.toNat, 0), (e.thermal.toNat, 4), (e.jtag.toNat, 8), (deckBits (fun d => ch.deckHeld d), 12)]
  else if 0x2100 ≤ a ∧ a < 0x2180 then
    let m := e.mirror.get (Fin.ofNat 4 ((a - 0x2100) / 32))
    match (a - 0x2100) % 32 with
    | 0x00 => fields [(m.state.toNat, 0), (m.cause.toNat, 8), (m.lock.toNat, 16), (m.owner.toNat, 24)]
    | 0x04 => lo32 m.time
    | 0x08 => m.latch
    | 0x0C => m.cntState
    | 0x10 => m.cntFault
    | _ => 0
  else 0

/-! ### The map (Table 21-1) -/

/-- What the register at address a reads as in a domain that is on; a is a multiple of 4. -/
def Chip.readLive (ch : Chip) (a : Nat) : W32 :=
  if a < 0x0100 then readId a
  else if a < 0x0180 then readKettle ch.kettle a
  else if a < 0x0200 then readPower ch.power a
  else if a < 0x0300 then readDomains ch a
  else if a < 0x0400 then readTemp ch.temp a
  else if a < 0x0500 then readTb ch a
  else if 0x0800 ≤ a ∧ a < 0x0C00 then readLog ch.log.settle a
  else if 0x0C00 ≤ a ∧ a < 0x1000 then readLadle ch a
  else if 0x1000 ≤ a ∧ a < 0x1400 then readFunnel ch a
  else if 0x1400 ≤ a ∧ a < 0x1800 then readSram ch a
  else if 0x1800 ≤ a ∧ a < 0x1C00 then readCook ch a
  else if 0x1C00 ≤ a ∧ a < 0x1D00 then readEhran ch (Fin.ofNat 4 ((a - 0x1C00) / 64)) (a % 64)
  else if 0x1D00 ≤ a ∧ a < 0x1D80 then readSpi ch (a - 0x1D00)
  else if 0x1D80 ≤ a ∧ a < 0x1E00 then readI2c ch.i2c a
  else if 0x1E00 ≤ a ∧ a < 0x1EA0 then readSieve (ch.sieve.get (Fin.ofNat 5 ((a - 0x1E00) / 32))) (a % 32)
  else if 0x2000 ≤ a ∧ a < 0x2200 then readEmergency ch a
  else if 0x2200 ≤ a ∧ a < 0x2400 then readRoller ch (Fin.ofNat 4 ((a - 0x2200) / 128)) (a % 128)
  else if 0x2400 ≤ a ∧ a < 0x2600 then readMio (ch.decks.get (Fin.ofNat 4 ((a - 0x2400) / 128))).io (a % 128)
  else 0

/-- What the register at address a reads as: from EHR_ on, where registers live in domains that go off, the last mirrored value while
its domain is off (R108). -/
def Chip.readReg (ch : Chip) (a : Nat) : W32 := if a < 0x1C00 then ch.readLive a else (ch.domains.mirrored a).getD (ch.readLive a)

/-- The deck of an address in a map of one block per deck, `size` bytes each from `base`. -/
def deckAt (base size a : Nat) : Deck := Fin.ofNat 4 ((a - base) / size)

/-- The port fetches a register: the value, and what the read does beside (R108; R51, R376, R484, R506, R515, R523). -/
def Chip.fetchReg (ch : Chip) (a : Nat) : Chip × W32 :=
  if a = 0x0404 then (tbTimeLoReadEffect ch, ch.readReg a)
  else if a = 0x019C then (pwrTWarnLoReadEffect ch, ch.readReg a)
  else if a = 0x0840 then
    let c1 := logWinReadEffect false ch
    (c1, c1.readReg a)
  else if a = 0x181C then (cookPatchDataAccessEffect none ch, ch.readReg a)
  else if 0x2100 ≤ a ∧ a < 0x2180 ∧ a % 32 = 4 then (mirTimeLoReadEffect (deckAt 0x2100 32 a) ch, ch.readReg a)
  else if 0x2200 ≤ a ∧ a < 0x2400 ∧ a % 128 = 8 then (rolPosLoReadEffect (deckAt 0x2200 128 a) ch, ch.readReg a)
  else (ch, ch.readReg a)

end Sys2Proof.Machine
end

