-- ==== Sys2Proof/Machine/Regs.lean ====
section
/-! DEFINITION. What a write of a management register does (00: R12, R14; 21: R505, R506, Table 21-1). -/

namespace Sys2Proof.Machine

/-! ### Pass Q settings: the staged generation (R506) -/

def Chip.stage (ch : Chip) (f : Generation → Generation) : Chip := { ch with passQ := { ch.passQ with staged := f ch.passQ.staged } }

/-- FUNNEL_CFG_s and FUNNEL_WIN_s. -/
def SiteCfg.withCfg (c : SiteCfg) (v : W32) : SiteCfg :=
  { c with deadline := v.getLsbD 0, park := v.getLsbD 1, burst := v.extractLsb' 8 8, aging := v.extractLsb' 16 16 }
def SiteCfg.withWin (c : SiteCfg) (v : W32) : SiteCfg :=
  { c with threshold := v.extractLsb' 0 7, window := v.extractLsb' 8 8, quota := v.extractLsb' 16 8 }

/-- EHR_CFG and SPI_CFG. -/
def portCfgOf (v : W32) : PortCfg := { enable := v.getLsbD 0, wide := v.getLsbD 1, declRate := v.extractLsb' 8 6 }

/-- SRAM_RET_Ee. -/
def retEntryOf (v : W32) : RetEntry := { kind := v.extractLsb' 0 2, index := v.extractLsb' 4 14 }

/-- The staged generation after a write at one of R506's addresses; as it was at any other address. -/
def Generation.write (g : Generation) (a : Nat) (v : W32) : Generation :=
  if a = 0x0C04 then { g with cellBanks := v.setWidth 5 }
  else if 0x0D00 ≤ a ∧ a < 0x0E00 then
    let c : Fin 64 := Fin.ofNat 64 ((a - 0x0D00) / 4)
    { g with cellQuota := g.cellQuota.set c (v.extractLsb' 0 15), blockQuota := g.blockQuota.set c (v.extractLsb' 16 7) }
  else if a = 0x1000 ∨ a = 0x1010 ∨ a = 0x1020 then
    let s : Fin 3 := Fin.ofNat 3 ((a - 0x1000) / 16)
    { g with sites := g.sites.set s ((g.sites.get s).withCfg v) }
  else if a = 0x1004 ∨ a = 0x1014 ∨ a = 0x1024 then
    let s : Fin 3 := Fin.ofNat 3 ((a - 0x1000) / 16)
    { g with sites := g.sites.set s ((g.sites.get s).withWin v) }
  else if 0x1080 ≤ a ∧ a < 0x10B0 then { g with ofsBank := g.ofsBank.setIfInBounds ((a - 0x1080) / 4) (v.setWidth 16) }
  else if 0x1100 ≤ a ∧ a < 0x1200 then { g with ofsPort := g.ofsPort.setIfInBounds ((a - 0x1100) / 4) (v.setWidth 16) }
  else if 0x1200 ≤ a ∧ a < 0x1280 then { g with ofsMove := g.ofsMove.setIfInBounds ((a - 0x1200) / 4) (v.setWidth 16) }
  else if a = 0x1500 then { g with eraseMacro := v.setWidth 5, eraseOn := v.getLsbD 7 }
  else if 0x1600 ≤ a ∧ a < 0x1700 then { g with retire := g.retire.setIfInBounds ((a - 0x1600) / 4) (retEntryOf v) }
  else if a = 0x1810 then { g with patchCfg := v &&& 0xFFFF0001#32 }
  else if a = 0x1814 then { g with patchCrc := v }
  else if 0x1880 ≤ a ∧ a < 0x1900 then { g with hooks := g.hooks.setIfInBounds ((a - 0x1880) / 4) (v &&& 0x8FFF3FFF#32) }
  else if a = 0x1C00 ∨ a = 0x1C40 ∨ a = 0x1C80 ∨ a = 0x1CC0 then { g with ports := g.ports.setIfInBounds ((a - 0x1C00) / 64) (portCfgOf v) }
  else if a = 0x1D00 then { g with ports := g.ports.set 4 (portCfgOf v) }
  else g

/-! ### Registers that act at once -/

/-- f where bit n of the value is 1. -/
def Chip.onBit (ch : Chip) (v : W32) (n : Nat) (f : Chip → Chip) : Chip := if v.getLsbD n then f ch else ch

/-- DOM_POLICY_r: sixteen fields, domain 16r + i in [2i + 1:2i], up to domain 147 (Table 19-10). -/
def Chip.writePolicies (ch : Chip) (r : Nat) (v : W32) : Chip :=
  (List.range 16).foldl (fun c i => if 16 * r + i < 148 then c.setPolicy (16 * r + i) (v.extractLsb' (2 * i) 2) else c) ch

/-- DOM_CTRL. -/
def Chip.writeDomCtrl (ch : Chip) (v : W32) : Chip :=
  ((ch.modDom (fun x => { x with idleMs := v.extractLsb' 8 8 })).setDeckHold (v.extractLsb' 0 4)).setSramOff (v.extractLsb' 4 4)

/-- Kettle's, the supply monitor's and domain control's registers (Tables 2-5, 19-9, 19-10). -/
def Chip.writeLow (ch : Chip) (a : Nat) (v : W32) : Chip :=
  if 0x0200 ≤ a ∧ a < 0x0228 then ch.writePolicies ((a - 0x0200) / 4) v
  else match a with
    | 0x0100 => (ch.modKettle (fun k => { k with modeReq := v.extractLsb' 0 2, hold := v.getLsbD 2 })).onBit v 3 kettleClearCountsEffect
    | 0x0104 => ch.modKettle (fun k => { k with vminCode := v.extractLsb' 0 7, vmaxCode := v.extractLsb' 8 7 })
    | 0x0184 => pwrPfwWriteEffect v ch
    | 0x0198 => ch.onBit v 0 pwrClearLowEffect
    | 0x0280 => ch.writeDomCtrl v
    | 0x0320 => { ch with temp := { ch.temp with warn := v.extractLsb' 0 8, limit := v.extractLsb' 8 8 } }.judgeTemp
    | 0x032C => ch.onBit v 0 tempClearPeakEffect
    | 0x040C => tbTrimWriteEffect v ch
    | 0x0428 => (ch.onBit v 0 tbCalNowEffect).onBit v 1 tbClearLossEffect
    | _ => ch

/-- The fault log window, Ladle and Pass Q commit, Funnel (Tables 21-6, 9-8, 10-4). -/
def Chip.writeMid (ch : Chip) (a : Nat) (v : W32) : Chip :=
  match a with
  | 0x0810 => logPopEffect v ch
  | 0x0814 => { ch with log := { ch.log with sel := v.setWidth 10 } }
  | 0x0818 => logSlotClearEffect (v.extractLsb' 0 8) (v.extractLsb' 8 2) ch
  | 0x081C => logReleaseEffect (v.extractLsb' 0 8) ch
  | 0x0C00 => (ch.onBit v 0 Chip.qcommit).onBit v 1 Chip.qrevert
  | 0x0C28 => ch.onBit v 0 ladleClearLowEffect
  | 0x1030 => funnelFreezeEffect v ch
  | 0x1038 => funnelClearEffect v ch
  | 0x103C => funnelCselEffect v ch
  | _ => ch

/-- SRAM protection and scrub, the Cook, the I2C port, emergency stop (Tables 11-6, 21-7, 4-6, 21-8). halt acts before restart, and
both before release. -/
def Chip.writeHigh (ch : Chip) (a : Nat) (v : W32) : Chip :=
  match a with
  | 0x1400 => (ch.onBit v 0 sramClearCountsEffect).onBit v 1 scrubNowEffect
  | 0x1408 => scrubEnableEffect (v.getLsbD 16) (ch.modSram (fun m => { m with periodMs := v.setWidth 16 }))
  | 0x1430 => ch.modSram (fun m => { m with threshold := v.setWidth 16 })
  | 0x1800 => ((ch.onBit v 2 cookHaltEffect).onBit v 1 cookRestartRequestEffect).onBit v 0 cookReleaseEffect
  | 0x1818 => { ch with cook := { ch.cook with patchIndex := v.setWidth 12 } }
  | 0x181C => cookPatchDataAccessEffect (some v) ch
  | 0x1D80 => { ch with i2c := { ch.i2c with pecEn := v.getLsbD 0 } }
  | 0x2000 => emergencyHoldEffect (v.extractLsb' 0 4) (v.extractLsb' 4 4) ch
  | _ => ch

/-- The decks' registers (Tables 14-4, 17-7). -/
def Chip.writeDeckReg (ch : Chip) (a : Nat) (v : W32) : Chip :=
  if 0x2200 ≤ a ∧ a < 0x2400 then
    let d := deckAt 0x2200 128 a
    match a % 128 with
    | 0x2C => ch.onBit v 0 (rolClearCountsEffect d)
    | 0x70 => ch.modStrainer d (fun s => { s with skewSel := v.setWidth 4 })
    | 0x74 => ch.onBit v 0 (strClearCountsEffect d)
    | _ => ch
  else if 0x2400 ≤ a ∧ a < 0x2600 ∧ a % 128 = 0x28 then ch.onBit v 0 (mioClearCountsEffect (deckAt 0x2400 128 a))
  else ch

/-- A register takes a value; at an address that defines none nothing happens (R14). -/
def Chip.writeReg (ch : Chip) (a : Nat) (v : W32) : Chip :=
  if a % 4 ≠ 0 then ch
  else
    let c1 := ch.stage (fun g => g.write a v)
    if a < 0x0500 then c1.writeLow a v
    else if a < 0x1400 then c1.writeMid a v
    else if a < 0x2100 then c1.writeHigh a v
    else c1.writeDeckReg a v

/-- REGISTER_WRITE: a whole transaction, so that I2C_CFG is in force after it (R113). -/
def registerWriteEffect (address : W16) (value : W32) (ch : Chip) : Chip :=
  let c1 := ch.writeReg address.toNat value
  { c1 with i2c := { c1.i2c with pecOn := c1.i2c.pecEn } }

/-- REGISTER_WRITE (R12, R14, R505). -/
def execRegisterWrite (address : W16) (value : W32) (s : State) : Host.Outcome State Fault Refusal := s.onRegister (registerWriteEffect address value)

end Sys2Proof.Machine
end

