-- ==== Sys2Proof/Machine/I2c.lean ====
section
/-! DEFINITION. The I2C management port: one command is one transaction to its address, made of write parts (each after a START or a
repeated START with the write address) and, for a read, the bytes the host clocks after the read address (04: R106–R113). -/

namespace Sys2Proof.Machine

def Chip.modI2c (ch : Chip) (f : I2cPort → I2cPort) : Chip := { ch with i2c := f ch.i2c }

/-- The address byte of a write and of a read (R106). -/
def I2cPort.addrW (i : I2cPort) : Byte := i.addr ++ 0#1
def I2cPort.addrR (i : I2cPort) : Byte := i.addr ++ 1#1

/-- The pointer that a write part's first two bytes set: none without both; the low byte must be a multiple of 4 (R110). -/
def partPointer (bytes : List Byte) : Option W16 :=
  match bytes with
  | lo :: hi :: _ => some (hi ++ lo)
  | _ => none

/-- The low byte breaks R110. -/
def partBad (bytes : List Byte) : Bool :=
  match bytes with
  | lo :: _ => decide (lo.toNat % 4 ≠ 0)
  | [] => false

/-- A pointer that breaks R110: not acknowledged, counted, and the rest of the transaction is ignored. -/
def Chip.formError (ch : Chip) : Chip := ch.modI2c (fun i => { i with form := i.form + 1, acked := false })

/-- Whole registers of a write, in order from address p; the pointer advances by one for each data byte (R109, R110). -/
def Chip.writeRegs (p : W16) : List Byte → Chip → Chip
  | b0 :: b1 :: b2 :: b3 :: rest, ch => Chip.writeRegs (p + 4) rest ((ch.modI2c (fun i => { i with ptr := p + 4 })).writeReg p.toNat (wordAt [b0, b1, b2, b3] 0))
  | rest, ch => ch.modI2c (fun i => { i with ptr := p + BitVec.ofNat 16 rest.length })

/-- A write part without PEC; whether the transaction goes on (R109, R110). -/
def Chip.plainPart (ch : Chip) (bytes : List Byte) : Chip × Bool :=
  if partBad bytes then (ch.formError, false)
  else match partPointer bytes with
    | some p => (Chip.writeRegs p (bytes.drop 2) (ch.modI2c (fun i => { i with acked := true })), true)
    | none => (ch.modI2c (fun i => { i with acked := true }), true)

/-- The write parts of a transaction without PEC. -/
def Chip.plainParts : List (List Byte) → Chip → Chip × Bool
  | [], ch => (ch, true)
  | x :: xs, ch =>
    let r := ch.plainPart x
    if r.2 then Chip.plainParts xs r.1 else r

/-- The transaction ends: I2C_CFG as written takes effect (R113). -/
def Chip.endI2c (ch : Chip) : Chip := ch.modI2c (fun i => { i with pecOn := i.pecEn })

/-- STOP: the transaction is counted (R111, R113). -/
def Chip.stopI2c (ch : Chip) : Chip := (ch.modI2c (fun i => { i with xact := i.xact + 1 })).endI2c

/-- n bytes from the pointer; the four bytes of one register come from one fetch, held in `got` (R108, R109). -/
def Chip.readBytes : Nat → Option (Nat × W32) → Chip → Chip × List Byte
  | 0, _, ch => (ch, [])
  | n + 1, got, ch =>
    let p := ch.i2c.ptr
    let base := p.toNat / 4 * 4
    let x : Chip × W32 := match got with
      | some (b, v) => if b = base then (ch, v) else ch.fetchReg base
      | none => ch.fetchReg base
    let r := Chip.readBytes n (some (base, x.2)) (x.1.modI2c (fun i => { i with ptr := p + 1 }))
    (r.1, byteAt (leBytes 4 x.2.toNat) (p.toNat % 4) :: r.2)

/-- The bytes that the host reads are kept for view. -/
def Chip.showI2c (r : Chip × List Byte) : Chip := r.1.modI2c (fun i => { i with out := r.2, acked := true })

/-- The bytes the host sees while M_SDA is released. -/
def released (n : Nat) : List Byte := List.replicate n 0xFF

/-- A read part without PEC. DESIGN CHOICE (log entry 20): a read that begins in the middle of a register fetches it anew. -/
def Chip.plainRead (ch : Chip) (taken : Nat) : Chip := Chip.showI2c (Chip.readBytes taken none ch)

/-! ### PEC (R111) -/

/-- A PEC write is discarded: pec_err, and a wrong length or a mismatch is counted. -/
def Chip.pecDiscard (ch : Chip) (length : Bool) : Chip :=
  ch.modI2c (fun i => { i with pecErr := true, acked := true, form := if length then i.form + 1 else i.form, pec := if length then i.pec else i.pec + 1 })

/-- The pointer of a write part, where it sends one. -/
def Chip.takePointer (ch : Chip) (bytes : List Byte) : Chip :=
  match partPointer bytes with
  | some p => ch.modI2c (fun i => { i with ptr := p })
  | none => ch

/-- Write parts that a repeated START with the write address follows: each is discarded as a wrong length; whether the transaction
goes on, and the bytes on the wire so far. -/
def Chip.pecParts : List (List Byte) → List Byte → Chip → Chip × Bool × List Byte
  | [], wire, ch => (ch, true, wire)
  | x :: xs, wire, ch =>
    if partBad x then (ch.formError, false, wire)
    else Chip.pecParts xs (wire ++ ch.i2c.addrW :: x) ((ch.takePointer x).pecDiscard true)

/-- The write part that STOP ends: n registers, 1 to 8, and their PEC. -/
def Chip.pecCommit (ch : Chip) (x wire : List Byte) : Chip :=
  let data := x.drop 2
  let n := (data.length - 1) / 4
  let c1 := ch.takePointer x
  if x.length < 2 ∨ data.length ≠ 4 * n + 1 ∨ n = 0 ∨ 8 < n then c1.pecDiscard true
  else if crc8 (wire ++ ch.i2c.addrW :: x.dropLast) ≠ byteAt data (4 * n) then c1.pecDiscard false
  else
    (Chip.writeRegs c1.i2c.ptr data.dropLast c1).modI2c (fun i => { i with pecErr := false, acked := true })

/-- A whole PEC write: every part but the last is discarded, the last is judged. DESIGN CHOICE (log entry 20): a low pointer byte that
breaks R110 is not acknowledged here either; it is counted in I2C_CNT_FORM, the rest of the transaction is ignored, and pec_err stays. -/
def Chip.pecWrite (ch : Chip) (parts : List (List Byte)) : Chip :=
  let r := Chip.pecParts parts.dropLast [] ch
  match r.2.1, parts.getLast? with
  | true, some x => if partBad x then r.1.formError else r.1.pecCommit x r.2.2
  | _, _ => r.1

/-- A whole PEC read: the last part holds the pointer and one count byte from 1 to 8; the port sends its PEC after the registers, and
0xFF for every byte beyond it. -/
def Chip.pecRead (ch : Chip) (parts : List (List Byte)) (taken : Nat) : Chip :=
  let r := Chip.pecParts parts.dropLast [] ch
  if ¬ r.2.1 then r.1.modI2c (fun i => { i with out := released taken })
  else match parts.getLast? with
    | none => r.1.formError.modI2c (fun i => { i with out := released taken })
    | some x =>
      if partBad x then r.1.formError.modI2c (fun i => { i with out := released taken })
      else
        let c1 := r.1.takePointer x
        let n := (byteAt x 2).toNat
        if x.length ≠ 3 ∨ n = 0 ∨ 8 < n then c1.formError.modI2c (fun i => { i with out := released taken })
        else
          let d := Chip.readBytes (min taken (4 * n)) none c1
          let pec := crc8 (r.2.2 ++ ch.i2c.addrW :: (x ++ ch.i2c.addrR :: d.2))
          let extra := taken - 4 * n
          Chip.showI2c (d.1.modI2c (fun i => { i with overread := if 1 < extra then i.overread + 1 else i.overread }),
            d.2 ++ (if 0 < extra then pec :: released (extra - 1) else []))

/-! ### The commands -/

/-- The port acknowledges a transaction that calls 7-bit address `addr`: its own, once it is ready (R106, R107). The general call, every
0b1111_0xx address and the device-ID address are never its own. -/
def Chip.i2cAnswers (ch : Chip) (addr : BitVec 7) : Bool := ch.i2cOn && decide (addr = ch.i2c.addr)

/-- A transaction to an address that the port does not acknowledge: it takes no action, and M_SDA stays released (R106, R107). -/
def Chip.unanswered (ch : Chip) (taken : Nat) : Chip := ch.modI2c (fun i => { i with acked := false, out := released taken })

/-- A write transaction under the rule in force. -/
def Chip.i2cWriting (ch : Chip) (addr : BitVec 7) (parts : List (List Byte)) : Chip :=
  if ¬ ch.i2cAnswers addr then ch.unanswered 0
  else if ch.i2c.pecOn then (ch.pecWrite parts).stopI2c
  else (Chip.plainParts parts ch).1.stopI2c

/-- A read transaction under the rule in force. -/
def Chip.i2cReading (ch : Chip) (addr : BitVec 7) (parts : List (List Byte)) (taken : Nat) : Chip :=
  if ¬ ch.i2cAnswers addr then ch.unanswered taken
  else if ch.i2c.pecOn then (ch.pecRead parts taken).stopI2c
  else
    let r := Chip.plainParts parts ch
    (if r.2 then r.1.plainRead taken else r.1.modI2c (fun i => { i with out := released taken })).stopI2c

/-- I2C_TIMEOUT: the port abandons the transaction after these parts and, of a read, these bytes; what was committed stays, and what a
PEC write held is lost (R112, R113). DESIGN CHOICE (log entry 20): a PEC write so abandoned is no discarded one, and leaves pec_err. -/
def i2cTimeoutEffect (addr : BitVec 7) (parts : List (List Byte)) (taken : Option Nat) (ch : Chip) : Chip :=
  if ¬ ch.i2cAnswers addr then ch.unanswered 0
  else
    let c1 := match taken with
      | some n =>
        if ch.i2c.pecOn then ch.pecRead parts n
        else
          let r := Chip.plainParts parts ch
          if r.2 then r.1.plainRead n else r.1
      | none =>
        if ch.i2c.pecOn then
          let r := Chip.pecParts parts.dropLast [] ch
          match r.2.1, parts.getLast? with
          | true, some x => if partBad x then r.1.formError else r.1.takePointer x
          | _, _ => r.1
        else (Chip.plainParts parts ch).1
    (c1.modI2c (fun i => { i with timeout := i.timeout + 1 })).endI2c

/-- I2C_WRITE (R109, R110). -/
def execI2cWrite (addr : BitVec 7) (parts : List (List Byte)) (s : State) : Host.Outcome State Fault Refusal :=
  s.onChip (fun ch => ch.i2cWriting addr parts)
/-- I2C_READ (R109). -/
def execI2cRead (addr : BitVec 7) (parts : List (List Byte)) (taken : Nat) (s : State) : Host.Outcome State Fault Refusal :=
  s.onChip (fun ch => ch.i2cReading addr parts taken)
/-- I2C_PEC_WRITE (R111): where the PEC rule is not in force the bytes are read without it. -/
def execI2cPecWrite (addr : BitVec 7) (parts : List (List Byte)) (s : State) : Host.Outcome State Fault Refusal :=
  s.onChip (fun ch => ch.i2cWriting addr parts)
/-- I2C_PEC_READ (R111). -/
def execI2cPecRead (addr : BitVec 7) (parts : List (List Byte)) (taken : Nat) (s : State) : Host.Outcome State Fault Refusal :=
  s.onChip (fun ch => ch.i2cReading addr parts taken)
/-- I2C_TIMEOUT (R112). -/
def execI2cTimeout (addr : BitVec 7) (parts : List (List Byte)) (taken : Option Nat) (s : State) : Host.Outcome State Fault Refusal :=
  s.onChip (i2cTimeoutEffect addr parts taken)

end Sys2Proof.Machine
end

