-- ==== Sys2Proof/Machine/Dispatch.lean ====
section
/-! DEFINITION. The dispatch of one command to its meaning: one arm per constructor of `Instr`, in the order of Syntax.lean. -/

namespace Sys2Proof.Machine

def exec (i : Instr) (s : State) : Host.Outcome State Fault Refusal :=
  match i with
  -- 06, 07: session opcodes
  | .ctxOpen h p => Sys2Proof.Machine.execCtxOpen h p s
  | .ctxClose h p => Sys2Proof.Machine.execCtxClose h p s
  | .ctxReset h p => Sys2Proof.Machine.execCtxReset h p s
  | .eventsFetch h p => Sys2Proof.Machine.execEventsFetch h p s
  | .statusPeek h p => Sys2Proof.Machine.execStatusPeek h p s
  | .queueConfig h p => Sys2Proof.Machine.execQueueConfig h p s
  | .quotaQuery h p => Sys2Proof.Machine.execQuotaQuery h p s
  | .timeRead h p => Sys2Proof.Machine.execTimeRead h p s
  -- 07: deck, loop and motion opcodes
  | .deckLock h p => Sys2Proof.Machine.execDeckLock h p s
  | .deckUnlock h p => Sys2Proof.Machine.execDeckUnlock h p s
  | .deckAdopt h p => Sys2Proof.Machine.execDeckAdopt h p s
  | .load h p => Sys2Proof.Machine.execLoad h p s
  | .unload h p => Sys2Proof.Machine.execUnload h p s
  | .home h p => Sys2Proof.Machine.execHome h p s
  | .deckStop h p => Sys2Proof.Machine.execDeckStop h p s
  | .deckStatus h p => Sys2Proof.Machine.execDeckStatus h p s
  | .loopOpen h p => Sys2Proof.Machine.execLoopOpen h p s
  | .loopClose h p => Sys2Proof.Machine.execLoopClose h p s
  | .loopWrite h p => Sys2Proof.Machine.execLoopWrite h p s
  | .loopRead h p => Sys2Proof.Machine.execLoopRead h p s
  | .autotune h p => Sys2Proof.Machine.execAutotune h p s
  | .autotuneResult h p => Sys2Proof.Machine.execAutotuneResult h p s
  | .tripClear h p => Sys2Proof.Machine.execTripClear h p s
  | .speedPolicy h p => Sys2Proof.Machine.execSpeedPolicy h p s
  -- 08: record and positioning opcodes
  | .writeRecord h p => Sys2Proof.Machine.execWriteRecord h p s
  | .writeData h p => Sys2Proof.Machine.execWriteData h p s
  | .writeFilemark h p => Sys2Proof.Machine.execWriteFilemark h p s
  | .flush h p => Sys2Proof.Machine.execFlush h p s
  | .readRecord h p => Sys2Proof.Machine.execReadRecord h p s
  | .readMore h p => Sys2Proof.Machine.execReadMore h p s
  | .locate h p => Sys2Proof.Machine.execLocate h p s
  | .space h p => Sys2Proof.Machine.execSpace h p s
  | .rewind h p => Sys2Proof.Machine.execRewind h p s
  | .positionRead h p => Sys2Proof.Machine.execPositionRead h p s
  | .eraseFromHere h p => Sys2Proof.Machine.execEraseFromHere h p s
  | .formatTape h p => Sys2Proof.Machine.execFormatTape h p s
  | .verify h p => Sys2Proof.Machine.execVerify h p s
  | .compressionSet h p => Sys2Proof.Machine.execCompressionSet h p s
  | .profileLoad h p => Sys2Proof.Machine.execProfileLoad h p s
  -- 03: the Ehran ports
  | .ehranPacketEnd p run how => Sys2Proof.Machine.execEhranPacketEnd p run how s
  | .ehranReplyRead p transfers => Sys2Proof.Machine.execEhranReplyRead p transfers s
  | .replyStage p slots damage => Sys2Proof.Machine.execReplyStage p slots damage s
  | .strayTransfer p frm word => Sys2Proof.Machine.execStrayTransfer p frm word s
  | .earlyRelease p frm word completed => Sys2Proof.Machine.execEarlyRelease p frm word completed s
  | .directionGlitch p frm word => Sys2Proof.Machine.execDirectionGlitch p frm word s
  | .selectGlitch p frm word => Sys2Proof.Machine.execSelectGlitch p frm word s
  | .turnaround p toHost => Sys2Proof.Machine.execTurnaround p toHost s
  | .portReselect p frm toHost => Sys2Proof.Machine.execPortReselect p frm toHost s
  | .paceRelease p word => Sys2Proof.Machine.execPaceRelease p word s
  | .portConfigAdopt p => Sys2Proof.Machine.execPortConfigAdopt p s
  | .portDisable p run => Sys2Proof.Machine.execPortDisable p run s
  -- 04: port S, I2C, JTAG
  | .spiPacketIn moved body oddBits next => Sys2Proof.Machine.execSpiPacketIn moved body oddBits next s
  | .spiPacketOut moved shifted next => Sys2Proof.Machine.execSpiPacketOut moved shifted next s
  | .doorPeek next => Sys2Proof.Machine.execDoorPeek next s
  | .spiFragment next => Sys2Proof.Machine.execSpiFragment next s
  | .spiBadFraming framing next => Sys2Proof.Machine.execSpiBadFraming framing next s
  | .spiConfigAdopt => Sys2Proof.Machine.execSpiConfigAdopt s
  | .i2cWrite addr parts => Sys2Proof.Machine.execI2cWrite addr parts s
  | .i2cRead addr parts taken => Sys2Proof.Machine.execI2cRead addr parts taken s
  | .i2cPecWrite addr parts => Sys2Proof.Machine.execI2cPecWrite addr parts s
  | .i2cPecRead addr parts taken => Sys2Proof.Machine.execI2cPecRead addr parts taken s
  | .i2cTimeout addr parts taken => Sys2Proof.Machine.execI2cTimeout addr parts taken s
  | .extest update => Sys2Proof.Machine.execExtest update s
  | .idcode => Sys2Proof.Machine.execIdcode s
  | .samplePreload pattern => Sys2Proof.Machine.execSamplePreload pattern s
  | .delaycalRead => Sys2Proof.Machine.execDelaycalRead s
  | .macroIsolate value => Sys2Proof.Machine.execMacroIsolate value s
  | .bypass ir => Sys2Proof.Machine.execBypass ir s
  | .testLogicReset => Sys2Proof.Machine.execTestLogicReset s
  -- 05, 01: events, notices and queues
  | .eventDelivery => Sys2Proof.Machine.execEventDelivery s
  | .queueEntryPlaced queue => Sys2Proof.Machine.execQueueEntryPlaced queue s
  | .cookNotice d => Sys2Proof.Machine.execCookNotice d s
  | .deckWorkRequest d => Sys2Proof.Machine.execDeckWorkRequest d s
  -- 06: leases, orphans, close
  | .leaseWarning d => Sys2Proof.Machine.execLeaseWarning d s
  | .leaseExpiry d => Sys2Proof.Machine.execLeaseExpiry d s
  | .orphanDrainEnd d => Sys2Proof.Machine.execOrphanDrainEnd d s
  | .adoptWindowExpiry d => Sys2Proof.Machine.execAdoptWindowExpiry d s
  | .ctxCloseStaged c => Sys2Proof.Machine.execCtxCloseStaged c s
  -- 09: Ladle and Pass Q
  | .allocCells engine requester owner n critical => Sys2Proof.Machine.execAllocCells engine requester owner n critical s
  | .extend engine requester address n critical => Sys2Proof.Machine.execExtend engine requester address n critical s
  | .allocBlock engine requester owner critical => Sys2Proof.Machine.execAllocBlock engine requester owner critical s
  | .hand engine requester address holder critical => Sys2Proof.Machine.execHand engine requester address holder critical s
  | .release engine requester address => Sys2Proof.Machine.execRelease engine requester address s
  | .drainCriticalGrant => Sys2Proof.Machine.execDrainCriticalGrant s
  | .bankJoin => Sys2Proof.Machine.execBankJoin s
  | .qcommitCommit => Sys2Proof.Machine.execQcommitCommit s
  | .qcommitRevert => Sys2Proof.Machine.execQcommitRevert s
  -- 10: Funnel
  | .funnelRound site wanting => Sys2Proof.Machine.execFunnelRound site wanting s
  | .funnelUnitDone site waiting => Sys2Proof.Machine.execFunnelUnitDone site waiting s
  | .parkedRegrant site waiting => Sys2Proof.Machine.execParkedRegrant site waiting s
  | .funnelFreeze value => Sys2Proof.Machine.execFunnelFreeze value s
  | .funnelClear value => Sys2Proof.Machine.execFunnelClear value s
  | .funnelCsel value => Sys2Proof.Machine.execFunnelCsel value s
  -- 11: buffer SRAM, merge buffers, the Cook cache, Colander
  | .wordRead input w err => Sys2Proof.Machine.execWordRead input w err s
  | .wordWrite input w data => Sys2Proof.Machine.execWordWrite input w data s
  | .readModifyWrite input w mask data err => Sys2Proof.Machine.execReadModifyWrite input w mask data err s
  | .mergeWrite buf ctx w mask data damage => Sys2Proof.Machine.execMergeWrite buf ctx w mask data damage s
  | .cookStore w mask data damage => Sys2Proof.Machine.execCookStore w mask data damage s
  | .writebackAck => Sys2Proof.Machine.execWritebackAck s
  | .scrubInitPass => Sys2Proof.Machine.execScrubInitPass s
  | .scrubPassStart => Sys2Proof.Machine.execScrubPassStart s
  | .scrubRead err => Sys2Proof.Machine.execScrubRead err s
  | .scrubNow => Sys2Proof.Machine.execScrubNow s
  | .scrubEnable on => Sys2Proof.Machine.execScrubEnable on s
  | .sramClearCounts => Sys2Proof.Machine.execSramClearCounts s
  -- 12: Whisk
  | .compressRecord d slot damage => Sys2Proof.Machine.execCompressRecord d slot damage s
  | .decompressRecord d bad => Sys2Proof.Machine.execDecompressRecord d bad s
  -- 17: encoder inputs
  | .encoderEdge d enc a b fine => Sys2Proof.Machine.execEncoderEdge d enc a b fine s
  | .encoderErrorFault d enc => Sys2Proof.Machine.execEncoderErrorFault d enc s
  | .indexEdge d fine => Sys2Proof.Machine.execIndexEdge d fine s
  -- 14: Roller and Strainer
  | .datasetStart d fine => Sys2Proof.Machine.execDatasetStart d fine s
  | .lateFrame d fine => Sys2Proof.Machine.execLateFrame d fine s
  | .pieceJudge d sd row copy frames => Sys2Proof.Machine.execPieceJudge d sd row copy frames s
  | .trailerPlace d => Sys2Proof.Machine.execTrailerPlace d s
  | .datasetRead d dataset copies => Sys2Proof.Machine.execDatasetRead d dataset copies s
  | .rereadPass d => Sys2Proof.Machine.execRereadPass d s
  | .readLinkAlign d => Sys2Proof.Machine.execReadLinkAlign d s
  | .readLinkAlignLoss d => Sys2Proof.Machine.execReadLinkAlignLoss d s
  -- 15: the speed matcher
  | .speedRetarget d => Sys2Proof.Machine.execSpeedRetarget d s
  | .stallTimeout d => Sys2Proof.Machine.execStallTimeout d s
  | .runOutBrake d => Sys2Proof.Machine.execRunOutBrake d s
  | .underrun d => Sys2Proof.Machine.execUnderrun d s
  | .deckRestart d => Sys2Proof.Machine.execDeckRestart d s
  | .readBufferStall d => Sys2Proof.Machine.execReadBufferStall d s
  -- 16: Simmer
  | .sampleInstant d chip0 chip1 fine => Sys2Proof.Machine.execSampleInstant d chip0 chip1 fine s
  | .sampleOverrun d slots => Sys2Proof.Machine.execSampleOverrun d slots s
  | .autotuneTimeout d k => Sys2Proof.Machine.execAutotuneTimeout d k s
  -- 17: Griddle, trips, limits, presence
  | .sensorInvalidFault d => Sys2Proof.Machine.execSensorInvalidFault d s
  | .pwmPeriodStart d fine => Sys2Proof.Machine.execPwmPeriodStart d fine s
  | .trip d a fine => Sys2Proof.Machine.execTrip d a fine s
  | .limitEdge d hi active fine before after into => Sys2Proof.Machine.execLimitEdge d hi active fine before after into s
  | .limitWindowEnd d hi => Sys2Proof.Machine.execLimitWindowEnd d hi s
  | .presenceChange d door level fine => Sys2Proof.Machine.execPresenceChange d door level fine s
  | .tapeMarkerEdge d rising fine => Sys2Proof.Machine.execTapeMarkerEdge d rising fine s
  -- 18: deck sequences
  | .deckLeaveDormant d => Sys2Proof.Machine.execDeckLeaveDormant d s
  | .loadStepEnd d found => Sys2Proof.Machine.execLoadStepEnd d found s
  | .homeStepEnd d position => Sys2Proof.Machine.execHomeStepEnd d position s
  | .stepTimeout d => Sys2Proof.Machine.execStepTimeout d s
  | .tensionFault d => Sys2Proof.Machine.execTensionFault d s
  | .faultStopRest d => Sys2Proof.Machine.execFaultStopRest d s
  | .stopComplete d => Sys2Proof.Machine.execStopComplete d s
  | .unloadStepEnd d => Sys2Proof.Machine.execUnloadStepEnd d s
  | .wrapTurn d => Sys2Proof.Machine.execWrapTurn d s
  -- 19, 02: power-up
  | .powerOn vin => Sys2Proof.Machine.execPowerOn vin s
  | .trimRead ma => Sys2Proof.Machine.execTrimRead ma s
  | .hgrefClassify is20 => Sys2Proof.Machine.execHgrefClassify is20 s
  | .startupPhaseBegin => Sys2Proof.Machine.execStartupPhaseBegin s
  | .strapSample bootmode simple => Sys2Proof.Machine.execStrapSample bootmode simple s
  | .freeListBuild => Sys2Proof.Machine.execFreeListBuild s
  | .cookBoot => Sys2Proof.Machine.execCookBoot s
  | .decksControllable => Sys2Proof.Machine.execDecksControllable s
  | .uvloFall => Sys2Proof.Machine.execUvloFall s
  | .warningArm vin => Sys2Proof.Machine.execWarningArm vin s
  | .powerFailWarning vin vinSeal gapUs => Sys2Proof.Machine.execPowerFailWarning vin vinSeal gapUs s
  | .brownoutRestart vin bootmode simple => Sys2Proof.Machine.execBrownoutRestart vin bootmode simple s
  | .resetAssert => Sys2Proof.Machine.execResetAssert s
  | .resetRelease bootmode simple => Sys2Proof.Machine.execResetRelease bootmode simple s
  | .vioBankChange bank good => Sys2Proof.Machine.execVioBankChange bank good s
  -- 19: domains and supply registers
  | .domainAutoOff n => Sys2Proof.Machine.execDomainAutoOff n s
  | .domainWake n => Sys2Proof.Machine.execDomainWake n s
  | .deckHold value => Sys2Proof.Machine.execDeckHold value s
  | .sramOff value => Sys2Proof.Machine.execSramOff value s
  | .pwrPfwWrite value => Sys2Proof.Machine.execPwrPfwWrite value s
  | .pwrClearLow => Sys2Proof.Machine.execPwrClearLow s
  -- 02: the timebase and Kettle
  | .referenceLoss => Sys2Proof.Machine.execReferenceLoss s
  | .referenceRestore is20 => Sys2Proof.Machine.execReferenceRestore is20 s
  | .lineCalibration => Sys2Proof.Machine.execLineCalibration s
  | .lineCalDone set elements => Sys2Proof.Machine.execLineCalDone set elements s
  | .tbCalNow => Sys2Proof.Machine.execTbCalNow s
  | .tbClearLoss => Sys2Proof.Machine.execTbClearLoss s
  | .tbTrimWrite value => Sys2Proof.Machine.execTbTrimWrite value s
  | .tbTimeLoRead => Sys2Proof.Machine.execTbTimeLoRead s
  | .kettleEvaluate times => Sys2Proof.Machine.execKettleEvaluate times s
  | .loadDeclaration l => Sys2Proof.Machine.execLoadDeclaration l s
  | .declarationTimeout => Sys2Proof.Machine.execDeclarationTimeout s
  | .kettleStepSettled => Sys2Proof.Machine.execKettleStepSettled s
  | .overrun site => Sys2Proof.Machine.execOverrun site s
  | .kettleClearCounts => Sys2Proof.Machine.execKettleClearCounts s
  -- 20: traps, faults, movers
  | .cookTrap cause pc job => Sys2Proof.Machine.execCookTrap cause pc job s
  | .cookDoubleFault cause pc => Sys2Proof.Machine.execCookDoubleFault cause pc s
  | .cookSupervisionTimeout => Sys2Proof.Machine.execCookSupervisionTimeout s
  | .cookRestart => Sys2Proof.Machine.execCookRestart s
  | .engineFault unit detail => Sys2Proof.Machine.execEngineFault unit detail s
  | .tongsDescriptor channel job descriptor words damage => Sys2Proof.Machine.execTongsDescriptor channel job descriptor words damage s
  -- 21: management
  | .tempSample readings bad => Sys2Proof.Machine.execTempSample readings bad s
  | .tempClearPeak => Sys2Proof.Machine.execTempClearPeak s
  | .logWinRead damaged => Sys2Proof.Machine.execLogWinRead damaged s
  | .logPop seq => Sys2Proof.Machine.execLogPop seq s
  | .logSlotClear unit which => Sys2Proof.Machine.execLogSlotClear unit which s
  | .logRelease unit => Sys2Proof.Machine.execLogRelease unit s
  | .cookRelease => Sys2Proof.Machine.execCookRelease s
  | .cookRestartRequest => Sys2Proof.Machine.execCookRestartRequest s
  | .cookHalt => Sys2Proof.Machine.execCookHalt s
  | .cookPatchDataAccess write => Sys2Proof.Machine.execCookPatchDataAccess write s
  | .emergencyHold hold coast => Sys2Proof.Machine.execEmergencyHold hold coast s
  | .mirTimeLoRead d => Sys2Proof.Machine.execMirTimeLoRead d s
  | .rolPosLoRead d => Sys2Proof.Machine.execRolPosLoRead d s
  | .pwrTWarnLoRead => Sys2Proof.Machine.execPwrTWarnLoRead s
  | .rolClearCounts d => Sys2Proof.Machine.execRolClearCounts d s
  | .strClearCounts d => Sys2Proof.Machine.execStrClearCounts d s
  | .mioClearCounts d => Sys2Proof.Machine.execMioClearCounts d s
  | .ladleClearLow => Sys2Proof.Machine.execLadleClearLow s
  | .registerWrite address value => Sys2Proof.Machine.execRegisterWrite address value s
  -- 02, 19, 03, 17, 14: ticks and further events
  | .coarseTick => Sys2Proof.Machine.execCoarseTick s
  | .v3aUp => Sys2Proof.Machine.execV3aUp s
  | .alwaysOnReady => Sys2Proof.Machine.execAlwaysOnReady s
  | .deckDomainsOn => Sys2Proof.Machine.execDeckDomainsOn s
  | .portDeselect p run => Sys2Proof.Machine.execPortDeselect p run s
  | .tripInputRelease d a fine => Sys2Proof.Machine.execTripInputRelease d a fine s
  | .trackLock d t skew => Sys2Proof.Machine.execTrackLock d t skew s
  | .trackUnlock d t dropped => Sys2Proof.Machine.execTrackUnlock d t dropped s
  | .cellBoundary d fine => Sys2Proof.Machine.execCellBoundary d fine s

end Sys2Proof.Machine
end

