-- ==== Sys2Proof/Safety.lean ====
section
/-! DEFINITION. What a safe run of the SZ440 is, and the words in which statements about its commands are written. -/

namespace Sys2Proof.Machine

/-- An entry of the present instant, its number still open (R30, R513). -/
def State.entry (s : State) (kind code : Byte) (unit : Nat) (object : W16) (ctx : Byte) (a0 a1 a2 : W32) : LogEntry :=
  { kind := kind, code := code, unit := BitVec.ofNat 8 unit, flags := if s.chip.freeRunning then 1 else 0, seq := 0,
    time := s.chip.now, object := object, ctx := ctx, arg0 := a0, arg1 := a1, arg2 := a2 }

/-- The fault log with one more entry of the present instant, which is placed when the instant ends (R31). -/
def State.logged (s : State) (kind code : Byte) (unit : Nat) (object : W16) (ctx : Byte) (a0 a1 a2 : W32) : FaultLog :=
  { s.chip.log with pend := s.chip.log.pend ++ [s.entry kind code unit object ctx a0 a1 a2] }

/-- HGREF drives the Hourglass: ref_state is ACQUIRING or LOCKED (R47). -/
abbrev State.OnRef (s : State) : Prop := s.chip.timebase.refState = .acquiring ∨ s.chip.timebase.refState = .locked

/-- The buffer memory is in its canonical form. -/
abbrev State.Canonical (s : State) : Prop := memWf s.chip.sram.mem = true

/-- No word of the buffer that the memory lists would take another header or link if Ladle's lists became `l` (R228, R232). -/
abbrev State.Unlisted (s : State) (l : Ladle) : Prop := ∀ x ∈ s.chip.sram.mem, l.inWord (x.1 / 32) = s.chip.ladle.inWord (x.1 / 32)

/-- Nothing is listed of word w: it holds what Ladle wrote there. -/
abbrev State.Plain (s : State) (w : Nat) : Prop := ∀ x ∈ s.chip.sram.mem, x.1 / 32 ≠ w

/-- The memory `mem` gives word w the symbols `syms` while Ladle's lists are `l`, and keeps every other byte. -/
def State.putsUnder (s : State) (l : Ladle) (mem : List (Nat × Byte)) (w : BitVec 18) (syms : List Byte) : Prop :=
  ({ s.chip with ladle := l, sram.mem := mem } : Chip).wordSyms w = syms ∧
    ∀ a, (a / 32 ≠ w.toNat ∨ 19 ≤ a % 32) → memGet mem a = memGet s.chip.sram.mem a

/-- The memory `mem` gives word w the symbols `syms`, and keeps every other byte. -/
abbrev State.puts (s : State) (mem : List (Nat × Byte)) (w : BitVec 18) (syms : List Byte) : Prop := s.putsUnder s.chip.ladle mem w syms

/-- The Cook holds nothing of word w (Table 11-4). -/
abbrev State.Uncached (s : State) (w : BitVec 18) : Prop := s.chip.cache.find w = none ∧ s.chip.cache.findWb w = none

/-- The management port answers, so that its registers can be reached (R5, R107). -/
abbrev State.Reached (s : State) : Prop := s.chip.i2cOn = true

/-- The Cook can take work, the context is OPEN, this command stands at the head of its CMD queue with `rest` behind it, and the context
holds an F-PORT grant whose unit is still to be used (R176, R248, R252). -/
abbrev State.Heads (s : State) (op : Op) (h : CmdHdr) (p : List Byte) (rest : List Cmd) : Prop :=
  s.chip.cookCan = true ∧ (s.chip.ctxs.get h.ctx).state = .open ∧ (s.chip.ctxs.get h.ctx).cmd = cmdOf op h p :: rest ∧
    s.chip.grantFor 16 h.ctx.val = true

/-- The sites of Funnel with the unit of site n's grant in use (R252). -/
def State.unitUsed (s : State) (n : Fin 18) : Vector Site 18 :=
  s.chip.funnel.sites.set n { s.chip.funnel.sites.get n with inUse := true }

/-- The completion of the command whose header is `h`, entering its RPL queue now (R125). -/
def State.completion (s : State) (h : CmdHdr) (st : Stat) (payload : List Byte) : Reply :=
  { type := 0x80, ctx := BitVec.ofNat 8 h.ctx.val, tag := h.tag, stat := st, payload := payload, trailer := h.rcrc,
    time := s.chip.now, fetch := none }

/-- The state after the Cook has taken the command at the head of its queue and nothing else. -/
def State.took (s : State) (h : CmdHdr) (rest : List Cmd) : State :=
  { s with
    chip.cook.state := .running
    chip.funnel.sites := s.unitUsed 16
    chip.ctxs := s.chip.ctxs.set h.ctx { s.chip.ctxs.get h.ctx with cmd := rest, cmdAt := (s.chip.ctxs.get h.ctx).cmdAt.tail } }

/-- The state after that command has been taken and has completed at once, with no other effect. -/
def State.answered (s : State) (h : CmdHdr) (rest : List Cmd) (st : Stat) (payload : List Byte) : State :=
  { s with
    chip.cook.state := .running
    chip.funnel.sites := s.unitUsed 16
    chip.ctxs := s.chip.ctxs.set h.ctx { s.chip.ctxs.get h.ctx with
      cmd := rest, cmdAt := (s.chip.ctxs.get h.ctx).cmdAt.tail, rpl := (s.chip.ctxs.get h.ctx).rpl ++ [s.completion h st payload] } }

/-- Context h.ctx executes nothing else, no hold keeps deck d, and the context holds its lock, whose lease is not over (R165, R168). -/
abbrev State.Locked (s : State) (h : CmdHdr) (d : Deck) : Prop :=
  (s.chip.ctxs.get h.ctx).executing = [] ∧ s.chip.deckHeld d = false ∧ (s.chip.decks.get d).lock.state = .held h.ctx ∧
    s.chip.leaseOver d = false

/-- A deck whose lease runs on afresh, when context i holds it (R167). -/
def DeckAll.releasedBy (k : DeckAll) (i : Ctx) (t : W64) : DeckAll :=
  if k.lock.state = .held i then { k with lock := { k.lock with leaseAt := t, warned := false } } else k

/-- The state with deck d become `k`, and nothing else changed. -/
def State.withDeck (s : State) (d : Deck) (k : DeckAll) : State := { s with chip.decks := s.chip.decks.set d k }

/-- The state after a command that names deck d has been taken, has made deck d into `k` and has completed at once. -/
def State.deckAnswered (s : State) (h : CmdHdr) (rest : List Cmd) (d : Deck) (k : DeckAll) (st : Stat) (payload : List Byte) : State :=
  { s.answered h rest st payload with chip.decks := s.chip.decks.set d (k.releasedBy h.ctx s.chip.now) }

/-- VIN is valid, open context i holds deck d, and the event path has room: the deck's events reach context i (R140, R501). -/
abbrev State.Hears (s : State) (d : Deck) (i : Ctx) : Prop :=
  s.chip.power.valid = true ∧ (s.chip.decks.get d).lock.state = .held i ∧ (s.chip.ctxs.get i).isOpen = true ∧ s.chip.events.length < 64

/-- The fault log and the event path after the deck event `code` of unit `unit` has gone out to context i (R140, R513). -/
def State.told (s : State) (d : Deck) (i : Ctx) (code : Byte) (unit : Nat) (arg : W32) : State :=
  { s with
    chip.log := s.logged 1 code unit (deckObject d) 0xFF arg 0 0
    chip.events := s.chip.events ++ [{ code := code, arg := arg, time := s.chip.now, targets := [(i, deckObject d)] }] }

/-- Deck d has entered state `st` and said so: the log, the event path and the deck's mirror (R439, R513, R523). -/
def State.entered (s : State) (d : Deck) (i : Ctx) (st : DeckState) : State :=
  let m := s.chip.emergency.mirror.get d
  { s.told d i 0x01 (53 + 6 * d.val) (BitVec.ofNat 32 st.code) with
    chip.emergency.mirror := s.chip.emergency.mirror.set d { m with
      state := BitVec.ofNat 4 st.code, time := s.chip.now, cntState := m.cntState + 1
      cntFault := if st = .faultStop then m.cntFault + 1 else m.cntFault } }

/-- The completion of the deck operation `o`, entering its context's RPL queue now (R125, R181). -/
def State.endReply (s : State) (o : DeckOp) (st : Stat) (payload : List Byte) : Reply :=
  { type := 0x80, ctx := BitVec.ofNat 8 o.ctx.val, tag := o.tag, stat := st, payload := payload, trailer := o.rcrc,
    time := s.chip.now, fetch := none }

/-- Nothing of the deck's runs, moves, waits or is staged: no operation, no ticketed or written object, no marker owed, no tuning, no read. -/
abbrev DeckAll.Idle (k : DeckAll) : Prop :=
  (k.seq.state = .empty ∨ k.seq.state = .present ∨ k.seq.state = .ready) ∧ k.seq.op = none ∧ k.seq.waiters = [] ∧ k.seq.stopWaiters = [] ∧
    k.staged = [] ∧ k.inFlight = [] ∧ k.poisoned = [] ∧ k.standing = [] ∧ k.orders = [] ∧ k.roller.open_ = none ∧ k.roller.openBlocks = [] ∧
    k.roller.placed = 0 ∧ k.roller.buffers = [] ∧ k.roller.gate = false ∧ k.tape.marker = false ∧
    k.readQ = [] ∧ k.toExpand = [] ∧ k.cookQ = [] ∧ k.tape.walk = none ∧ k.strainer.reading = false ∧ k.strainer.rows = [] ∧
    k.strainer.pass = 0 ∧ k.strainer.stalled = false ∧ k.strainer.blocks = [] ∧
    ∀ j, (k.loops.slots.get j).state ≠ .tuning

/-- The deck is idle, no raise waits at Kettle, and its lock's owner has no record waiting and no ticket. -/
abbrev State.Still (s : State) (d : Deck) : Prop :=
  (s.chip.decks.get d).Idle ∧ s.chip.kettle.raising = [] ∧ s.chip.held = [] ∧
    ∀ i, (s.chip.decks.get d).lock.owner = some i → (s.chip.ctxs.get i).wdata.get d = [] ∧ (s.chip.ctxs.get i).ticket = none

/-- A tape of this format is loaded on deck d, which stands READY or moves it, with a profile, homed, under a LOCKED reference, with no trip,
no operation that runs or ends, no raise awaited and no engine held: every opcode 0x20 to 0x2C is in order (Tables 7-2, 8-2, 18-5). -/
abbrev State.Loaded (s : State) (d : Deck) : Prop :=
  let k := s.chip.decks.get d
  (k.seq.state = .ready ∨ k.seq.state = .streaming ∨ k.seq.state = .stopping) ∧ k.io.cart = true ∧ k.profile.isSome ∧ (∀ a, (k.io.axes.get a).trip = false) ∧ k.io.home.homed = true ∧
    s.chip.timebase.refState = .locked ∧ k.tape.media = some .krf ∧ k.seq.op = none ∧ k.opEnding = false ∧ s.chip.kettle.raising = [] ∧ s.chip.log.held = []

/-- The state after a command that names deck d has been taken and is executing (R176). -/
def State.started (s : State) (h : CmdHdr) (rest : List Cmd) (op : Op) (d : Deck) : State :=
  { s with
    chip.cook.state := .running
    chip.funnel.sites := s.unitUsed 16
    chip.ctxs := s.chip.ctxs.set h.ctx { s.chip.ctxs.get h.ctx with
      cmd := rest, cmdAt := (s.chip.ctxs.get h.ctx).cmdAt.tail, executing := [{ op := op, tag := h.tag, rcrc := h.rcrc, deck := some d }] } }

/-- A deck operation that runs, as its command began it; `n` is SPACE's count (R178). -/
def runningOp (op : Op) (h : CmdHdr) (p : List Byte) (n : Int) (moving : Bool) : DeckOp :=
  { op := op, ctx := h.ctx, tag := h.tag, rcrc := h.rcrc, payload := p, flushing := false, moving := moving, delivered := 0, rest := n,
    objects := 0, c2 := 0, c2Data := 0, c3 := 0, rereads := 0, poisoned := 0, silent := false }

/-- A completion of the command with this header that waits for durability, before anything it covers is durable (R207, R210). -/
def Waiter.fresh (op : Op) (h : CmdHdr) : Waiter :=
  { op := op, ctx := h.ctx, tag := h.tag, rcrc := h.rcrc, from_ := 0, upTo := 0, reply := [], rewrites := 0, skips := 0, bad := false,
    compress := false, atRoller := false, tags := [] }

/-- The Ehran port is enabled, powered and selected (R67, R87). -/
abbrev State.Selected (s : State) (p : EPort) : Prop := s.chip.ehranOn p = true ∧ (s.chip.ehran.get p).sel = true

end Sys2Proof.Machine
end

