-- ==== Sys2Proof/Certificates/Slice0/Obligations.lean ====
section
/-! DEFINITION. The statements for the provers. In a conclusion `exec c s = .next { s with … }` the fields not named are those of `s`:
that is the frame of the command. -/

open Sys2Proof Sys2Proof.Machine

/-- TB_TRIM takes a written value clamped to ±10,000 (R48); a read of TB_TIME_LO latches the upper half of the time (R51); clear_loss
clears the loss count (R64); KETTLE_CTRL.clear_counts zeroes the counts and the site beside them (R63). A register is reached only while
the management port answers (R107). Everything else in the state stays. -/
def Obligations.TimebaseRegisterCommands : Prop :=
  ∀ s : State,
    (s.Reached →
      (∀ v : W32, ∃ w : W16, w.toInt = max (-10000) (min 10000 (v.setWidth 16 : W16).toInt) ∧
        exec (.tbTrimWrite v) s = .next { s with chip.timebase.trim := w }) ∧
      exec .tbTimeLoRead s = .next { s with chip.timebase.timeLatch := s.chip.now.extractLsb' 32 32 } ∧
      exec .tbClearLoss s = .next { s with chip.timebase.lossCount := 0 } ∧
      exec .kettleClearCounts s = .next { s with chip.kettle.overruns := 0, chip.kettle.overSite := 0, chip.kettle.raises := 0 }) ∧
    (¬ s.Reached → ∀ v : W32, exec (.tbTrimWrite v) s = .next s ∧ exec .tbTimeLoRead s = .next s ∧ exec .tbClearLoss s = .next s ∧
      exec .tbCalNow s = .next s ∧ exec .kettleClearCounts s = .next s)

/-- A rising HGREF edge advances the coarse count by 1,600 or 800 pinches corrected by TB_TRIM through the accumulator (R47, R48); the
lines calibrated in the tick now ended go into service (R49), and the log entries of the ended instant get their places (R31). The
clause on ABSENT and FREE_RUN rests on the model's bounded free value for the ring's tick (log entry 1). -/
def Obligations.HourglassTick : Prop :=
  ∀ s : State, s.chip.timebase.running = true →
    let t := s.chip.timebase
    let swapped := fun l : Lines => { l with elements := l.next.getD l.elements, next := none }
    let after := fun (n : W64) (acc used : Nat) => ({ s with
      chip.log := s.chip.log.settle
      chip.freeUsed := used
      chip.timebase := { t with time := t.time + n, fine := 0, trimAcc := acc, central := swapped t.central, decks := t.decks.map swapped } } : State)
    (s.OnRef →
      let n : Int := if t.ref20 then 800 else 1600
      let total : Int := t.trimAcc + n * t.trim.toInt
      let tick : W64 := BitVec.ofInt 64 (n + total / 100000000)
      (t.fine.toNat ≤ tick.toNat → exec .coarseTick s = .next (after tick (total % 100000000).toNat s.chip.freeUsed)) ∧
      (tick.toNat < t.fine.toNat → exec .coarseTick s = .next (after (t.fine.setWidth 64) (total % 100000000).toNat s.chip.freeUsed))) ∧
    (¬ s.OnRef → t.fine.toNat < 1600 →
      ∃ n : Nat, t.fine.toNat < n ∧ n ≤ (if t.trimsRead then 1604 else 1680) ∧
        exec .coarseTick s = .next (after (BitVec.ofNat 64 n) t.trimAcc (s.chip.freeUsed + 1)))

/-- The calibrations of R49: how they start (R46, R54), how they end, and those of a settled voltage step (R58). -/
def Obligations.Calibrations : Prop :=
  ∀ s : State,
    let lines := fun (f : Lines → Lines) (t : Timebase) => ({ t with
      central := f t.central
      decks := Vector.ofFn fun d : Deck => if s.chip.domOn (44 + d.val) then f (t.decks.get d) else t.decks.get d } : Timebase)
    let started := lines (fun l => { l with shadowBusy := true })
    let ended := fun (l : Lines) (n : BitVec 13) =>
      ({ l with next := some n, valid := true, shadowBusy := l.again, again := false, calCount := l.calCount + 1 } : Lines)
    (s.OnRef →
      exec .lineCalibration s = .next { s with chip.timebase := started s.chip.timebase } ∧
      (s.Reached → exec .tbCalNow s = .next { s with chip.timebase := started s.chip.timebase })) ∧
    (∀ is20, s.chip.timebase.trimsRead = true → s.chip.timebase.refState = .absent →
      exec (.hgrefClassify is20) s = .next { s with
        chip.timebase := started { s.chip.timebase with refState := .acquiring, ref20 := is20 } }) ∧
    (∀ is20, s.chip.timebase.refState = .freeRun →
      exec (.referenceRestore is20) s = .next { s with
        chip.timebase := started { s.chip.timebase with refState := .acquiring, ref20 := is20 } }) ∧
    (∀ n : BitVec 13, s.OnRef → s.chip.kettle.recal = false → s.chip.kettle.due = none →
      (s.chip.timebase.central.shadowBusy = true → s.chip.timebase.wasFree = false →
        exec (.lineCalDone 0 n) s = .next { s with
          chip.timebase.refState := .locked
          chip.timebase.central := ended s.chip.timebase.central n }) ∧
      (∀ d : Deck, (s.chip.timebase.decks.get d).shadowBusy = true →
        exec (.lineCalDone d.succ n) s = .next { s with
          chip.timebase.decks := s.chip.timebase.decks.set d (ended (s.chip.timebase.decks.get d) n) })) ∧
    (s.chip.kettle.settling = true → s.OnRef →
      exec .kettleStepSettled s = .next { s with
        chip.kettle.recal := true
        chip.timebase := lines (fun l => if l.shadowBusy then { l with again := true } else { l with shadowBusy := true })
          s.chip.timebase }) ∧
    (s.chip.kettle.settling = true → ¬ s.OnRef → exec .kettleStepSettled s = .next { s with chip.kettle.settling := false })

/-- The control procedure of R58 on the demands of R57, with the registers of R63: a step is made, waits for a calibration to finish
(R65), or may not be made. -/
def Obligations.KettleEvaluation : Prop :=
  ∀ (s : State) (times : List (BitVec 24)), s.chip.power.core = true → s.chip.timebase.refState = .locked →
    s.chip.power.warning = false → s.chip.kettle.raising = [] →
    let k := s.chip.kettle
    let least := leastSlack k.decks k.ports times
    let seen : Kettle := { k with
      siteTimes := times
      due := none
      slack := match least with | some (x, _) => slackUnits x | none => 0xFFFF
      slackSite := match least with | some (_, i) => BitVec.ofNat 8 (siteDomain k i) | none => 0 }
    let barred := s.chip.power.control = false ∨ k.hold = true
    let wait := k.settling = true ∨ s.chip.timebase.central.shadowBusy = true ∨
      ∃ d : Deck, (s.chip.timebase.decks.get d).shadowBusy = true
    let v := k.vcore.toNat
    let low := k.vlow k.mode
    let high := k.vhigh k.mode
    let below := ∃ x i, least = some (x, i) ∧ x.atLeast (margin k.mode) = false
    let roomy := ∀ x i, least = some (x, i) → x.above (margin k.mode + 5) = true
    let up := v < low ∨ (below ∧ v < high)
    let tooHigh := ¬ up ∧ high < v
    let calm := ¬ up ∧ v ≤ high ∧ roomy ∧ low < v
    let ends := fun k1 : Kettle => exec (.kettleEvaluate times) s = .next { s with chip.kettle := k1 }
    (up → ¬ barred → ¬ wait → ends { seen with vcore := k.vcore + 1, calm := 0, settling := true }) ∧
    (up → ¬ barred → wait → ends { seen with due := some true, calm := 0 }) ∧
    (up → barred → ends { seen with calm := 0 }) ∧
    (tooHigh → ¬ barred → ¬ wait → ends { seen with vcore := k.vcore - 1, settling := true }) ∧
    (tooHigh → ¬ barred → wait → ends { seen with due := some false }) ∧
    (tooHigh → barred → ends seen) ∧
    (calm → k.calm = 9 → ¬ barred → ¬ wait → ends { seen with vcore := k.vcore - 1, settling := true, calm := 0 }) ∧
    (calm → k.calm = 9 → ¬ barred → wait → ends { seen with due := some false, calm := 0 }) ∧
    (calm → k.calm = 9 → barred → ends { seen with calm := 0 }) ∧
    (calm → k.calm ≠ 9 → ends { seen with calm := k.calm + 1 }) ∧
    (¬ up → ¬ tooHigh → ¬ calm → ends { seen with calm := 0 })

/-- Declarations (R34, R60) and the emergency raise (R59). -/
def Obligations.DeclarationsAndOverruns : Prop :=
  ∀ s : State, s.chip.power.core = true →
    (s.chip.kettle.raising = [] →
      (∀ d l, s.chip.kettle.isRaise (.deck d l) = false →
        exec (.loadDeclaration (.deck d l)) s = .next { s with chip.kettle.decks := s.chip.kettle.decks.set d l }) ∧
      (∀ p r, r.toNat ≤ (s.chip.kettle.ports.get p).toNat →
        exec (.loadDeclaration (.port p r)) s = .next { s with chip.kettle.ports := s.chip.kettle.ports.set p r }) ∧
      (∀ x, s.chip.kettle.isRaise x = true → s.chip.temp.limited = false →
        exec (.loadDeclaration x) s = .next { s with chip.kettle.raising := [{ decl := x, cmd := none }] })) ∧
    (∀ (p : EPort) r r' rest, s.chip.kettle.raising = { decl := .port p.castSucc r, cmd := none } :: rest →
      (rest = [] → r'.toNat ≤ (s.chip.kettle.ports.get p.castSucc).toNat →
        exec (.loadDeclaration (.port p.castSucc r')) s = .next { s with
          chip.kettle.raising := [], chip.kettle.ports := s.chip.kettle.ports.set p.castSucc r' }) ∧
      exec .declarationTimeout s = .next { s with
        chip.kettle.raising := rest
        chip.kettle.atCeiling := true
        chip.ehran := s.chip.ehran.set p { s.chip.ehran.get p with declRefused := true } }) ∧
    (∀ site : Nat, s.chip.power.valid = true →
      let k := s.chip.kettle
      let n := if k.overruns = 0xFFFF then k.overruns else k.overruns + 1
      let high := k.vhigh k.mode
      let L := s.logged 2 0x30 site 0 0xFF (n.setWidth 32) 0 0
      let lately := ∃ t, k.raisedAt = some t ∧ (s.chip.now - t).toNat < 1600000
      (s.chip.timebase.refState ≠ .freeRun → s.chip.power.warning = false → ¬ lately → k.vcore.toNat < high →
        exec (.overrun site) s = .next { s with
          chip.log := L
          chip.kettle.overruns := n
          chip.kettle.overSite := BitVec.ofNat 8 site
          chip.kettle.vcore := BitVec.ofNat 7 (min (k.vcore.toNat + 4) high)
          chip.kettle.raisedAt := some s.chip.now
          chip.kettle.settling := true
          chip.kettle.raises := if k.raises = 0xFFFF then k.raises else k.raises + 1 }) ∧
      (lately ∨ high ≤ k.vcore.toNat →
        exec (.overrun site) s = .next { s with
          chip.log := L, chip.kettle.overruns := n, chip.kettle.overSite := BitVec.ofNat 8 site }))

/-- The three allocations of Table 9-6 where Table 9-7 and the checks of R237 pass, and the refusal of a number that the engine may not
use (R227). The drawn units' headers are as Ladle wrote them. -/
def Obligations.LadleAllocates : Prop :=
  ∀ (s : State) (engine requester owner n : Nat) (critical : Bool), s.chip.power.core = true → s.chip.ladle.built = true →
    let l := s.chip.ladle
    let holders := if requester = owner then [owner] else [owner, requester]
    let cells := l.openCells.take n
    let roomy := n + 256 ≤ l.cellsFree ∧ n ≤ l.openCells.length ∧ ∀ i ∈ cells, s.Plain (16 * i)
    let inQuota := ∀ h : owner < 64, l.cellsHeld owner + n ≤ (s.chip.ctxs.get ⟨owner, h⟩).cellLimit
    (s.chip.ownerValid owner = true → s.chip.lawful engine requester none = true →
      (let l1 := Ladle.noteLow { l with
        freeCells := minus l.freeCells cells
        chains := { cells := cells, owner := owner, holders := holders } :: l.chains }
      roomy → inQuota → (requester = owner ∨ l.sharesUsed < 1008) → s.Unlisted l1 →
        exec (.allocCells engine requester owner n critical) s = .next { s with
          chip.ladle := l1, chip.ladleAnswer := .done (256 * cells.headD 0) }) ∧
      (∀ j rest, l.freeBlocks = j :: rest → 4 ≤ rest.length → j < 64 → l.linked j = true → s.Plain (4096 * j) → s.Canonical →
        (∀ h : owner < 64, l.blocksHeld owner + 1 ≤ (s.chip.ctxs.get ⟨owner, h⟩).blockLimit) →
        let l1 := Ladle.noteLow { l with
          freeBlocks := rest
          blocks := l.blocks.setIfInBounds j { state := .held, owner := owner, holders := holders } }
        s.Unlisted l1 →
        ∃ mem, s.putsUnder l1 mem (BitVec.ofNat 18 (4096 * j)) (s.chip.wordSyms (BitVec.ofNat 18 (4096 * j))) ∧
          exec (.allocBlock engine requester owner critical) s = .next { s with
            chip.ladle := l1, chip.sram.mem := mem, chip.ladleAnswer := .done (65536 * j) })) ∧
    (∀ (address : Nat) (k : Chain), s.chip.nameUnit address true false = (s.chip, .inl (.chain k)) → k.owner = owner →
      k.holders = [owner] → s.chip.ownerValid owner = true → s.chip.lawful engine owner (some address) = true → roomy → inQuota →
      let l1 := Ladle.noteLow { l with
        freeCells := minus l.freeCells cells
        chains := l.chains.map (fun x => if x.cells = k.cells then { x with cells := k.cells ++ cells } else x) }
      s.Unlisted l1 →
      exec (.extend engine owner address n critical) s = .next { s with chip.ladle := l1, chip.ladleAnswer := .done address }) ∧
    (s.chip.lawful engine requester none = false → s.chip.power.valid = true →
      let refused := fun (op : Nat) => ({ s with
        chip.ladle.notHolder := l.notHolder + 1
        chip.ladleAnswer := .notHolder
        chip.log := s.logged 2 0x02 5 0 0xFF 0 (BitVec.ofNat 32 (256 * requester + 65536 * op)) 0 } : State)
      exec (.allocCells engine requester owner n critical) s = .next (refused 1) ∧
      exec (.allocBlock engine requester owner critical) s = .next (refused 3))

/-- HAND and the three effects of RELEASE (R238) on a chain whose header checks, and NOT_HOLDER (R227, R236). -/
def Obligations.LadleHandsAndReleases : Prop :=
  ∀ (s : State) (engine requester address holder : Nat) (critical : Bool) (k : Chain), s.chip.power.core = true →
    s.chip.ladle.built = true →
    let l := s.chip.ladle
    let with_ := fun (owner : Nat) (holders : List Nat) => ({ l with
      chains := l.chains.map (fun x => if x.cells = k.cells then { x with owner := owner, holders := holders } else x) } : Ladle)
    let lawful := s.chip.lawful engine requester (some address) = true
    let named := fun release : Bool => s.chip.nameUnit address false release = (s.chip, .inl (.chain k))
    (named false → lawful → requester ∈ k.holders → k.holders.length < 4 → holder ∉ k.holders → s.chip.ownerValid holder = true →
      (k.holders.length ≠ 1 ∨ l.sharesUsed < 1008) → s.Unlisted (with_ k.owner (k.holders ++ [holder])) →
      exec (.hand engine requester address holder critical) s = .next { s with
        chip.ladle := with_ k.owner (k.holders ++ [holder]), chip.ladleAnswer := .done address }) ∧
    (named true → lawful → k.holders = [requester] → l.leaving = none →
      (∀ i ∈ k.cells, cellRetired s.chip.retireList i = false) → s.chip.domains.sramPend = 0 →
      let l1 := { l with chains := l.chains.filter (fun x => x.cells != k.cells), freeCells := k.cells.reverse ++ l.freeCells }
      s.Unlisted l1 →
      exec (.release engine requester address) s = .next { s with chip.ladle := l1, chip.ladleAnswer := .done address }) ∧
    (∀ newest, named true → lawful → requester ∈ k.holders →
      (k.holders.filter (fun h => h ≠ requester)).getLast? = some newest →
      let l1 := with_ (if k.owner = requester then newest else k.owner) (k.holders.filter (fun h => h ≠ requester))
      s.Unlisted l1 →
      exec (.release engine requester address) s = .next { s with chip.ladle := l1, chip.ladleAnswer := .done address }) ∧
    (s.chip.power.valid = true → (¬ lawful ∨ requester ∉ k.holders) →
      let refused := fun (op : Nat) => ({ s with
        chip.ladle.notHolder := l.notHolder + 1
        chip.ladleAnswer := .notHolder
        chip.log := s.logged 2 0x02 5 0 0xFF (BitVec.ofNat 32 address) (BitVec.ofNat 32 (256 * requester + 65536 * op)) 0 } : State)
      (named true → exec (.release engine requester address) s = .next (refused 5)) ∧
      (named false → exec (.hand engine requester address holder critical) s = .next (refused 4)))

/-- The free lists (R233), waiting requests (R234), partition moves (R242) and LADLE_CTRL.clear_low (R246). -/
def Obligations.LadlePools : Prop :=
  ∀ s : State,
    let l := s.chip.ladle
    (∀ n : Nat, s.chip.power.core = true → s.chip.sram.initDone = true → l.built = false → s.chip.passQ.active.cellBanks.toNat = n →
      1 ≤ n → n ≤ 16 → (∀ e ∈ s.chip.retireList, e.kind = 0) → s.chip.sram.mem = [] → s.chip.domains.sramPend = 0 →
      ∃ built : Ladle,
        exec .freeListBuild s = .next { s with chip.ladle := built, chip.ladleAnswer := .done 1024 } ∧
        built.built = true ∧ built.cellBanks = n ∧ built.headBanks = n ∧ built.freeCells = (List.range (1024 * n)).drop 5 ∧
        built.chains = [4, 3, 2, 1, 0].map (fun i => { cells := [i], owner := 64, holders := [64] }) ∧
        built.freeBlocks = (List.range 64).drop (4 * n) ∧ built.retired = [] ∧ built.leaving = none ∧ built.reserved = 0 ∧
        ∀ j : Fin 64, (built.blocks.get j).state = if j.val < 4 * n then .outside else .free) ∧
    (∀ owner rest j blocks, l.waiting = { requester := owner, owner := owner, n := 0, address := none } :: rest →
      s.chip.ownerValid owner = true → 64 ≤ owner → l.built = true → l.freeBlocks = j :: blocks → 4 ≤ blocks.length →
      j < 64 → l.linked j = true → s.Plain (4096 * j) → s.Canonical →
      let l1 := Ladle.noteLow { l with
        waiting := rest
        freeBlocks := blocks
        blocks := l.blocks.setIfInBounds j { state := .held, owner := owner, holders := [owner] } }
      s.Unlisted l1 →
      ∃ mem, s.putsUnder l1 mem (BitVec.ofNat 18 (4096 * j)) (s.chip.wordSyms (BitVec.ofNat 18 (4096 * j))) ∧
        exec .drainCriticalGrant s = .next { s with
          chip.ladle := l1, chip.sram.mem := mem, chip.ladleAnswer := .done (65536 * j) }) ∧
    (∀ b, l.built = true → l.leaving = some b → l.bankIdle b = true → b < l.cellBanks → b < 16 →
      s.chip.passQ.active.cellBanks.toNat = b → (∀ e ∈ s.chip.retireList, e.kind = 0) →
      let l1 := { l with
        leaving := none
        cellBanks := b
        retired := l.retired.filter (fun i => i / 1024 != b)
        freeBlocks := [4 * b, 4 * b + 1, 4 * b + 2, 4 * b + 3] ++ l.freeBlocks
        blocks := Vector.ofFn fun j : Fin 64 =>
          if j.val / 4 = b then { state := .free, owner := 127, holders := [] } else l.blocks.get j }
      s.Unlisted l1 → (∀ j < 64, l.marked j = true → l1.marked j = true) →
      exec .bankJoin s = .next { s with chip.ladle := l1 }) ∧
    (s.Reached → exec .ladleClearLow s = .next { s with
      chip.ladle.lowCells := BitVec.ofNat 15 l.cellsFree
      chip.ladle.lowBlocks := BitVec.ofNat 7 l.blocksFree })

/-- LADLE_QCOMMIT (R243): all readers take one generation (R27), the ports at their next boundary (R86). -/
def Obligations.PassQCommits : Prop :=
  ∀ s : State, s.Reached → s.chip.power.valid = true →
    let q := s.chip.passQ
    exec .qcommitRevert s = .next { s with chip.passQ.staged := q.active } ∧
    ((1 ≤ q.staged.cellBanks.toNat ∧ q.staged.cellBanks.toNat ≤ 16) →
      ∃ t, exec .qcommitCommit s = .next t ∧
        t.chip.passQ = { staged := q.staged, active := q.staged, gen := q.gen + 1, refused := false } ∧
        (∀ i : Ctx, (t.chip.ctxs.get i).cellQuota = q.staged.cellQuota.get i ∧
          (t.chip.ctxs.get i).blockQuota = q.staged.blockQuota.get i ∧
          (t.chip.ctxs.get i).cmd = (s.chip.ctxs.get i).cmd ∧ (t.chip.ctxs.get i).rpl = (s.chip.ctxs.get i).rpl ∧
          (t.chip.ctxs.get i).state = (s.chip.ctxs.get i).state) ∧
        (∀ p : EPort, t.chip.ehran.get p = { s.chip.ehran.get p with cfgPending := true }) ∧
        t.chip.spi = { s.chip.spi with cfgPending := true } ∧
        t.chip.decks = s.chip.decks ∧ t.chip.timebase = s.chip.timebase ∧
        t.chip.kettle = s.chip.kettle ∧ t.chip.funnel = s.chip.funnel ∧ t.chip.openQ = s.chip.openQ ∧ t.pending = s.pending) ∧
    (¬ (1 ≤ q.staged.cellBanks.toNat ∧ q.staged.cellBanks.toNat ≤ 16) →
      exec .qcommitCommit s = .next { s with
        chip.passQ.refused := true
        chip.log := s.logged 2 0x17 153 0 0xFF (q.gen.setWidth 32) 0 0 })

/-- Demand accesses at F-BANK under a grant (R252, R271, R276–R278, R285): result, counters, log, and the frame over every byte of
memory. -/
def Obligations.WordAccesses : Prop :=
  ∀ (s : State) (i : Fin 12) (w : BitVec 18), s.Canonical → s.chip.mayAccess i w = true → s.Uncached w →
    (∀ b ∈ ownBuffers i.val, ∀ e ∈ s.chip.merge.get b, e.word ≠ w) →
    let m := s.chip.sram
    let used := s.unitUsed (bankSite w)
    (∀ data : List Byte, data.length = 16 →
      ∃ mem, s.puts mem w (sramEncode w data) ∧
        exec (.wordWrite i w data) s = .next { s with chip.funnel.sites := used, chip.sram.mem := mem }) ∧
    (∀ (mask : W16) (data err : List Byte), mask ≠ 0xFFFF → (s.chip.decodeWord w err).result = .clean →
      ∃ mem, s.puts mem w (sramEncode w ((List.range 16).map (fun j =>
          if mask.getLsbD j then byteAt data j else byteAt (s.chip.decodeWord w err).data j))) ∧
        exec (.readModifyWrite i w mask data err) s = .next { s with chip.funnel.sites := used, chip.sram.mem := mem }) ∧
    (∀ err : List Byte,
      let r := s.chip.decodeWord w err
      let last : W32 := BitVec.ofNat 32 (w.toNat + 262144 * r.position + 8388608 * r.result.kind + 67108864 * i.val)
      (r.result = .clean → exec (.wordRead i w err) s = .next { s with
        chip.funnel.sites := used, chip.readOut := 0 :: r.data }) ∧
      (∀ p, r.result = .corrected → r.pos = some p →
        exec (.wordRead i w err) s = .next { s with
          chip.funnel.sites := used
          chip.readOut := 0 :: r.data
          chip.sram.corr := m.corr + 1
          chip.sram.macros := m.macros.setIfInBounds p ((m.macros[p]?).getD 0 + 1)
          chip.sram.lastErr := last }) ∧
      (r.result = .uncorrectable → s.chip.power.valid = true →
        ∃ mem, s.puts mem w (sramEncodePoison w r.data) ∧
          exec (.wordRead i w err) s = .next { s with
            chip.funnel.sites := used
            chip.readOut := 1 :: r.data
            chip.sram.mem := mem
            chip.sram.uncorr := m.uncorr + 1
            chip.sram.banks := m.banks.set (wordBank w) (m.banks.get (wordBank w) + 1)
            chip.sram.lastErr := last
            chip.log := s.logged 2 0x11 6 0 0xFF (w.setWidth 32)
              (BitVec.ofNat 32 (r.position + 256 * i.val + 4096 * (wordBank w).val)) 0 }))

/-- Merge buffers (R282, R283) and the Cook cache with its write-back buffer (R286, R287). -/
def Obligations.MergeBuffersAndCache : Prop :=
  ∀ s : State, s.Canonical →
    (∀ (b : Fin 9) (ctx : Option Ctx) (w : BitVec 18) (mask : W16) (data : List Byte) (damage : Damage), s.chip.mergeOn b = true →
      mask ≠ 0 → s.chip.bankServes w = true →
      (∀ e ∈ (s.chip.merge.get b).head?, s.chip.bankServes e.word = true) → (∀ e ∈ s.chip.merge.get b, e.mask ≠ 0xFFFF) →
      let es := s.chip.merge.get b
      let fresh := (List.range 16).map (fun j => if mask.getLsbD j then byteAt data j else 0)
      (mask ≠ 0xFFFF → (∀ e ∈ es, e.word ≠ w) → es.length < 16 →
        exec (.mergeWrite b ctx w mask data damage) s = .next { s with
          chip.merge := s.chip.merge.set b (es ++ [{ word := w, data := fresh, mask := mask, ctx := ctx }]) }) ∧
      (∀ old, old.word = w → old.mask ||| mask ≠ 0xFFFF → ∀ front back, es = front ++ old :: back →
        (∀ e ∈ front, e.word ≠ w) → (∀ e ∈ back, e.word ≠ w) →
        exec (.mergeWrite b ctx w mask data damage) s = .next { s with
          chip.merge := s.chip.merge.set b (front ++
            { old with
              data := (List.range 16).map (fun j => if mask.getLsbD j then byteAt data j else byteAt old.data j)
              mask := old.mask ||| mask } :: back) }) ∧
      (mask = 0xFFFF → (∀ e ∈ es, e.word ≠ w) → es.length < 16 → s.Uncached w →
        ∃ mem, s.puts mem w (sramEncode w fresh) ∧
          exec (.mergeWrite b ctx w mask data damage) s = .next { s with chip.sram.mem := mem })) ∧
    (∀ (w : BitVec 18) (mask : W16) (data : List Byte) (damage : Damage) (front back : List CacheLine) (line : CacheLine),
      s.chip.domOn 10 = true → (∀ l ∈ s.chip.cache.wb.head?, s.chip.servesLine l = true) →
      s.chip.cache.sets.get (setOf (lineOf w)) = front ++ line :: back → line.line = lineOf w →
      (∀ l ∈ front ++ back, l.line ≠ lineOf w) → (front ++ back).length < 4 →
      exec (.cookStore w mask data damage) s = .next { s with
        chip.cache.sets := s.chip.cache.sets.set (setOf (lineOf w)) (line.store w mask data :: (front ++ back)) }) ∧
    (∀ l ls, s.chip.cache.wb = l :: ls → s.chip.servesLine l = true →
      let w0 : BitVec 18 := BitVec.ofNat 18 (2 * l.line.toNat)
      let w1 : BitVec 18 := BitVec.ofNat 18 (2 * l.line.toNat + 1)
      let word := fun (w : BitVec 18) (x : CacheWord) => if x.poison then sramEncodePoison w x.data else sramEncode w x.data
      l.lo.data.length = 16 → l.hi.data.length = 16 →
      ∃ mem, exec .writebackAck s = .next { s with chip.cache.wb := ls, chip.sram.mem := mem } ∧
        ({ s.chip with sram.mem := mem } : Chip).wordSyms w0 = word w0 l.lo ∧
        ({ s.chip with sram.mem := mem } : Chip).wordSyms w1 = word w1 l.hi ∧
        ∀ a, (a / 64 ≠ l.line.toNat ∨ 19 ≤ a % 32) → memGet mem a = memGet s.chip.sram.mem a)

/-- Colander (R289–R292) and clear_counts (R296). -/
def Obligations.ColanderCommands : Prop :=
  ∀ s : State, s.Canonical →
    let m := s.chip.sram
    let begun : Sram → Sram := fun m => { m with
      scrubbing := true, pos := 0, passHits := Vector.replicate 19 0, suspected := [], passLate := false }
    (s.chip.domOn 4 = true → m.initDone = false →
      exec .scrubInitPass s = .next { s with chip.sram.mem := [], chip.sram.initDone := true }) ∧
    (s.chip.domOn 4 = true → m.initDone = true →
      (m.scrubbing = false → m.scrubEn = true → exec .scrubPassStart s = .next { s with chip.sram := begun m }) ∧
      (m.scrubbing = true → m.passLate = false →
        exec .scrubPassStart s = .next { s with chip.sram.late := m.late + 1, chip.sram.passLate := true }) ∧
      (s.Reached →
        exec .scrubNow s = .next { s with chip.sram := begun m } ∧
        (m.scrubEn = false → exec (.scrubEnable true) s = .next { s with chip.sram := { begun m with scrubEn := true } }))) ∧
    (∀ (n : Nat) (err : List Byte), s.chip.domOn 4 = true → m.scrubbing = true → s.chip.scrubFrom m.pos.toNat = some n →
      n + 1 < 262144 →
      let w : BitVec 18 := BitVec.ofNat 18 n
      s.chip.mayAccess 0 w = true → s.Uncached w →
      let r := s.chip.decodeWord w err
      let used := s.unitUsed (bankSite w)
      (r.result = .clean → exec (.scrubRead err) s = .next { s with
        chip.funnel.sites := used, chip.sram.pos := BitVec.ofNat 18 (n + 1) }) ∧
      (∀ p, r.result = .corrected → r.pos = some p → ((m.passHits[p]?).getD 0) + 1 < m.threshold.toNat →
        ∃ mem, s.puts mem w (sramEncode w r.data) ∧
          exec (.scrubRead err) s = .next { s with
            chip.funnel.sites := used
            chip.sram.pos := BitVec.ofNat 18 (n + 1)
            chip.sram.mem := mem
            chip.sram.corr := m.corr + 1
            chip.sram.fixed := m.fixed + 1
            chip.sram.macros := m.macros.setIfInBounds p ((m.macros[p]?).getD 0 + 1)
            chip.sram.passHits := m.passHits.setIfInBounds p (((m.passHits[p]?).getD 0) + 1)
            chip.sram.lastErr := BitVec.ofNat 32 (w.toNat + 262144 * p + 8388608) })) ∧
    (s.Reached →
      exec (.scrubEnable false) s = .next { s with
        chip.sram.scrubEn := false, chip.sram.scrubbing := false, chip.sram.passLate := false } ∧
      exec .sramClearCounts s = .next { s with
        chip.sram.passes := 0, chip.sram.late := 0, chip.sram.corr := 0, chip.sram.uncorr := 0, chip.sram.addr := 0
        chip.sram.poison := 0, chip.sram.fixed := 0, chip.sram.macros := Vector.replicate 19 0
        chip.sram.banks := Vector.replicate 16 0 })

/-- R51 whole: TB_TIME_LO latches, TB_TIME_HI returns the latch, one read of both is coherent, and TIME_READ reads the time. -/
def Obligations.TimeReadsAreCoherent : Prop :=
  ∀ s : State,
    (s.Reached → s.chip.i2c.pecOn = false → s.chip.i2c.pecEn = false →
      exec (.i2cRead s.chip.i2c.addr [[0x04, 0x04]] 8) s = .next { s with
        chip.timebase.timeLatch := s.chip.now.extractLsb' 32 32
        chip.i2c.ptr := 0x040C
        chip.i2c.acked := true
        chip.i2c.out := leBytes 8 s.chip.now.toNat
        chip.i2c.xact := s.chip.i2c.xact + 1 } ∧
      exec (.i2cRead s.chip.i2c.addr [[0x08, 0x04]] 4) s = .next { s with
        chip.i2c.ptr := 0x040C
        chip.i2c.acked := true
        chip.i2c.out := leBytes 4 s.chip.timebase.timeLatch.toNat
        chip.i2c.xact := s.chip.i2c.xact + 1 }) ∧
    (∀ h rest, s.Heads .timeRead h [] rest → (s.chip.ctxs.get h.ctx).executing = [] →
      exec (.timeRead h []) s = .next (s.answered h rest Stat.done
        (leBytes 8 s.chip.now.toNat ++
          [BitVec.ofNat 8 (bit s.chip.freeRunning + 2 * bit s.chip.timebase.ref20),
           BitVec.ofNat 8 s.chip.timebase.refState.code, 0, 0, 0, 0, 0, 0])))

/-- The I2C port's transactions (R106, R109–R113) on KETTLE_LIMITS at 0x0104, and one to an address that is not the port's. -/
def Obligations.I2cTransactions : Prop :=
  ∀ s : State, s.Reached → s.chip.i2c.pecOn = s.chip.i2c.pecEn →
    let i := s.chip.i2c
    let a := i.addr
    let limits : List Byte := [s.chip.kettle.vminCode.setWidth 8, s.chip.kettle.vmaxCode.setWidth 8, 0, 0]
    let aw : Byte := a ++ 0#1
    let ar : Byte := a ++ 1#1
    (i.pecOn = false →
      (∀ b0 b1 b2 b3 : Byte, exec (.i2cWrite a [[0x04, 0x01, b0, b1, b2, b3]]) s = .next { s with
        chip.kettle.vminCode := b0.setWidth 7
        chip.kettle.vmaxCode := b1.setWidth 7
        chip.i2c.ptr := 0x0108
        chip.i2c.acked := true
        chip.i2c.xact := i.xact + 1 }) ∧
      exec (.i2cRead a [[0x04, 0x01]] 4) s = .next { s with
        chip.i2c.ptr := 0x0108, chip.i2c.acked := true, chip.i2c.out := limits, chip.i2c.xact := i.xact + 1 } ∧
      exec (.i2cTimeout a [[0x04, 0x01]] none) s = .next { s with
        chip.i2c.ptr := 0x0104, chip.i2c.acked := true, chip.i2c.timeout := i.timeout + 1 }) ∧
    (i.pecOn = true →
      (∀ b0 b1 b2 b3 pec : Byte,
        (pec = crc8 [aw, 0x04, 0x01, b0, b1, b2, b3] →
          exec (.i2cPecWrite a [[0x04, 0x01, b0, b1, b2, b3, pec]]) s = .next { s with
            chip.kettle.vminCode := b0.setWidth 7
            chip.kettle.vmaxCode := b1.setWidth 7
            chip.i2c.ptr := 0x0108
            chip.i2c.acked := true
            chip.i2c.pecErr := false
            chip.i2c.xact := i.xact + 1 }) ∧
        (pec ≠ crc8 [aw, 0x04, 0x01, b0, b1, b2, b3] →
          exec (.i2cPecWrite a [[0x04, 0x01, b0, b1, b2, b3, pec]]) s = .next { s with
            chip.i2c.ptr := 0x0104
            chip.i2c.acked := true
            chip.i2c.pecErr := true
            chip.i2c.pec := i.pec + 1
            chip.i2c.xact := i.xact + 1 })) ∧
      exec (.i2cPecRead a [[0x04, 0x01, 0x01]] 5) s = .next { s with
        chip.i2c.ptr := 0x0108
        chip.i2c.acked := true
        chip.i2c.out := limits ++ [crc8 ([aw, 0x04, 0x01, 0x01, ar] ++ limits)]
        chip.i2c.xact := i.xact + 1 }) ∧
    (∀ (b : BitVec 7) (parts : List (List Byte)) (n : Nat), b ≠ a →
      exec (.i2cWrite b parts) s = .next { s with chip.i2c.acked := false, chip.i2c.out := [] } ∧
      exec (.i2cRead b parts n) s = .next { s with chip.i2c.acked := false, chip.i2c.out := List.replicate n 0xFF })

/-- Port S (R96–R103): `moved` packets have left the receive buffer before the transaction, whose room is taken at the fall of S_CS#. -/
def Obligations.PortSTransactions : Prop :=
  ∀ s : State, s.chip.spi.cs = none →
    let v := s.chip.spi
    let room := fun moved : Nat => decide (v.rxHeld - moved < 2)
    let door := fun moved : Nat => BitVec.ofNat 8 (0x0B + 128 * bit (room moved) +
      64 * bit (!v.out.wire.isEmpty || !v.out.staged.isEmpty) + 32 * bit s.chip.phase.isSome)
    let after := fun (v1 : SpiPort) (moved : Nat) (next : Bool) => Host.Outcome.next (φ := Fault) (ρ := Refusal) { s with
      chip.spi := { v1 with rxHeld := v.rxHeld - moved, door := door moved, cs := if next then some (room moved) else none } }
    (s.chip.spiOn = true →
      (∀ next,
        exec (.doorPeek next) s = after v 0 next ∧
        (∀ moved odd, exec (.spiPacketIn moved [] odd next) s = after v moved next) ∧
        exec (.spiFragment next) s = after { v with cnt := v.cnt.set 2 (v.cnt.get 2 + 1), lastViol := 3 } 0 next ∧
        (∀ b : Byte, b ≠ 0x5A → b ≠ 0xA5 →
          exec (.spiBadFraming b next) s = after { v with cnt := v.cnt.set 3 (v.cnt.get 3 + 1), lastViol := 4 } 0 next)) ∧
      (∀ r rest shifted moved, v.out.wire = [] → v.out.staged = r :: rest → v.out.cur = none →
        let bytes := replyBytes r (s.chip.nibbleFor r.ctx)
        bytes.length ≤ shifted →
        exec (.spiPacketOut moved shifted false) s = after { v with
          xactOut := v.xactOut + 1
          out := { wire := [], staged := rest, cur := none, last := bytes ++ List.replicate (shifted - bytes.length) 0 } } moved false)) ∧
    (s.chip.power.core = true → v.cfgPending = true → s.chip.kettle.raising = [] →
      let g := s.chip.passQ.active.ports.get 4
      let r := g.rate (if g.wide then 25 else 7)
      r.toNat ≤ (s.chip.kettle.ports.get 4).toNat →
      exec .spiConfigAdopt s = .next { s with
        chip.spi := { v with enabled := g.enable, quad := g.wide, cfgPending := false }
        chip.kettle.ports := s.chip.kettle.ports.set 4 r })

/-- The violations of Table 3-7 at a strobe that finds En_FRM low or opens a packet, the paced strobe, and the pins' changes (R67, R71,
R74, R82, R83, R85), with the edges of the cycle on the wire (R69). That EHR_LAST_VIOL keeps the row's kind is the model's choice (log
entry 77). -/
def Obligations.EhranPinEvents : Prop :=
  ∀ (s : State) (p : EPort) (w : W16),
    let e := s.chip.ehran.get p
    let port := fun e1 : EhranPort => Host.Outcome.next (φ := Fault) (ρ := Refusal) { s with chip.ehran := s.chip.ehran.set p e1 }
    let low : EhranPort := { e with frm := false, armed := true }
    let strayed : EhranPort := { low with
      xferIn := e.xferIn + 1, stray := e.stray + 1, lastViol := 3, wave := cycleSteps false false false w }
    let opened : EhranPort := { e with
      xferIn := e.xferIn + 1, rxOpen := true, armed := false, frm := true, rx := [w.extractLsb' 0 8, w.extractLsb' 8 8], rxLong := false,
      wave := cycleSteps true true true w }
    (s.Selected p → e.rxOpen = false → e.dir = false →
      exec (.strayTransfer p false w) s = port strayed ∧
      (e.armed = false → exec (.strayTransfer p true w) s = port { e with
        frm := true, xferIn := e.xferIn + 1, stray := e.stray + 1, lastViol := 3, wave := cycleSteps true true true w }) ∧
      exec (.earlyRelease p false w false) s = port { low with early := e.early + 1, lastViol := 4, wave := abandonedSteps false w } ∧
      exec (.earlyRelease p false w true) s = port { strayed with
        early := e.early + 1, lastViol := 4, wave := earlySteps false false false w } ∧
      exec (.directionGlitch p false w) s = port { strayed with dirGlitch := e.dirGlitch + 1, lastViol := 5, dir := true, dirPin := true } ∧
      exec (.selectGlitch p false w) s = port { strayed with selGlitch := e.selGlitch + 1, lastViol := 6, sel := false } ∧
      exec (.turnaround p true) s = port { low with dir := true, dirPin := true } ∧
      (e.armed = true → e.width16 = true →
        (e.rxHeld < 2 → exec (.earlyRelease p true w true) s = port { opened with
          early := e.early + 1, lastViol := 4, wave := earlySteps true true true w }) ∧
        (2 ≤ e.rxHeld → exec (.paceRelease p w) s = port { opened with rxHeld := e.rxHeld - 1, pace := e.pace + 1, lastViol := 7 })) ∧
      (∀ run : WriteRun, exec (.portDeselect p run) s = port { run.words.foldl EhranPort.writeHigh { e with rxHeld := e.rxHeld - run.moved } with
        wave := run.words.flatMap (cycleSteps true true true), sel := false })) ∧
    (s.Selected p → e.dir = true → exec (.turnaround p false) s = port { e with dir := false, dirPin := false }) ∧
    (s.chip.ehranOn p = true → e.rxOpen = false →
      ∀ frm toHost, exec (.portReselect p frm toHost) s = port { e with
        sel := true, dir := toHost, dirPin := toHost, frm := frm && !toHost, armed := e.armed || toHost || !frm })

/-- Staging (R80, R148, R278), reply reads with En_FRM on the wire (R76, R77, R79–R81), and port settings (R86, R87). Where En_FRM changes within a
reply's first and last cycle is the model's reading (log entry 76). -/
def Obligations.RepliesAndPortSettings : Prop :=
  ∀ s : State,
    (∀ (p : Port) (i : Ctx) (r : Reply) (rest : List Reply) (slots : List Nat) (damage : Damage),
      s.chip.portsUp p = true → s.chip.portEnabled p = true →
      (s.chip.replyOut p).staged.length < 2 → s.chip.nextStaged p = some i → (s.chip.ctxs.get i).oldest = some (0, r) →
      (s.chip.ctxs.get i).rpl = r :: rest → r.fetch = none →
      let entry := (slots.take 1).flatMap (s.chip.placeWords i 1)
      let seen := s.chip.readEntry 1 damage entry
      (entry.all s.chip.bankServes = false → exec (.replyStage p slots damage) s = .next s) ∧
      (entry.all s.chip.bankServes = true → seen.2 = false →
        ∃ t, exec (.replyStage p slots damage) s = .next t ∧
          t = { s with chip := { seen.1 with
            ctxs := s.chip.ctxs.set i { s.chip.ctxs.get i with rpl := rest }
            rotor := s.chip.rotor.set p i.val
            ehran := t.chip.ehran
            spi := t.chip.spi } } ∧
          t.chip.replyOut p = { s.chip.replyOut p with staged := (s.chip.replyOut p).staged ++ [r] } ∧
          ∀ q, q ≠ p → t.chip.replyOut q = s.chip.replyOut q) ∧
      (entry.all s.chip.bankServes = true → seen.2 = true →
        exec (.replyStage p slots damage) s = .next { s with chip := { seen.1 with
          ctxs := s.chip.ctxs.set i { s.chip.ctxs.get i with rpl := { r with stat := 0xC02, payload := [], time := s.chip.now } :: rest } } })) ∧
    (∀ (p : EPort) (r : Reply) (rest : List Reply) (n : Nat), s.Selected p →
      let e := s.chip.ehran.get p
      let bytes := replyBytes r (s.chip.nibbleFor r.ctx)
      let transfers := if e.width16 then (bytes.length + 1) / 2 else bytes.length
      e.dir = true → e.out.wire = [] → e.out.staged = r :: rest → e.out.cur = none → transfers ≤ n →
      ∃ wave : List BusStep, wave.map (·.frm) = false :: List.replicate (4 * transfers - 2) true ++ [false] ∧
        exec (.ehranReplyRead p n) s = .next { s with chip.ehran := s.chip.ehran.set p { e with
          wave := wave
          xferOut := e.xferOut + BitVec.ofNat 32 transfers
          pktOut := e.pktOut + 1
          out := { wire := [], staged := rest, cur := none
                   last := bytes ++ (if e.width16 ∧ bytes.length % 2 = 1 then [0] else []) } } }) ∧
    (∀ p : EPort, s.chip.power.core = true → (s.chip.ehran.get p).rxOpen = false → s.chip.kettle.raising = [] →
      let e := s.chip.ehran.get p
      let g := s.chip.passQ.active.ports.get p.castSucc
      let r := g.rate (if g.wide then 50 else 25)
      let turned := e.dirPin && !e.dir
      (g.enable = true → e.cfgPending = true → e.out.cur = none → r.toNat ≤ (s.chip.kettle.ports.get p.castSucc).toNat →
        (e.enabled = true →
          exec (.portConfigAdopt p) s = .next { s with
            chip.ehran := s.chip.ehran.set p { e with width16 := g.wide, cfgPending := false }
            chip.kettle.ports := s.chip.kettle.ports.set p.castSucc r }) ∧
        (e.enabled = false → s.chip.portsUp p.castSucc = true →
          exec (.portConfigAdopt p) s = .next { s with
            chip.ehran := s.chip.ehran.set p { e with
              enabled := true, width16 := g.wide, cfgPending := false
              dir := e.dirPin, frm := e.frm && !turned, armed := e.armed || !e.frm || turned }
            chip.kettle.ports := s.chip.kettle.ports.set p.castSucc r })) ∧
      (∀ moved, g.enable = false → e.enabled = true →
        exec (.portDisable p ⟨moved, []⟩) s = .next { s with
          chip.ehran := s.chip.ehran.set p { e with
            enabled := false, cfgPending := decide (e.width16 ≠ g.wide), rxHeld := e.rxHeld - moved
            wave := if s.chip.selected p && !e.dir then [] else e.wave }
          chip.kettle.ports := s.chip.kettle.ports.set p.castSucc 0 }))

/-- Table 5-4 passed: the command is admitted (R127), from an Ehran port (R74, R75, R77) and from port S (R97). -/
def Obligations.PacketsAreAdmitted : Prop :=
  ∀ (s : State) (c : Cmd), (s.chip.ctxs.get c.ctx).isOpen = true → c.op ≠ .ctxReset →
    let admitted := fun p : Port => ({ s with
      chip.ctxs := s.chip.ctxs.set c.ctx { s.chip.ctxs.get c.ctx with
        cmd := (s.chip.ctxs.get c.ctx).cmd ++ [c], cmdAt := (s.chip.ctxs.get c.ctx).cmdAt ++ [s.chip.now] }
      chip.sieve := s.chip.sieve.set p { s.chip.sieve.get p with admitted := (s.chip.sieve.get p).admitted + 1 } } : State)
    (∀ (p : EPort) (words : List W16) (how : PacketEnd), s.Selected p →
      let e := s.chip.ehran.get p
      let bytes := words.flatMap e.bytesOf
      e.dir = false → e.rxOpen = false → e.armed = true → e.rxHeld < 2 → e.rx = [] → e.rxLong = false →
      s.chip.merge.get (Fin.castLE (by omega) p) = [] →
      8 ≤ bytes.length → hdrLength bytes ≤ 4096 → bytes.length = e.wireLength (packetExpected bytes) →
      s.chip.check p.castSucc (bytes.take (packetExpected bytes)) = .inr c →
      exec (.ehranPacketEnd p ⟨0, words⟩ how) s = .next { admitted p.castSucc with
        chip.ehran := s.chip.ehran.set p { e with
          xferIn := e.xferIn + BitVec.ofNat 32 words.length
          pktIn := e.pktIn + 1
          rxHeld := e.rxHeld + 1
          wave := words.flatMap (cycleSteps true true true)
          frm := false
          dir := decide (how = .direction)
          dirPin := e.dirPin || decide (how = .direction) } }) ∧
    (∀ bytes : List Byte, s.chip.spiOn = true → s.chip.spi.cs = none → s.chip.spi.rxHeld < 2 → s.chip.merge.get 4 = [] →
      8 ≤ bytes.length → hdrLength bytes ≤ 4096 → bytes.length = packetExpected bytes → s.chip.check 4 bytes = .inr c →
      exec (.spiPacketIn 0 bytes false false) s = .next { admitted 4 with
        chip.spi.door := s.chip.doorByte true
        chip.spi.rxHeld := s.chip.spi.rxHeld + 1
        chip.spi.xactIn := s.chip.spi.xactIn + 1 })

/-- The session opcodes that read or configure a context (R143, R161, R162, R183, R184, Table 7-4). -/
def Obligations.SessionQueries : Prop :=
  ∀ (s : State) (h : CmdHdr) (rest : List Cmd), (s.chip.ctxs.get h.ctx).executing = [] →
    let x := s.chip.ctxs.get h.ctx
    let l := s.chip.ladle
    let done := fun y : Context => s.chip.ctxs.set h.ctx { y with cmd := rest, cmdAt := x.cmdAt.tail }
    (s.Heads .statusPeek h [] rest →
      exec (.statusPeek h []) s = .next (s.answered h rest Stat.done
        ([BitVec.ofNat 8 x.port.val, BitVec.ofNat 8 (s.chip.deckMask h.ctx)] ++ leBytes 2 rest.length ++ leBytes 2 x.rpl.length
          ++ leBytes 2 x.evt.recs.length ++ leBytes 2 x.evt.lost.toNat ++ [x.nibble.setWidth 8, 0, 0, 0, 0, 0]))) ∧
    (s.Heads .quotaQuery h [] rest →
      exec (.quotaQuery h []) s = .next (s.answered h rest Stat.done
        (leBytes 2 (min x.cellQuota.toNat 16384) ++ leBytes 2 (l.cellsHeld h.ctx.val) ++ leBytes 2 (min x.blockQuota.toNat 64)
          ++ leBytes 2 (l.blocksHeld h.ctx.val) ++ leBytes 2 (l.cellsFree - 256) ++ leBytes 2 (l.blocksFree - 4) ++ leBytes 4 0))) ∧
    (∀ n : Byte, s.Heads .eventsFetch h [n, 0] rest →
      exec (.eventsFetch h [n, 0]) s = .next { s.took h rest with
        chip.ctxs := done { x with
          rpl := x.rpl ++ [{ s.completion h Stat.done [] with fetch := some (if n = 0 then 255 else n.toNat) }] } }) ∧
    (∀ (k : Nat) (n : W16), let p := [BitVec.ofNat 8 k, 0] ++ leBytes 2 n.toNat
      s.Heads .queueConfig h p rest → k ≤ 10 → 4 ≤ n.toNat → n.toNat ≤ 256 → queueCells n.toNat ≤ queueCells (x.ownDepth k) →
      (s.took h rest).chip.mustFit h.ctx k ≤ n.toNat + x.spareOn k →
      ∃ pool sram log, (queueCells n.toNat = queueCells (x.ownDepth k) → pool = l ∧ sram = s.chip.sram ∧ log = s.chip.log) ∧
        exec (.queueConfig h p) s = .next { s.took h rest with
          chip.ladle := pool
          chip.sram := sram
          chip.log := log
          chip.ctxs := done { x.setDepth k n.toNat with
            rpl := x.rpl ++ [s.completion h Stat.done (leBytes 2 (12 * h.ctx.val + k) ++ leBytes 2 (n.toNat + x.spareOn k))] } }) ∧
    (∀ (k : Fin 11) (n : W16), let p := [BitVec.ofNat 8 k.val, 1] ++ leBytes 2 n.toNat
      s.Heads .queueConfig h p rest → x.spare = none → 4 ≤ n.toNat → n.toNat ≤ 256 → queueCells n.toNat = queueCells x.spareDepth →
      exec (.queueConfig h p) s = .next { s.took h rest with
        chip.ctxs := done { x with
          spare := some k
          spareDepth := n.toNat
          rpl := x.rpl ++ [s.completion h Stat.done (leBytes 2 (12 * h.ctx.val + k.val) ++ leBytes 2 (x.ownDepth k.val + n.toNat))] } }) ∧
    (∀ k : Byte, let p : List Byte := [k, 2, 0, 0]
      let at_ := leBytes 2 (12 * h.ctx.val + k.toNat) ++ leBytes 2 (x.ownDepth k.toNat)
      s.Heads .queueConfig h p rest →
      (∀ j, x.spare = some j → j.val = k.toNat → x.spareDepth ≠ 0 → (s.took h rest).chip.mustFit h.ctx k.toNat ≤ x.ownDepth k.toNat →
        exec (.queueConfig h p) s = .next { s.took h rest with
          chip.ctxs := done { x with spare := none, rpl := x.rpl ++ [s.completion h Stat.done at_] } }) ∧
      (x.spare = none → exec (.queueConfig h p) s = .next (s.answered h rest Stat.already at_)))

/-- The life of a context (Tables 6-1, 6-2, 6-9; R152, R155, R156, R159, R172). -/
def Obligations.ContextsOpenCloseReset : Prop :=
  ∀ (s : State) (h : CmdHdr), s.chip.cookCan = true →
    let x := s.chip.ctxs.get h.ctx
    let l := s.chip.ladle
    let g := s.chip.passQ.active
    let fresh := fun y : Context => y.state = .open ∧ y.cmd = [] ∧ y.cmdAt = [] ∧ y.executing = [] ∧ y.ticket = none ∧ y.evt = .reset ∧ y.heldReset = none ∧
      y.wdata = Vector.replicate 4 [] ∧ y.rdata = Vector.replicate 4 [] ∧ y.cmdDepth = 8 ∧ y.rplDepth = 8 ∧ y.spare = none ∧
      y.cellQuota = g.cellQuota.get h.ctx ∧ y.blockQuota = g.blockQuota.get h.ctx
    (∀ (force : Bool) (p : List Byte), p = [if force then 1 else 0, 0, 0, 0] → x.state = .closed → s.chip.islandOff h.ctx = false →
      s.chip.domOn (islandUnit h.ctx) = true → s.chip.openQ.head? = some (cmdOf .ctxOpen h p) →
      l.built = true → 276 ≤ l.cellsFree → 20 ≤ l.openCells.length → (∀ i ∈ l.openCells.take 20, s.Plain (16 * i)) →
      ∃ t r, exec (.ctxOpen h p) s = .next t ∧ fresh (t.chip.ctxs.get h.ctx) ∧ (t.chip.ctxs.get h.ctx).port = h.port ∧
        (t.chip.ctxs.get h.ctx).rpl = [r] ∧ r.stat = Stat.done ∧ r.tag = h.tag ∧
        r.payload = [BitVec.ofNat 8 h.port.val, 0] ++ leBytes 2 (12 * h.ctx.val) ++ leBytes 2 (g.cellQuota.get h.ctx).toNat
          ++ leBytes 2 (g.blockQuota.get h.ctx).toNat ∧
        t.chip.openQ = s.chip.openQ.tail ∧ ∀ j, j ≠ h.ctx → t.chip.ctxs.get j = s.chip.ctxs.get j) ∧
    (s.Heads .ctxClose h [] [] → x.executing = [] → (∀ d, (s.chip.decks.get d).lock.holder ≠ some h.ctx) →
      (∀ k ∈ l.chains, h.ctx.val ∉ k.holders) → (∀ b ∈ l.blocks, h.ctx.val ∉ b.holders) →
      exec (.ctxClose h []) s = .next { s.took h [] with
        chip.ctxs := s.chip.ctxs.set h.ctx { x with
          state := .closing
          cmd := []
          cmdAt := x.cmdAt.tail
          rpl := x.rpl ++ [s.completion h Stat.done []]
          evt := { x.evt with recs := [], lost := 0, lostClass := 0 } } }) ∧
    (∀ i, (s.chip.ctxs.get i).state = .closing → (s.chip.ctxs.get i).rpl = [] → (s.chip.ctxs.get i).waitingOpen = [] →
      ∃ t, exec (.ctxCloseStaged i) s = .next t ∧ t.chip.ctxs.get i = Context.reset ∧
        ∀ j, j ≠ i → t.chip.ctxs.get j = s.chip.ctxs.get j) ∧
    (x.state = .resetting → (cmdOf .ctxReset h [] ∈ x.cmd ∨ x.heldReset = some (cmdOf .ctxReset h [])) →
      ∃ t r, exec (.ctxReset h []) s = .next t ∧ fresh (t.chip.ctxs.get h.ctx) ∧ (t.chip.ctxs.get h.ctx).port = x.port ∧
        (t.chip.ctxs.get h.ctx).rpl = [r] ∧ r.type = 0x80 ∧ r.stat = Stat.done ∧ r.tag = h.tag ∧ r.payload = [])

/-- DECK_LOCK, DECK_ADOPT, DECK_UNLOCK and DECK_STATUS (R164, R166, R171, R187–R189). At the end of a lock its declaration ends (R489). -/
def Obligations.DeckLocks : Prop :=
  ∀ (s : State) (h : CmdHdr) (rest : List Cmd) (d : Deck), s.chip.power.valid = true → s.chip.events.length < 64 →
    (s.chip.ctxs.get h.ctx).executing = [] → s.chip.deckHeld d = false → s.chip.leaseOver d = false →
    let k := s.chip.decks.get d
    let b := BitVec.ofNat 8 d.val
    (∀ (keep : Bool) (ms : W16) (window : Byte), let p := [b, if keep then 1 else 0] ++ leBytes 2 ms.toNat ++ [window, 0, 0, 0]
      let set := fun l : DeckLock => { l with
        state := .held h.ctx, lease := if ms = 0 then 0 else if ms.toNat < 100 then 100 else ms, keep := keep
        window := if window = 0 then 10 else window, leaseAt := s.chip.now, warned := false }
      s.Heads .deckLock h p rest →
      (k.lock.state = .free → ∃ mirror,
        exec (.deckLock h p) s = .next { s.deckAnswered h rest d { k with lock := set DeckLock.reset } Stat.done [] with
          chip.log := s.logged 3 0x01 (11 + (s.chip.ctxs.get h.ctx).port.val) (deckObject d) 0xFF 1 (BitVec.ofNat 32 h.ctx.val) 0
          chip.emergency.mirror := mirror } ∧
        (mirror.get d).lock = 1 ∧ (mirror.get d).owner = BitVec.ofNat 8 h.ctx.val) ∧
      (k.lock.state = .held h.ctx →
        exec (.deckLock h p) s = .next (s.deckAnswered h rest d { k with lock := set k.lock } Stat.already [])) ∧
      (∀ j, k.lock.state = .held j → j ≠ h.ctx → exec (.deckLock h p) s = .next (s.answered h rest Stat.heldByOther []))) ∧
    (s.Heads .deckAdopt h [b, 0, 0, 0] rest → k.lock.state = .window h.ctx → ∃ log mirror,
      exec (.deckAdopt h [b, 0, 0, 0]) s = .next { s.deckAnswered h rest d
          { k with lock := { k.lock with state := .held h.ctx, lease := 0, report := .reset } } Stat.done k.lock.adoptReply with
        chip.log := log, chip.emergency.mirror := mirror
        chip.events := s.chip.events ++ [{ code := 0xA1, arg := BitVec.ofNat 32 h.ctx.val, time := s.chip.now
                                           targets := (s.took h rest).chip.targets .all (deckObject d) }] }) ∧
    (s.Heads .deckUnlock h [b, 0, 0, 0] rest → k.lock.state = .held h.ctx → s.Still d → s.chip.domains.holdPend.getLsbD d.val = false →
      ∃ log mirror,
        exec (.deckUnlock h [b, 0, 0, 0]) s = .next { s.answered h rest Stat.done [] with
          chip.decks := s.chip.decks.set d { k with lock := DeckLock.reset, tape.declared := none }
          chip.kettle.decks := s.chip.kettle.decks.set d { s.chip.kettle.decks.get d with
            tracks := 0, reading := false, compress := false, decompress := false, cellRate := 0 }
          chip.log := log, chip.emergency.mirror := mirror
          chip.events := s.chip.events ++ [{ code := 0xA2, arg := 0, time := s.chip.now
                                             targets := (s.took h rest).chip.targets .all (deckObject d) }] }) ∧
    (s.Heads .deckStatus h [b, 0, 0, 0] rest →
      exec (.deckStatus h [b, 0, 0, 0]) s = .next (s.deckAnswered h rest d k Stat.done
        (((s.took h rest).chip.execute (cmdOf .deckStatus h [b, 0, 0, 0]) (some d)).deckStatus d)))

/-- Leases, the orphan rule and the adopt window (R167–R170, Table 6-8). -/
def Obligations.LeasesAndOrphans : Prop :=
  ∀ (s : State) (d : Deck) (i : Ctx), s.chip.power.valid = true → s.chip.events.length < 63 →
    (s.chip.ctxs.get i).isOpen = true →
    let k := s.chip.decks.get d
    let runs := s.Hears d i ∧ k.lock.lease ≠ 0 ∧ (s.chip.ctxs.get i).working d = false
    let toAll := fun (code : Byte) (arg : W32) => ({ code := code, arg := arg, time := s.chip.now
                                                     targets := s.chip.targets .all (deckObject d) } : Event)
    (runs → k.lock.warned = false →
      exec (.leaseWarning d) s = .next { s.told d i 0xA3 9 (BitVec.ofNat 32 (min (k.lock.lease.toNat / 4) 1000)) with
        chip.decks := s.chip.decks.set d { k with lock.warned := true } }) ∧
    (runs → s.Still d → ∃ log mirror lastDurable noMove,
      exec (.leaseExpiry d) s = .next { s with
        chip.log := log, chip.emergency.mirror := mirror
        chip.events := s.chip.events ++ [{ code := 0xA4, arg := 0, time := s.chip.now, targets := [(i, deckObject d)] },
          toAll 0xA0 (BitVec.ofNat 32 i.val)]
        chip.decks := s.chip.decks.set d { k with
          lock.state := .draining i
          lock.report := { DrainReport.reset with byLease := true, noMove := noMove, lastDurable := lastDurable } } }) ∧
    (k.lock.state = .draining i → s.chip.drained d = true → ∃ log mirror,
      exec (.orphanDrainEnd d) s = .next { s with
        chip.log := log, chip.emergency.mirror := mirror
        chip.decks := s.chip.decks.set d { k with
          lock.state := .window i
          lock.leaseAt := s.chip.now
          lock.report.waiting := satU16 (k.staged.filter Staged.isRecord).length } }) ∧
    (k.lock.state = .window i → s.Still d → s.chip.domains.holdPend.getLsbD d.val = false → ∃ log mirror,
      exec (.adoptWindowExpiry d) s = .next { s with
        chip.log := log, chip.emergency.mirror := mirror
        chip.events := s.chip.events ++ [toAll 0xA2 0]
        chip.kettle.decks := s.chip.kettle.decks.set d { s.chip.kettle.decks.get d with
          tracks := 0, reading := false, compress := false, decompress := false, cellRate := 0 }
        chip.decks := s.chip.decks.set d { k with lock := DeckLock.reset, tape.declared := none } })

/-- Event delivery (R140–R142, R501), held entries (R22, R147, R493) and the two work queues (R20, R21). -/
def Obligations.QueueDeliveries : Prop :=
  ∀ (s : State),
    (∀ (i : Ctx) (e : Event) (o : W16) (rest : List Event), s.chip.events = e :: rest → e.targets = [(i, o)] →
      (s.chip.ctxs.get i).isOpen = true →
      let q := (s.chip.ctxs.get i).evt
      let depth := (s.chip.ctxs.get i).depth 2
      let ends := fun q1 : EvtQueue => exec .eventDelivery s = .next { s with
        chip.events := rest, chip.ctxs := s.chip.ctxs.set i { s.chip.ctxs.get i with evt := q1 } }
      ((∃ r ∈ q.recs, r.code = e.code ∧ r.object = o) →
        ends { q with recs := q.recs.map fun r =>
          if r.code = e.code ∧ r.object = o then { r with count := if r.count = 255 then 255 else r.count + 1, arg := e.arg } else r }) ∧
      ((∀ r ∈ q.recs, ¬ (r.code = e.code ∧ r.object = o)) →
        (q.recs.length + 1 < depth ∨ (q.recs.length < depth ∧ 0xC0 ≤ e.code.toNat) →
          ends { q with recs := q.recs ++ [{ code := e.code, count := 1, object := o, arg := e.arg, time := e.time }] }) ∧
        (¬ (q.recs.length + 1 < depth ∨ (q.recs.length < depth ∧ 0xC0 ≤ e.code.toNat)) →
          ∃ n c, n.toNat = min (q.lost.toNat + 1) 65535 ∧ c.toNat = max q.lostClass.toNat (e.code.toNat / 32) ∧
            ends { q with lost := n, lostClass := c }))) ∧
    (∀ (i : Ctx) (d : Deck) (r : Reply) (rest : List (Nat × HeldEntry)), s.chip.held = (12 * i.val + 7 + d.val, .rdata r) :: rest →
      ((s.chip.ctxs.get i).rdata.get d).length < (s.chip.ctxs.get i).depth ⟨7 + d.val, by omega⟩ →
      exec (.queueEntryPlaced (12 * i.val + 7 + d.val)) s = .next { s with
        chip.held := rest
        chip.ctxs := s.chip.ctxs.set i { s.chip.ctxs.get i with
          rdata := (s.chip.ctxs.get i).rdata.set d ((s.chip.ctxs.get i).rdata.get d ++ [{ r with time := s.chip.now }]) } }) ∧
    (∀ (d : Deck) (n : Notice) (rest : List CookWork) (x : Executing), s.chip.cookCan = true →
      (s.chip.ctxs.get n.ctx).state = .open → (s.chip.ctxs.get n.ctx).executing = [x] → x.tag = n.tag → x.deck = some d →
      let after := fun k1 : DeckAll => ({ s with
        chip.decks := s.chip.decks.set d (k1.releasedBy n.ctx s.chip.now)
        chip.ctxs := s.chip.ctxs.set n.ctx { s.chip.ctxs.get n.ctx with
          executing := []
          rpl := (s.chip.ctxs.get n.ctx).rpl ++ [ctxReply 0x80 n.ctx n.tag n.rcrc n.stat n.payload s.chip.now] } } : State)
      let k := s.chip.decks.get d
      (k.cookQ = .ended n :: rest → exec (.cookNotice (some d)) s = .next (after { k with cookQ := rest })) ∧
      (k.cookQ = .endedMove (some n) :: rest → k.seq.op = none → k.seq.state = .streaming →
        exec (.cookNotice (some d)) s = .next (after { k with cookQ := rest, workQ := k.workQ ++ [.stop] }))) ∧
    (∀ (d : Deck) (w : Motion) (rest : List Motion), (s.chip.decks.get d).workQ = w :: rest → s.chip.servoOn d = true →
      let k := s.chip.decks.get d
      (∀ v, w = .speed v → k.seq.state = .streaming →
        exec (.deckWorkRequest d) s = .next { s with
          chip.decks := s.chip.decks.set d (({ k with workQ := rest, seq.capSpeed := v }).retarget) }) ∧
      (k.seq.state = .dormant →
        exec (.deckWorkRequest d) s = .next { s with chip.decks := s.chip.decks.set d { k with workQ := rest } }))

/-- The loop opcodes (R191–R193, Tables 7-8 and 16-5). -/
def Obligations.LoopSlotCommands : Prop :=
  ∀ (s : State) (h : CmdHdr) (rest : List Cmd) (d : Deck) (j : SlotIx), s.Locked h d →
    (s.chip.decks.get d).seq.state ≠ .dormant →
    let k := s.chip.decks.get d
    let sl := k.loops.slots.get j
    let b := BitVec.ofNat 8 d.val
    let n := BitVec.ofNat 8 j.val
    let with_ := fun t : Slot => { k with loops.slots := k.loops.slots.set j t }
    (s.Heads .loopOpen h [b, n, 0, 0] rest →
      (sl.state = .closed → exec (.loopOpen h [b, n, 0, 0]) s =
        .next (s.deckAnswered h rest d (with_ { sl with state := .open, feCount := 0 }) Stat.done [])) ∧
      (sl.state = .open → exec (.loopOpen h [b, n, 0, 0]) s = .next (s.deckAnswered h rest d k Stat.already []))) ∧
    (s.Heads .loopClose h [b, n, 0, 0] rest →
      (sl.state = .open → exec (.loopClose h [b, n, 0, 0]) s =
        .next (s.deckAnswered h rest d (with_ { sl with
          state := .closed, fresh := sl.fresh || k.loops.running, reseed := sl.reseed || k.loops.running }) Stat.done [])) ∧
      (sl.state = .closed → exec (.loopClose h [b, n, 0, 0]) s = .next (s.deckAnswered h rest d k Stat.already []))) ∧
    (∀ es : List (W16 × W32), let p := [b, n, BitVec.ofNat 8 es.length, 0] ++ es.flatMap (fun e => leBytes 2 e.1.toNat ++ [0, 0] ++ leBytes 4 e.2.toNat)
      let entries := es.map fun e => (e.1.toNat, e.2)
      s.Heads .loopWrite h p rest → 1 ≤ es.length → es.length ≤ 64 → sl.accepts entries = true → sl.state = .open →
      let k1 := with_ (sl.writeAll entries)
      ((∀ e ∈ entries, e.1 ≠ 0x84) → exec (.loopWrite h p) s = .next (s.deckAnswered h rest d k1.retarget Stat.done [])) ∧
      (∀ v, entries = [(0x84, v)] → exec (.loopWrite h p) s = .next (s.deckAnswered h rest d ({ k with
          loops.groups := k.loops.groups.set sl.effAxis { k.loops.groups.get sl.effAxis with safeU := signed16 v } }).retarget Stat.done []))) ∧
    (∀ os : List W16, let p := [b, n, BitVec.ofNat 8 os.length, 0] ++ os.flatMap (fun o => leBytes 2 o.toNat)
      s.Heads .loopRead h p rest → 1 ≤ os.length → os.length ≤ 64 → (∀ o ∈ os, (k.loops.readSlot j o.toNat).isSome = true) →
      exec (.loopRead h p) s = .next (s.deckAnswered h rest d k Stat.done
        (os.flatMap fun o => leBytes 4 ((k.loops.readSlot j o.toNat).getD 0).toNat))) ∧
    (s.Heads .autotuneResult h [b, n, 0, 0] rest →
      exec (.autotuneResult h [b, n, 0, 0]) s = .next (s.deckAnswered h rest d k Stat.done sl.tune.bytes)) ∧
    (s.Heads .autotuneResult h [b, n, 1, 0] rest → k.seq.state = .ready → sl.state = .open → sl.tune.state = .done →
      exec (.autotuneResult h [b, n, 1, 0]) s = .next (s.deckAnswered h rest d
        (with_ { sl with h := sl.tune.propH, ki := sl.tune.propKi, trim := sl.tune.propTrim, tune := { sl.tune with state := .applied } })
        Stat.done ({ sl.tune with state := .applied } : Tune).bytes))

/-- TRIP_CLEAR (R194), SPEED_POLICY (R195), COMPRESSION_SET (R219; what it declares while a write streams, R60), PROFILE_LOAD (R220) and POSITION_READ (R216). -/
def Obligations.DeckSettings : Prop :=
  ∀ (s : State) (h : CmdHdr) (rest : List Cmd) (d : Deck), s.Locked h d →
    let k := s.chip.decks.get d
    let load := s.chip.kettle.decks.get d
    let b := BitVec.ofNat 8 d.val
    let cleared := fun mask : Byte => (Vector.ofFn fun a : Axis =>
      if mask.getLsbD a.val ∧ (k.io.axes.get a).trip then { k.io.axes.get a with trip := false, mode := .off, nextMode := .off }
      else k.io.axes.get a : Vector AxisState 4)
    (∀ mask : Byte, let p := [b, mask, 0, 0]
      s.Heads .tripClear h p rest → mask ≠ 0 → mask.toNat < 16 → k.seq.state ≠ .dormant →
      ((∀ a : Axis, mask.getLsbD a.val = true → (k.io.axes.get a).tripIn = false) →
        ((∃ a : Axis, mask.getLsbD a.val = true ∧ (k.io.axes.get a).trip = true) →
          exec (.tripClear h p) s = .next (s.deckAnswered h rest d ({ k with io.axes := cleared mask }).askModes Stat.done [])) ∧
        ((∀ a : Axis, mask.getLsbD a.val = true → (k.io.axes.get a).trip = false) →
          exec (.tripClear h p) s = .next (s.deckAnswered h rest d k Stat.already []))) ∧
      ((∃ a : Axis, mask.getLsbD a.val = true ∧ (k.io.axes.get a).tripIn = true) →
        exec (.tripClear h p) s = .next (s.deckAnswered h rest d k Stat.tripActive []))) ∧
    (∀ (f : Profile) (fixed : Bool) (stall lo hi at_ : W16),
      let p := [b, if fixed then 1 else 0] ++ leBytes 2 stall.toNat ++ leBytes 2 lo.toNat ++ leBytes 2 hi.toNat ++ leBytes 2 at_.toNat ++ [0, 0]
      let low := if lo = 0 then f.sMin else lo.toNat
      let high := if hi = 0 then 10000 else hi.toNat
      s.Heads .speedPolicy h p rest → k.seq.state ≠ .dormant → k.profile = some f → (stall = 0 ∨ (10 ≤ stall.toNat ∧ stall.toNat ≤ 5000)) →
      lo.toNat ≤ 10000 → hi.toNat ≤ 10000 → at_.toNat ≤ 10000 → f.sMin ≤ low → low ≤ high →
      (fixed = true → low ≤ at_.toNat ∧ at_.toNat ≤ high) → (fixed = false → at_ = 0) →
      let policy : SpeedPolicy :=
        { fixed := fixed, stallMs := if stall = 0 then 50 else stall.toNat, floor := lo.toNat, ceiling := hi.toNat, fixedAt := at_.toNat }
      exec (.speedPolicy h p) s = .next (s.deckAnswered h rest d { k with matcher.next := some policy } Stat.done [])) ∧
    (∀ on : Bool, let p := [b, if on then 1 else 0, 0, 0]
      s.Heads .compressionSet h p rest → (k.seq.state ≠ .streaming ∨ on = false ∨ loadWrites load = false) →
      (k.compress ≠ on → exec (.compressionSet h p) s = .next (s.deckAnswered h rest d { k with compress := on } Stat.done [])) ∧
      (k.compress = on → exec (.compressionSet h p) s = .next (s.deckAnswered h rest d k Stat.already []))) ∧
    (let p := [b, 1, 0, 0]
     s.Heads .compressionSet h p rest → k.seq.state = .streaming → k.profile.isSome = true → loadWrites load = true →
      s.chip.kettle.isRaise (.deck d { load with compress := true }) = true → s.chip.kettle.raising = [] → s.chip.temp.limited = false →
      exec (.compressionSet h p) s = .next { s.started h rest .compressionSet d with
        chip.kettle.raising := [{ decl := .deck d { load with compress := true }, cmd := some (cmdOf .compressionSet h p) }] }) ∧
    (∀ image : List Byte, let p := [b, 0, 0, 0] ++ image
      s.Heads .profileLoad h p rest → profileOk image = true → (k.seq.state = .dormant ∨ k.seq.state = .empty ∨ k.seq.state = .present) →
      k.seq.op = none → k.cookQ = [] → s.chip.kettle.raising = [] →
      exec (.profileLoad h p) s = .next (s.deckAnswered h rest d { k with
        profile := some (parseProfile image), matcher.policy := .reset, matcher.next := none } Stat.done [])) ∧
    (s.Heads .positionRead h [b, 0, 0, 0] rest → (k.seq.state = .ready ∨ k.seq.state = .streaming ∨ k.seq.state = .stopping) →
      k.tape.media.isSome = true → k.profile.isSome = true →
      exec (.positionRead h [b, 0, 0, 0]) s = .next (s.deckAnswered h rest d k Stat.done (s.chip.positionBlock d)))

/-- The operations that read or move (R201, R202, R211–R216): the Cook begins them and asks deck sequencing for the motion (R20), with hi as
the target (R383), and Strainer for a dataset (R363, R364); at EOD a read and a VERIFY end at once (R212, R213). The declaration that they
need is in force (R203). The dataset that each asks for first, and what Strainer has in hand, are the model's working of R363. -/
def Obligations.ReadingOperationsStart : Prop :=
  ∀ (s : State) (h : CmdHdr) (rest : List Cmd) (d : Deck), s.Locked h d → s.Loaded d → s.Still d →
    let k := s.chip.decks.get d
    let t := k.tape
    t.declared = some false → t.ds = none → t.ahead = .unknown →
    let b := BitVec.ofNat 8 d.val
    let here := t.moveTo t.object t.dataset
    let inside := t.object.toNat < t.eodObject.toNat
    let starts := fun (op : Op) (p : List Byte) (n : Int) (o : Host.Outcome State Fault Refusal) (tape : TapeInfo) (order : List ReadOrder) =>
      s.Heads op h p rest → o = .next { s.started h rest op d with
        chip.decks := s.chip.decks.set d { k with
          seq := { k.seq with base := .ready, op := some (runningOp op h p n true) }
          workQ := k.workQ ++ [.move k.readSpeed]
          matcher := { k.matcher with target := k.matcher.hi }
          roller := { k.roller with nextP0 := none, eraseFrom := none }
          readQ := order
          tape := tape } }
    let endsAtEod := fun (op : Op) (p : List Byte) (o : Host.Outcome State Fault Refusal) (reply : List Byte) =>
      s.Heads op h p rest → o = .next { s.deckAnswered h rest d { k with seq.base := .ready } Stat.eod reply with
        chip.log := (s.told d h.ctx 0x23 (51 + 6 * d.val) (t.eodDataset.setWidth 32)).chip.log
        chip.events := (s.told d h.ctx 0x23 (51 + 6 * d.val) (t.eodDataset.setWidth 32)).chip.events }
    (∀ n : Nat, n ≤ 16777215 → let p := [b, 0, 0, 0] ++ leBytes 4 n
      (inside → (t.mid = false → t.current = none) →
        starts .readRecord p 0 (exec (.readRecord h p) s) t [.read (if t.mid then (t.current.map (·.ds)).getD t.dataset else t.dataset)]) ∧
      (inside → t.mid = true →
        starts .readMore p 0 (exec (.readMore h p) s) t (if t.current.isSome then [] else [.read t.dataset])) ∧
      (t.atEod = true → t.incompleteHere = false → s.Hears d h.ctx →
        endsAtEod .readRecord p (exec (.readRecord h p) s) (t.readReply 0 0 0))) ∧
    (∀ (toEod : Bool) (c : W16), (toEod = true ↔ c = 0) → let p := [b, if toEod then 1 else 0] ++ leBytes 2 c.toNat ++ [0, 0, 0, 0]
      (inside → starts .verify p 0 (exec (.verify h p) s) here [.read t.dataset]) ∧
      (t.atEod = true → t.incompleteHere = false → s.Hears d h.ctx →
        endsAtEod .verify p (exec (.verify h p) s) (List.replicate 24 0))) ∧
    (∀ (byDataset : Bool) (q : Fin 4) (x : W64) (l : Label), t.label = some l → q.val < l.partitions →
      x.toNat < (if byDataset then t.eodDs.get q else t.eodObj.get q).toNat →
      let p := [b, if byDataset then 1 else 0, BitVec.ofNat 8 q.val, 0, 0, 0, 0, 0] ++ leBytes 8 x.toNat
      starts .locate p 0 (exec (.locate h p) s)
        (if t.partition.toNat = q.val then here
         else { here with partition := BitVec.ofNat 2 q.val, wrap := BitVec.ofNat 6 (l.firstWrap q.val) })
        [if byDataset then .read x else .scan]) ∧
    (∀ (marks : Bool) (c : W32), c ≠ 0 → (0 < c.toInt → inside) → (c.toInt < 0 → t.object ≠ 0) →
      let p := [b, if marks then 1 else 0, 0, 0] ++ leBytes 4 c.toNat
      starts .space p c.toInt (exec (.space h p) s) here
        [.read (if c.toInt < 0 ∧ t.eodObject.toNat ≤ t.object.toNat then t.dataset - 1 else t.dataset)]) ∧
    (let p := [b, 0, 0, 0]
     (¬ (t.atBop = true ∧ t.partition = 0) → starts .rewind p 0 (exec (.rewind h p) s) here []) ∧
     (s.Heads .rewind h p rest → t.atBop = true → t.partition = 0 →
      exec (.rewind h p) s = .next (s.deckAnswered h rest d { k with seq.base := .ready } Stat.already [])))

/-- The write side: WRITE_RECORD, WRITE_DATA, WRITE_FILEMARK and FLUSH (R204–R210, R325, R340, R490) with the declaration that they need in
force. The bytes of a WRITE_DATA stand in the cells drawn for it, and no other byte of memory changes. -/
def Obligations.WritingCommands : Prop :=
  ∀ (s : State) (h : CmdHdr) (rest : List Cmd) (d : Deck), s.Locked h d → s.Loaded d →
    let k := s.chip.decks.get d
    let t := k.tape
    let l := s.chip.ladle
    let x := s.chip.ctxs.get h.ctx
    let b := BitVec.ofNat 8 d.val
    let q : Fin 4 := Fin.ofNat 4 t.partition.toNat
    let writes := t.declared = some true ∧ t.mid = false ∧
      ∀ f l, k.profile = some f → t.label = some l → lagCells f.rwOffset l.cellLength ≤ 2232
    let buffered : Stat := if t.beyondEw then Stat.earlyWarning else Stat.buffered
    let ticket := fun (u : State) (y : Option Ticket) => ({ u with
      chip.ctxs := u.chip.ctxs.set h.ctx { u.chip.ctxs.get h.ctx with ticket := y } } : State)
    (∀ (raw durable : Bool) (n : Nat), 1 ≤ n → n ≤ 16777215 → s.Still d → writes → s.chip.partitionFull d (n + 4) = false →
      let p := [b, BitVec.ofNat 8 (bit raw + 2 * bit durable), 0, 0] ++ leBytes 4 n
      let number : W16 := if t.tickets = 0xFFFF then 1 else t.tickets + 1
      let r : Rec := { object := t.object, length := n, parts := [], raw := raw || !k.compress, durable := durable, tag := h.tag
                       rcrc := h.rcrc, poisoned := false, silent := false, chain := [] }
      let opens := fun k1 : DeckAll => exec (.writeRecord h p) s = .next (ticket
        (s.deckAnswered h rest d k1 Stat.done (leBytes 2 number.toNat ++ [0, 0] ++ leBytes 4 n ++ leBytes 8 t.object.toNat))
        (some { deck := d, number := number, reserved := 0, record := r }))
      s.Heads .writeRecord h p rest →
      (t.atEod = true → opens { k with tape := { t with tickets := number, durObj := t.object }, roller.next := t.eodDs.get q }) ∧
      (∀ label, t.atEod = false → t.label = some label →
        let next : W64 := if t.object = 0 then 0 else t.dataset + 1
        let t1 : TapeInfo := { t with
          gen := t.gen.set q (t.gen.get q + 1), eodDs := t.eodDs.set q next, eodObj := t.eodObj.set q t.object
          eodWrap := t.eodWrap.set q t.wrap, incomplete := t.incomplete.set q false, dataset := next, durObj := t.object, offset := 0
          ds := none, ahead := .unknown, walk := none, current := none }
        let label1 := t1.newLabel label true
        opens { k with
          tape := { t1 with tickets := number, label := some label1 }
          roller.next := next
          orders := [labelDataset label1 (t1.gen.get 0)] })) ∧
    (let p := [b, 4, 0, 0, 0, 0, 0, 0]
     s.Heads .writeRecord h p rest → writes →
      (x.ticket = none → exec (.writeRecord h p) s = .next (s.deckAnswered h rest d k Stat.already
        ([0, 0, 0, 0, 0, 0, 0, 0] ++ leBytes 8 t.object.toNat))) ∧
      (∀ tk, x.ticket = some tk → tk.deck = d → tk.record.chain = [] → l.leaving = none →
        exec (.writeRecord h p) s = .next { ticket (s.deckAnswered h rest d k Stat.done
          (leBytes 2 tk.number.toNat ++ [0, 0] ++ leBytes 4 tk.record.received ++ leBytes 8 tk.record.object.toNat)) none with
          chip.ladle.reserved := l.reserved - tk.reserved })) ∧
    (∀ (tk : Ticket) (p : List Byte), s.Heads .writeData h p rest → x.ticket = some tk → tk.deck = d → p ≠ [] →
      tk.record.received + p.length ≤ tk.record.length → s.chip.canStore h.ctx p.length = true →
      s.chip.merge.get (portBuffer x.port) = [] → l.built = true → s.Canonical →
      let head := tk.record.chain
      let n := ceilDiv p.length 248
      let reserve := n + bit head.isEmpty
      let cells := l.openCells.take n
      l.cellsHeld h.ctx.val + n ≤ x.cellLimit → n + reserve + 256 ≤ l.cellsFree → n + reserve ≤ l.openCells.length →
      (∀ i ∈ l.openCells.take (n + reserve), s.Plain (16 * i)) → (∀ i ∈ cells, ∀ y ∈ s.chip.sram.mem, y.1 / 512 ≠ i) →
      (∀ i ∈ cells, ∀ j < 16, s.Uncached (BitVec.ofNat 18 (16 * i + j))) →
      (∀ i js, head = i :: js → s.Plain (16 * i) ∧ i < 1024 * l.cellBanks ∧ (∀ j ∈ head, cellRetired s.chip.retireList j = false) ∧
        l.chains.find? (fun c => c.cells.head? == some i) = some { cells := head, owner := h.ctx.val, holders := [h.ctx.val] }) →
      let l1 := Ladle.noteLow { l with
        freeCells := minus l.freeCells cells
        chains := if head = [] then { cells := cells, owner := h.ctx.val, holders := [h.ctx.val] } :: l.chains
          else l.chains.map (fun c => if c.cells = head then { c with cells := c.cells ++ cells } else c) }
      s.Unlisted l1 →
      let r : Rec := { tk.record with parts := tk.record.parts ++ [p.length], chain := head ++ cells, tag := h.tag, rcrc := h.rcrc }
      let k1 : DeckAll := { k with matcher.restAt := some (k.matcher.restAt.getD s.chip.now) }
      let reply := fun final : Bool =>
        leBytes 2 tk.number.toNat ++ [BitVec.ofNat 8 (bit final), 0] ++ leBytes 4 r.received ++ leBytes 8 r.object.toNat
      let stored := fun (u : State) (mem : List (Nat × Byte)) => ({ u with
        chip.ladle := Ladle.noteLow { l1 with reserved := l.reserved + reserve }
        chip.ladleAnswer := .done (256 * (head ++ cells).headD 0)
        chip.sram.mem := mem } : State)
      ∃ mem, (∀ a, (∀ i ∈ cells, a / 512 ≠ i) → memGet mem a = memGet s.chip.sram.mem a) ∧
        (∀ j (hj : j < p.length), let a := ((chainBytes cells)[j]?).getD 0
          byteAt (({ s.chip with ladle := l1, sram.mem := mem } : Chip).decodeWord (BitVec.ofNat 18 (a / 16)) []).data (a % 16) = p[j]) ∧
        (r.received < r.length → exec (.writeData h p) s = .next (stored (ticket (s.deckAnswered h rest d k1 Stat.done (reply false))
          (some { tk with record := r, reserved := tk.reserved + reserve })) mem)) ∧
        (r.received = r.length → r.durable = false → s.chip.held = [] → (x.wdata.get d).length < x.depth ⟨3 + d.val, by omega⟩ →
          let u := stored (ticket (s.deckAnswered h rest d { k1 with tape.object := r.object + 1 } buffered (reply true)) none) mem
          exec (.writeData h p) s = .next { u with
            chip.ctxs := u.chip.ctxs.set h.ctx { u.chip.ctxs.get h.ctx with wdata := x.wdata.set d (x.wdata.get d ++ [r]) } })) ∧
    (∀ (n : Nat) (durable : Bool), 1 ≤ n → n ≤ 1000 → s.Still d → writes → t.atEod = true → s.chip.partitionFull d 0 = false →
      let p := [b, BitVec.ofNat 8 (2 * bit durable)] ++ leBytes 2 n
      let after := t.object + BitVec.ofNat 64 n
      let reply := leBytes 8 t.object.toNat ++ leBytes 2 n ++ List.replicate 6 0
      let waiter : Waiter := { Waiter.fresh .writeFilemark h with from_ := t.object, upTo := after, reply := reply }
      let waiting := if durable then [waiter] else []
      let base := if durable then s.started h rest .writeFilemark d else s.deckAnswered h rest d k buffered reply
      s.Heads .writeFilemark h p rest → ∃ u, exec (.writeFilemark h p) s = .next u ∧
        (u.chip.decks.get d).tape.object = after ∧ (u.chip.decks.get d).seq.waiters = waiting ∧ u.chip.ctxs = base.chip.ctxs ∧
        (s.chip.domOn (50 + 6 * d.val) = false → u = { base with
          chip.decks := base.chip.decks.set d { base.chip.decks.get d with
            tape := { t with object := after, durObj := t.object }
            roller.next := t.eodDs.get q
            matcher.restAt := some (k.matcher.restAt.getD s.chip.now)
            seq.waiters := waiting
            staged := [.marks h.ctx t.object n durable h.tag h.rcrc] } })) ∧
    (s.Heads .flush h [b, 0, 0, 0] rest →
      (s.chip.stagedObjects d = 0 → exec (.flush h [b, 0, 0, 0]) s = .next (s.deckAnswered h rest d k Stat.already
        (leBytes 4 (match t.durDs with | some n => n.toNat % 4294967296 | none => 0xFFFFFFFF) ++ leBytes 8 t.durObj.toNat ++ [0, 0, 0, 0]))) ∧
      (0 < s.chip.stagedObjects d →
        let waiter : Waiter := { Waiter.fresh .flush h with from_ := t.durObj, upTo := t.object }
        let base := s.started h rest .flush d
        ∃ u, exec (.flush h [b, 0, 0, 0]) s = .next u ∧ (u.chip.decks.get d).seq.waiters = k.seq.waiters ++ [waiter] ∧
          u.chip.ctxs = base.chip.ctxs ∧
          (s.chip.domOn (50 + 6 * d.val) = false → u = { base with
            chip.decks := s.chip.decks.set d { k with seq.waiters := k.seq.waiters ++ [waiter] } })))

/-- The motion and structure operations (R188, R193, R217, R218, R340, Table 18-5): what the Cook does when it begins them on a deck that
stands still; deck sequencing's part follows at its request (R20). UNLOAD, ERASE_FROM_HERE and FORMAT_TAPE order what they write of Roller,
which takes it at once when its domain is on (R23, R340, R341). -/
def Obligations.DeckOperationsBegin : Prop :=
  ∀ (s : State) (h : CmdHdr) (rest : List Cmd) (d : Deck), s.Locked h d → s.Still d →
    s.chip.timebase.refState = .locked → s.chip.log.held = [] → (∀ a, ((s.chip.decks.get d).io.axes.get a).trip = false) →
    let k := s.chip.decks.get d
    let t := k.tape
    let q : Fin 4 := Fin.ofNat 4 t.partition.toNat
    let b := BitVec.ofNat 8 d.val
    let load := s.chip.kettle.decks.get d
    let p0 : List Byte := [b, 0, 0, 0]
    let runs := fun (op : Op) (p : List Byte) (flushing moving : Bool) (k1 : DeckAll) => { s.started h rest op d with
      chip.decks := s.chip.decks.set d { k1 with seq := { k.seq with
        base := k.seq.state, op := some { runningOp op h p 0 moving with flushing := flushing } } } }
    let asks := fun (op : Op) (o : Host.Outcome State Fault Refusal) (m : Motion) =>
      s.Heads op h p0 rest → o = .next (runs op p0 false false { k with workQ := k.workQ ++ [m] })
    let orders := fun (op : Op) (p : List Byte) (o : Host.Outcome State Fault Refusal) (flushing : Bool) (k1 : DeckAll) =>
      s.Heads op h p rest → ∃ u, o = .next u ∧ u.chip.ctxs = (s.started h rest op d).chip.ctxs ∧
        (u.chip.decks.get d).seq = ((runs op p flushing (!flushing) k1).chip.decks.get d).seq ∧
        (s.chip.domOn (50 + 6 * d.val) = false → u = runs op p flushing (!flushing) k1)
    (∀ f, k.profile = some f →
      let loops := { load with loopPeriod := BitVec.ofNat 12 f.loopPeriod }
      let covered := k.loops.running = true ∨ load = loops
      let raise := fun (op : Op) (o : Host.Outcome State Fault Refusal) =>
        s.Heads op h p0 rest → k.loops.running = false → s.chip.kettle.isRaise (.deck d loops) = true → s.chip.temp.limited = false →
        o = .next { s.started h rest op d with chip.kettle.raising := [{ decl := .deck d loops, cmd := some (cmdOf op h p0) }] }
      (k.seq.state = .present → k.io.cart = true → k.io.door = true →
        (covered → asks .load (exec (.load h p0) s) (.load false)) ∧ raise .load (exec (.load h p0) s)) ∧
      (covered → asks .home (exec (.home h p0) s) .home) ∧ raise .home (exec (.home h p0) s)) ∧
    (s.Heads .unload h p0 rest → k.seq.state ≠ .ready → exec (.unload h p0) s = .next (s.deckAnswered h rest d k Stat.already [])) ∧
    (k.seq.state = .ready →
      ((∀ l, t.label = some l → l.isOpen = false) → asks .unload (exec (.unload h p0) s) .unload) ∧
      (∀ l, t.label = some l → l.isOpen = true →
        let label := t.newLabel l false
        orders .unload p0 (exec (.unload h p0) s) true { k with
          tape.label := some label
          orders := [labelDataset label (t.gen.get 0)] })) ∧
    (s.Heads .deckStop h p0 rest → exec (.deckStop h p0) s = .next (s.deckAnswered h rest d k Stat.already [])) ∧
    (s.Loaded d → ∀ f, k.profile = some f →
      (∀ (j : SlotIx) (cycles : Nat) (swing band : W16), 8 ≤ cycles → cycles ≤ 64 → 1 ≤ swing.toNat → swing.toNat ≤ 32767 → band.toNat ≤ 32767 →
        let p := [b, BitVec.ofNat 8 j.val, BitVec.ofNat 8 cycles, 0] ++ leBytes 2 swing.toNat ++ leBytes 2 band.toNat
        s.Heads .autotune h p rest → exec (.autotune h p) s = .next (runs .autotune p false false { k with
          loops.slots := k.loops.slots.set j ((k.loops.slots.get j).startTune cycles swing.toNat band.toNat) })) ∧
      (t.declared = some true →
        (∀ (long : Bool) (l : Label), t.label = some l → lagCells f.rwOffset l.cellLength ≤ 2232 → t.mid = false →
          let p : List Byte := [b, if long then 1 else 0, 0, 0]
          let erase := exec (.eraseFromHere h p) s
          (t.atEod = false →
            let next : W64 := if t.object = 0 then 0 else t.dataset + 1
            let t1 : TapeInfo := { t with
              gen := t.gen.set q (t.gen.get q + 1), eodDs := t.eodDs.set q next, eodObj := t.eodObj.set q t.object
              eodWrap := t.eodWrap.set q t.wrap, incomplete := t.incomplete.set q false, dataset := next, durObj := t.object, offset := 0
              ds := none, ahead := .unknown, walk := none, current := none }
            let t2 := { t1 with label := some (t1.newLabel l true) }
            orders .eraseFromHere p erase false { k with
              tape := t2
              roller.next := next
              orders := [labelDataset (t1.newLabel l true) (t1.gen.get 0), t2.eodDataset' q next t.object] }) ∧
          (t.atEod = true → long = true →
            orders .eraseFromHere p erase false { k with
              tape.durObj := t.object
              roller.next := t.eodDs.get q
              orders := [t.eodDataset' q (t.eodDs.get q) t.object] }) ∧
          (s.Heads .eraseFromHere h p rest → t.atEod = true → long = false →
            erase = .next (s.deckAnswered h rest d { k with seq.base := .ready } Stat.already []))) ∧
        (∀ p : List Byte, p.head? = some b → fieldZero p 3 1 = true → formatOk k.profile p = true →
          (∀ l, t.label = some l → lagCells f.rwOffset l.cellLength ≤ 2232) →
          let ds := formatOrders s.chip.now f.linePitch p
          orders .formatTape p (exec (.formatTape h p) s) false (DeckAll.formatBounds { k with
            tape := { t with media := some .unreadable, label := formatLabel ds, partition := 0, wrap := 0 }
            roller.cellLen := leAt p 4 4
            roller.nextP0 := none
            roller.eraseFrom := none
            orders := ds }))))

/-- DECK_STOP of a deck that streams or rests in FAULT_STOP (R188, R190, R452), and what deck sequencing does at the motion requests (R20):
the stop, the motion of an operation or of writing, LOAD, HOME and UNLOAD (R439, R441, R443–R445, R448, R458, Tables 18-2, 18-3, 17-5). -/
def Obligations.StopsAndMotionRequests : Prop :=
  ∀ (s : State) (d : Deck),
    let k := s.chip.decks.get d
    (∀ (h : CmdHdr) (rest : List Cmd), s.Locked h d → s.chip.kettle.raising = [] → k.seq.op = none → k.seq.waiters = [] →
      k.endReading = k → k.failTune = k →
      let p := [BitVec.ofNat 8 d.val, 0, 0, 0]
      let waiter := fun already : Bool => ({ ctx := h.ctx, tag := h.tag, rcrc := h.rcrc, already := already, failed := false } : StopWaiter)
      let stops := fun (already : Bool) (work : List Motion) => exec (.deckStop h p) s = .next { s.started h rest .deckStop d with
        chip.decks := s.chip.decks.set d { k with
          seq := { k.seq with stopAt := k.roller.next, stopWaiters := k.seq.stopWaiters ++ [waiter already] }, workQ := work } }
      s.Heads .deckStop h p rest →
      (k.seq.state = .streaming → k.roller.open_ = none → k.roller.buffers = [] → k.roller.gate = false → .stop ∉ k.workQ →
        stops false (k.workQ ++ [.stop])) ∧
      (k.seq.state = .faultStop → k.seq.rest = false → stops true k.workQ) ∧
      (k.seq.state = .faultStop → k.seq.rest = true → exec (.deckStop h p) s = .next (s.deckAnswered h rest d k Stat.already []))) ∧
    (∀ (i : Ctx) (m : Motion) (work : List Motion) (f : Profile), k.workQ = m :: work → s.chip.servoOn d = true → s.Hears d i →
      s.chip.domains.holdPend.getLsbD d.val = false → k.profile = some f →
      let ends := fun (st : DeckState) (more : DeckAll → Prop) =>
        ∃ k1, exec (.deckWorkRequest d) s = .next { s.entered d i st with chip.decks := s.chip.decks.set d k1 } ∧
          k1.workQ = work ∧ k1.tape.label = k.tape.label ∧ k1.lock = k.lock ∧ k1.roller = k.roller ∧ k1.strainer = k.strainer ∧
          k1.staged = k.staged ∧ k1.pos = k.pos ∧ k1.seq.op = k.seq.op ∧ more k1
      (m = .stop → k.seq.state = .streaming →
        ends .stopping fun k1 => k1.tape = k.tape ∧ k1.seq = { k.seq with state := .stopping, capSpeed := 0 }) ∧
      (∀ v o, m = .move v → k.seq.state = .ready → k.seq.op = some o → o.moving = true → k.strainer.pass = 0 →
        ends .streaming fun k1 => k1.tape = k.tape ∧ k1.seq = { k.seq with
          state := .streaming, capSpeed := v, reverse := k.tape.wrap.getLsbD 0, posTarget := wrapTarget f k.tape.wrap.toNat 0
          posRamp := approachRamp f, offset := 0 }) ∧
      (∀ buf bufs, m = .start → k.seq.state = .ready → k.roller.buffers = buf :: bufs → buf.started = false →
        let w := k.wrapFor buf.ds
        ends .streaming fun k1 => k1.tape = k.tape ∧ k1.seq = { k.seq with
          state := .streaming, capSpeed := speedOf f k.matcher.target, reverse := w.getLsbD 0, posTarget := wrapTarget f w.toNat 0
          posRamp := approachRamp f, offset := 0 }) ∧
      (∀ o, m = .unload → k.seq.state = .ready → k.seq.op = some o → o.op = .unload → o.flushing = false →
        ends .unloading fun k1 => k1.tape = k.tape ∧ k1.seq = { k.seq with
          state := .unloading, stage := 1, unloadAfter := false, capSpeed := 0, posTarget := wrapTarget f 0 0, posRamp := approachRamp f }) ∧
      (∀ o, k.seq.op = some o → k.loops.running = false → (∀ a, (k.io.axes.get a).tripIn = false) →
        (m = .load false → o.op = .load → k.seq.state = .present →
          ends .thread fun k1 => k1.loops.running = true ∧ k1.loops.start = s.chip.now ∧ k1.loops.period = BitVec.ofNat 12 f.loopPeriod ∧
            k1.tape.media = none ∧ k1.seq.tension = f.tensionSet / 4 ∧ k1.seq.capSpeed = 0) ∧
        (m = .home → o.op = .home → o.flushing = false → k.seq.state = .empty ∨ k.seq.state = .present →
          ends .homing fun k1 => k1.loops.running = true ∧ k1.loops.start = s.chip.now ∧ k1.tape = k.tape ∧ k1.seq.capSpeed = 0 ∧
            k1.io.home.homed = false ∧ k1.io.home.step = if k.io.posLo.active then 1 else 2)))

/-- The test access port: the instruction register and its capture, IDCODE, BYPASS for every opcode that Table 4-7 does not list,
SAMPLE/PRELOAD, EXTEST with its holds and its pads, DELAYCAL-READ and MACRO-ISOLATE (R114–R117, R522, R528). -/
def Obligations.JtagInstructions : Prop :=
  ∀ s : State, s.chip.jtag.ready = true → s.chip.power.viom = true → s.chip.power.valid = true →
    let j := s.chip.jtag
    let t := s.chip.timebase
    let safe := fun cells : List Bool => cells.length = 521 ∧
      ∀ i ∈ pwmLegs, ¬ (∀ j ∈ [i, i + 1, i + 2, i + 3], (cells[j]?).getD false = true)
    let entry := fun l : Lines => (BitVec.ofBool (decide (t.refState = .freeRun)) ++ BitVec.ofBool l.shadowBusy
      ++ BitVec.ofBool l.valid ++ l.elements : W16)
    let selected : BitVec 5 → BitVec 80 → State := fun ir dr => { s with chip.jtag.ir := ir, chip.jtag.irOut := 0b00001, chip.jtag.dr := dr }
    (j.extest = false →
      exec .idcode s = .next (selected 0b00001 0x2A440C5B) ∧
      (∀ ir : BitVec 5, ir ∉ [0b00000, 0b00001, 0b00010, 0b10000, 0b10001] → exec (.bypass ir) s = .next (selected ir 0)) ∧
      exec .delaycalRead s = .next (selected 0b10000
        (entry (t.decks.get 3) ++ entry (t.decks.get 2) ++ entry (t.decks.get 1) ++ entry (t.decks.get 0) ++ entry t.central)) ∧
      (j.isoOn = false → exec .testLogicReset s = .next { s with chip.jtag.ir := 0b00001 }) ∧
      (∀ pattern, ∃ cells, safe cells ∧ (safe pattern → cells = pattern) ∧
        exec (.samplePreload pattern) s = .next { selected 0b00010 j.dr with chip.jtag.boundary := cells } ∧
        (∃ u, exec (.extest none) s = .next u ∧ u.chip.jtag = { j with ir := 0, irOut := 0b00001, extest := true } ∧
          u.chip.emergency.jtag = 0xF ∧ ∀ d, u.chip.deckHeld d = true) ∧
        ((∀ d, s.chip.deckHeld d = true) → s.chip.emergency.jtag = 0 →
          let mask : BitVec 12 := 0xF#4 ++ s.chip.emergency.thermal ++ s.chip.emergency.hold
          let logged := ({ s with chip.log := s.logged 2 0x60 148 0 0xFF 1 0 0 } : State).logged 2 0x61 155 0 0xFF (mask.setWidth 32) 0 0
          let ends := { selected 0b00000 j.dr with chip.jtag.extest := true, chip.emergency.jtag := 0xF, chip.log := logged }
          exec (.extest none) s = .next ends ∧
          exec (.extest (some pattern)) s = .next { ends with chip.jtag.boundary := cells })) ∧
      (let capture := (BitVec.ofNat 80 (j.isoMacro.toNat + 32 * bit j.isoOn + 64 * bit j.isoRefused + 128 * bit s.chip.declaredErasure.isSome))
       let captured := selected 0b10001 capture
       ∀ m : Fin 19,
        (s.chip.declaredErasure = none → s.chip.sram.isolated = none → s.chip.sram.erased = none → j.isoOn = false →
          exec (.macroIsolate (BitVec.ofNat 8 (128 + m.val))) s = .next { captured with
            chip.jtag.isoOn := true, chip.jtag.isoMacro := BitVec.ofNat 5 m.val, chip.jtag.isoRefused := false
            chip.sram.isolated := some m, chip.sram.erased := some m, chip.sram.erasePending := false, chip.sram.declared := none
            chip.log := ({ s with chip.log := s.logged 2 0x15 148 0 0xFF (BitVec.ofNat 32 m.val) 1 0 } : State).logged 2 0x16 153 0 0xFF
              (BitVec.ofNat 32 m.val) 0 0 }) ∧
        (j.isoOn = false → exec (.macroIsolate (BitVec.ofNat 8 m.val)) s = .next { captured with chip.jtag.isoRefused := false }) ∧
        (j.isoOn = true → s.chip.declaredErasure = none → s.chip.sram.erased = some m →
          exec (.macroIsolate (BitVec.ofNat 8 m.val)) s = .next { captured with
            chip.jtag.isoOn := false, chip.jtag.isoMacro := 0, chip.jtag.isoRefused := false
            chip.sram.isolated := none, chip.sram.erased := none, chip.sram.erasePending := false, chip.sram.declared := none
            chip.log := ({ s with chip.log := s.logged 2 0x15 148 0 0xFF (j.isoMacro.setWidth 32) 0 0 } : State).logged 2 0x16 153 0 0xFF
              0xFF 0 0 }) ∧
        ((j.isoOn = true ∧ j.isoMacro ≠ BitVec.ofNat 5 m.val ∨ ∃ a, s.chip.declaredErasure = some a ∧ a ≠ m) →
          exec (.macroIsolate (BitVec.ofNat 8 (128 + m.val))) s = .next { captured with chip.jtag.isoRefused := true }))) ∧
    (j.extest = true → s.chip.emergency.jtag ≠ 0 →
      let mask : BitVec 12 := 0#4 ++ s.chip.emergency.thermal ++ s.chip.emergency.hold
      exec .idcode s = .next { selected 0b00001 0x2A440C5B with
        chip.jtag.extest := false, chip.emergency.jtag := 0
        chip.log := ({ s with chip.log := s.logged 2 0x60 148 0 0xFF 0 0 0 } : State).logged 2 0x61 155 0 0xFF (mask.setWidth 32) 0 0 }) ∧
    (∀ pads, s.chip.extestPads = some pads → ∀ (d : Deck) (a : Axis), ((s.chip.decks.get d).io.axes.get a).tripIn = true →
      ∀ i ∈ axisLegs d a, (pads[i]?).getD false = false ∧ (pads[i + 2]?).getD false = false)

/-- Domain control: policies and idle reports, wakes, deck holds and SRAM groups (R35, R108, R465–R470). -/
def Obligations.DomainControl : Prop :=
  ∀ s : State,
    let x := s.chip.domains
    let isOn := fun n : Nat => (x.on[n]?).getD false = true
    let without := fun ns : List Nat => x.mirror.filter fun m => m.1 ∉ ns
    (∀ n : Fin 148, let off := s.chip.switchable n.val = true ∧ isOn n.val ∧ x.acts n.val ≠ 0 ∧ s.chip.domIdle n.val = true
      (off → ∃ sites : Vector Site 18,
        (∀ j, sites.get j = { s.chip.funnel.sites.get j with requests := (sites.get j).requests } ∧
          ((s.chip.funnel.sites.get j).requests = [] → (sites.get j).requests = [])) ∧
        exec (.domainAutoOff n) s = .next { s with
          chip.domains.on := x.on.set n.val false
          chip.domains.mirror := x.mirror ++ s.chip.domainWords n.val
          chip.funnel.sites := sites }) ∧
      (¬ off → exec (.domainAutoOff n) s = .next s)) ∧
    (∀ n : Fin 148, (isOn n.val ∨ s.chip.power.warning = true → exec (.domainWake n) s = .next s) ∧
      (let needed := 32 ≤ n.val ∨ ∃ c ∈ s.chip.openQ, c.ctx.val / 4 = n.val - 16
       16 ≤ n.val → n.val ≤ 35 → ¬ isOn n.val → s.chip.power.warning = false → s.chip.power.core = true →
        x.policy[n.val]? = some 1 → n.val ∉ s.chip.log.held → n.val ∉ x.recovering →
        (needed → exec (.domainWake n) s = .next { s with
          chip.domains.on := x.on.set n.val true, chip.domains.wakes := x.wakes + 1, chip.domains.mirror := without [n.val] }) ∧
        (¬ needed → exec (.domainWake n) s = .next s))) ∧
    (s.Reached → x.deckOff = 0 →
      (∀ v : BitVec 4, (∀ d : Deck, v.getLsbD d.val = true → (s.chip.decks.get d).lock.state ≠ .free ∨ (s.chip.decks.get d).seq.state = .ready) →
        exec (.deckHold v) s = .next { s with chip.domains.deckHold := v, chip.domains.holdPend := v }) ∧
      (∀ d : Deck, (s.chip.decks.get d).lock.state = .free → (s.chip.decks.get d).seq.state = .empty →
        let v := BitVec.ofNat 4 (2 ^ d.val)
        ∃ u, exec (.deckHold v) s = .next u ∧ u.chip.domains.deckHold = v ∧ u.chip.domains.holdPend = 0 ∧ u.chip.domains.deckOff = v ∧
          u.chip.decks = s.chip.decks.set d { (s.chip.decks.get d).cleared with lock := (s.chip.decks.get d).lock } ∧
          u.chip.domains.on = (deckDomains d).foldl (fun l n => l.set n false) x.on ∧
          u.chip.timebase = { s.chip.timebase with decks := s.chip.timebase.decks.set d Lines.reset })) ∧
    (∀ d : Deck, s.Reached → x.deckOff = BitVec.ofNat 4 (2 ^ d.val) → s.chip.power.decksOn = true → s.chip.log.held = [] → x.recovering = [] →
      x.on.length = 148 → s.OnRef →
      exec (.deckHold 0) s = .next { s with
        chip.domains.deckHold := 0, chip.domains.holdPend := 0, chip.domains.deckOff := 0, chip.domains.mirror := without (deckDomains d)
        chip.domains.on := (deckDomains d).foldl (fun l n => l.set n true) x.on
        chip.timebase.decks := s.chip.timebase.decks.set d { s.chip.timebase.decks.get d with shadowBusy := true } }) ∧
    (∀ v : BitVec 4, s.Reached → x.sramActive = 0 →
      ((∀ j, retEntry s.chip.retireList 3 j = false) →
        exec (.sramOff v) s = .next { s with chip.domains.sramOff := v, chip.domains.sramPend := v }) ∧
      (∀ q : Fin 4, v = BitVec.ofNat 4 (2 ^ q.val) →
        (∀ j < 4, retEntry s.chip.retireList 3 (4 * q.val + j) = true ∧ s.chip.ladle.bankHeld (4 * q.val + j) = false) →
        exec (.sramOff v) s = .next { s with
          chip.domains.sramOff := v, chip.domains.sramActive := v, chip.domains.sramPend := 0
          chip.domains.on := (groupDomains q.val).foldl (fun l n => l.set n false) x.on })) ∧
    (∀ q : Fin 4, s.Reached → x.sramActive = BitVec.ofNat 4 (2 ^ q.val) → s.chip.power.core = true →
      exec (.sramOff 0) s = .next { s with
        chip.domains.sramOff := 0, chip.domains.sramActive := 0, chip.domains.sramPend := 0
        chip.domains.on := (groupDomains q.val).foldl (fun l n => l.set n true) x.on
        chip.domains.mirror := without (groupDomains q.val)
        chip.sram.mem := s.chip.sram.mem.filter fun c => c.1 / 2097152 ≠ q.val })

/-- Table 19-6's rows as commands (R46, R74, R88, R104, R107, R114, R474, R475, R518): from VIN valid to the decks under control. -/
def Obligations.PowerUpTimeline : Prop :=
  ∀ s : State,
    let c := s.chip
    let without := fun ns : List Nat => c.domains.mirror.filter fun m => m.1 ∉ ns
    (∀ vin : BitVec 10, c.power.valid = false →
      exec (.powerOn vin) s = .next { s with chip := { Chip.reset with
        power := { Power.reset with
          valid := true, vin := vin, vinLow := if vin.toNat < 0x3FF then vin else 0x3FF
          vioe := c.power.vioe, viod := c.power.viod, viom := c.power.viom, resetLow := c.power.resetLow }
        domains.on := ((Domains.reset.on.set 0 true).set 1 true).set 2 true
        timebase.running := true
        log.pend := [{ kind := 2, code := 0x71, unit := 150, flags := 1, seq := 0, time := 0, object := 0, ctx := 0xFF, arg0 := 0, arg1 := 0, arg2 := 0 }]
        ehran := c.ehran.map EhranPort.pins
        freeUsed := c.freeUsed } }) ∧
    (c.power.valid = true →
      exec .v3aUp s = .next { s with chip.power.v3a := true } ∧
      exec .alwaysOnReady s = .next { s with chip.i2c.ready := true, chip.jtag.ready := true } ∧
      (∀ ma : BitVec 3, c.timebase.trimsRead = false → (∀ n, (c.funnel.sites.get n).requests = []) →
        exec (.trimRead ma) s = .next { s with
          chip.power.ma := ma, chip.timebase.trimsRead := true, chip.domains.on := c.domains.on.set 1 false
          chip.i2c.addr := BitVec.ofNat 7 (0x30 + ma.toNat) })) ∧
    (c.power.valid = true → c.power.core = false → c.power.warning = false → c.power.waiting = false →
      (∀ (boot : BitVec 2) (simple : Bool),
        let widths := fun g : Generation => { g with ports := Vector.ofFn fun p : Port => if p.val < 4 then { g.ports.get p with wide := simple } else g.ports.get p }
        let sampled : State := { s with
          chip.power.bootmode := boot, chip.power.simple := simple
          chip.cook.bootHold := !boot.getLsbD 0
          chip.ehran := c.ehran.map fun e : EhranPort => { e with width16 := simple }
          chip.passQ.staged := widths c.passQ.staged, chip.passQ.active := widths c.passQ.active }
        (boot.getLsbD 1 = true → c.domains.deckOff = 0 →
          exec (.strapSample boot simple) s = .next { sampled with chip.domains.deckHold := 0, chip.domains.holdPend := 0 }) ∧
        (boot.getLsbD 1 = false → c.domains.deckOff = 0xF →
          exec (.strapSample boot simple) s = .next { sampled with chip.domains.deckHold := 0xF, chip.domains.holdPend := 0 }) ∧
        (boot.getLsbD 1 = false → c.domains.deckOff = 0 → (∀ d, (c.decks.get d).seq.state = .dormant ∧ (c.decks.get d).lock.state = .free) →
          ∃ u, exec (.strapSample boot simple) s = .next u ∧ u.chip.domains.deckHold = 0xF ∧ u.chip.domains.deckOff = 0xF ∧
            u.chip.power = sampled.chip.power ∧ u.chip.ehran = sampled.chip.ehran ∧ u.chip.passQ = sampled.chip.passQ ∧
            ∀ d, u.chip.decks.get d = { (c.decks.get d).cleared with lock := (c.decks.get d).lock })) ∧
      (c.power.v3a = true → c.power.resetLow = true → exec .startupPhaseBegin s = .next { s with chip.power.waiting := true }) ∧
      (c.power.v3a = true → c.power.resetLow = false → ∃ kettle ehran spi,
        exec .startupPhaseBegin s = .next { s with
          chip.power.core := true, chip.power.inReset := false
          chip.domains.on := c.coreDomains.foldl (fun l n => l.set n true) c.domains.on, chip.domains.mirror := without c.coreDomains
          chip.kettle := kettle, chip.ehran := ehran, chip.spi := spi })) ∧
    (c.power.core = true → c.power.warning = false → c.ladle.built = true → c.cook.state = .off → c.cook.restarting = false →
      let on := (c.domains.on.set 9 true).set 10 true
      (c.cook.bootHold = true → c.cook.keptRelease = false →
        exec .cookBoot s = .next { s with chip.domains.on := on, chip.domains.mirror := without [9, 10], chip.cook.state := .held }) ∧
      (c.cook.bootHold = false → c.power.valid = true → c.passQ.active.patchCfg.getLsbD 0 = false →
        let boots : Byte := if c.cook.boots = 255 then 255 else c.cook.boots + 1
        exec .cookBoot s = .next { s with
          chip.domains.on := on, chip.domains.mirror := without [9, 10], chip.power.cookTook := true
          chip.cook := { c.cook with
            state := .running, patchActive := false, patchRejected := false, boots := boots, keptRelease := false, hooks := []
            patchRam := c.passQ.active.patchWords }
          chip.log := s.logged 2 0x42 154 0 0xFF (boots.setWidth 32) ((c.passQ.active.patchCfg.extractLsb' 16 16).setWidth 32) 0 })) ∧
    (c.power.core = true → c.power.warning = false → c.power.decksOn = false → c.domains.deckOff = 0 → c.log.held = [] → c.domains.recovering = [] →
      c.domains.on.length = 148 → s.OnRef →
      exec .deckDomainsOn s = .next { s with
        chip.power.decksOn := true
        chip.domains.on := (allDecks.flatMap deckDomains).foldl (fun l n => l.set n true) c.domains.on
        chip.domains.mirror := without (allDecks.flatMap deckDomains)
        chip.timebase.decks := c.timebase.decks.map fun l : Lines => { l with shadowBusy := true } }) ∧
    (c.power.core = true → c.power.decksOn = true → c.power.warning = false → exec .decksControllable s = .next { s with chip.power.control := true })

/-- The resets of Table 19-4, the power-fail sequence of Table 19-8 and its registers (R461–R464, R471–R473, R479–R484). -/
def Obligations.ResetsAndPowerFailure : Prop :=
  ∀ s : State, s.chip.power.valid = true →
    let c := s.chip
    let p := c.power
    let threshold := max 300 (min 450 p.pfw.toNat)
    let kept := fun u : Chip => u.timebase.time = c.timebase.time ∧ u.timebase.running = c.timebase.running ∧
      u.passQ.active.retire = c.passQ.active.retire ∧ u.sram.mem = c.sram.mem
    let cleared := fun u : Chip => u.ctxs = Chip.reset.ctxs ∧ u.ladle = Ladle.reset ∧ u.held = [] ∧ u.openQ = [] ∧ u.merge = Chip.reset.merge ∧
      ∀ d, (u.decks.get d).lock = DeckLock.reset ∧ (u.decks.get d).seq = DeckSeq.reset ∧ (u.decks.get d).staged = [] ∧
        (u.decks.get d).workQ = [] ∧ (u.decks.get d).cookQ = []
    (p.core = true → p.warning = false → c.jtag.isoOn = false → ∃ u, exec .resetAssert s = .next u ∧ u.pending = s.pending ∧
      u.chip.power = { p with core := false, cookTook := false, decksOn := false, control := false, resetLow := true, waiting := true, inReset := true } ∧
      u.chip.log = { c.log with held := [] } ∧ kept u.chip ∧ cleared u.chip ∧ u.chip.events = []) ∧
    (p.core = false ∨ p.warning = true → exec .resetAssert s = .next { s with chip.power.resetLow := true }) ∧
    (∀ boot simple, p.waiting = true → p.inReset = true → p.warning = false → p.core = false → ∃ u, exec (.resetRelease boot simple) s = .next u ∧
      u.chip.power.core = true ∧ u.chip.power.resetLow = false ∧ u.chip.power.waiting = false ∧ u.chip.power.inReset = false ∧ u.chip.power.lastStart = 1 ∧
      u.chip.power.cntReset = p.cntReset + 1 ∧ u.chip.power.bootmode = boot ∧ u.chip.power.simple = simple ∧ kept u.chip) ∧
    exec .uvloFall s = .next { s with chip := { Chip.reset with
      power := { Power.reset with vioe := p.vioe, viod := p.viod, viom := p.viom, resetLow := p.resetLow }
      ehran := c.ehran.map EhranPort.pins
      freeUsed := c.freeUsed } } ∧
    (∀ (vin vinSeal : BitVec 10) (gap : W32), p.armed = true → p.warning = false → vin.toNat < threshold → ∃ u,
      exec (.powerFailWarning vin vinSeal gap) s = .next u ∧
      u.chip.power.warning = true ∧ u.chip.power.sealed = true ∧ u.chip.power.armed = false ∧ u.chip.power.core = false ∧
      u.chip.power.cntWarn = p.cntWarn + 1 ∧ u.chip.power.tWarn = c.now ∧ u.chip.power.vin = vinSeal ∧ u.chip.cook.state = .off ∧
      u.chip.sram.mem = [] ∧ u.chip.sram.initDone = false ∧ u.chip.log.sealed = true ∧ u.chip.log.pend = [] ∧
      (∀ i, c.cookCan = true → (c.ctxs.get i).state = .open → (u.chip.ctxs.get i).executing = []) ∧
      ∀ d, (c.decks.get d).loops.running = true → (c.decks.get d).seq.state ≠ .safe → (c.decks.get d).seq.state ≠ .faultStop →
        (u.chip.decks.get d).roller.gate = false ∧ (u.chip.decks.get d).seq.state = .faultStop) ∧
    (∀ vin boot simple, p.sealed = true → p.resetLow = false → threshold + 10 ≤ vin.toNat → ∃ u, exec (.brownoutRestart vin boot simple) s = .next u ∧
      u.chip.power.core = true ∧ u.chip.power.warning = false ∧ u.chip.power.sealed = false ∧ u.chip.power.lastStart = 2 ∧
      u.chip.power.cntReset = p.cntReset + 1 ∧ u.chip.power.vin = vin ∧ u.chip.log.sealed = false ∧ kept u.chip) ∧
    (∀ vin : BitVec 10, p.warning = false → threshold + 10 ≤ vin.toNat →
      exec (.warningArm vin) s = .next { s with
        chip.power.vin := vin, chip.power.vinLow := if vin.toNat < p.vinLow.toNat then vin else p.vinLow, chip.power.armed := true }) ∧
    (s.Reached →
      (∀ v : W32, exec (.pwrPfwWrite v) s = .next { s with chip.power.pfw := v.setWidth 9, chip.power.armed := false }) ∧
      exec .pwrClearLow s = .next { s with chip.power.vinLow := p.vin } ∧
      exec .pwrTWarnLoRead s = .next { s with chip.power.tLatch := p.tWarn.extractLsb' 32 32 }) ∧
    (∀ good, exec (.vioBankChange 5 good) s = .next { s with chip.power.viom := good }) ∧
    (∀ d : Deck, exec (.vioBankChange ⟨d.val + 1, by omega⟩ true) s = .next { s with chip.power.viod := p.viod.set d true }) ∧
    ((∀ q : EPort, (c.ehran.get q).sel = false) → exec (.vioBankChange 0 true) s = .next { s with chip.power.vioe := true })

/-- Loss of the reference (R52, R53), the emergency stop and the banks (R464, R522). A write in progress goes on to its piece boundary (R357). -/
def Obligations.StopsFromOutside : Prop :=
  ∀ s : State, s.chip.power.valid = true →
    let c := s.chip
    let stops := fun (u : State) (d : Deck) (cause : Byte) => (u.chip.decks.get d).seq.state = .faultStop ∧ (u.chip.decks.get d).seq.cause = cause ∧
      (u.chip.decks.get d).seq.rest = false ∧ (u.chip.decks.get d).seq.op = none ∧ (u.chip.decks.get d).seq.capSpeed = 0 ∧
      (u.chip.decks.get d).seq.waiters = [] ∧
      (u.chip.decks.get d).roller.stopAt = (c.decks.get d).roller.stopsAt ∧ (u.chip.decks.get d).roller.gate = (c.decks.get d).roller.stopsAt.isSome
    let moves := fun d : Deck => (c.decks.get d).loops.running = true ∧ (c.decks.get d).seq.state ≠ .safe ∧ (c.decks.get d).seq.state ≠ .faultStop
    (s.OnRef → ∃ u, exec .referenceLoss s = .next u ∧ u.pending = s.pending ∧ u.chip.timebase = { c.timebase with
        refState := .freeRun, wasFree := true, lossTime := c.now
        central := { c.timebase.central with next := none, valid := false, shadowBusy := false, again := false }
        decks := c.timebase.decks.map fun l : Lines => { l with next := none, valid := false, shadowBusy := false, again := false }
        lossCount := if c.timebase.lossCount = 255 then 255 else c.timebase.lossCount + 1 } ∧
      ∀ d, (moves d → stops u d 0x08) ∧ ((c.decks.get d).loops.running = false ∨ (c.decks.get d).seq.state = .safe →
        (u.chip.decks.get d).seq.state = (c.decks.get d).seq.state)) ∧
    (s.Reached → ∀ hold coast : BitVec 4, ∃ u, exec (.emergencyHold hold coast) s = .next u ∧ u.chip.emergency.hold = hold ∧ u.chip.emergency.coast = coast ∧
      u.chip.emergency.thermal = c.emergency.thermal ∧
      (∀ d : Deck, c.deckHeld d = false → hold.getLsbD d.val = true → moves d → stops u d 0) ∧
      ((∀ d : Deck, hold.getLsbD d.val = true → c.deckHeld d = true) → ∃ log,
        u = { s with chip.emergency.hold := hold, chip.emergency.coast := coast, chip.log := log })) ∧
    (∀ d : Deck, c.deckHeld d = false → moves d → ∃ u, exec (.vioBankChange ⟨d.val + 1, by omega⟩ false) s = .next u ∧
      u.chip.power.viod = c.power.viod.set d false ∧ stops u d 0 ∧ ∀ a, ((u.chip.decks.get d).io.axes.get a).tripIn = false)

/-- The temperature sensors and their thresholds (R508, R509), with the thermal hold of R522. -/
def Obligations.TemperatureReadings : Prop :=
  ∀ s : State, s.chip.power.valid = true →
    let t := s.chip.temp
    (s.Reached → exec .tempClearPeak s = .next { s with chip.temp.peak := BitVec.ofInt 8 (t.hottest / 8) }) ∧
    ∀ readings : Vector (BitVec 12) 8, ∃ i : Fin 8,
      let r : Int := (readings.get i).toInt
      (∀ j, (readings.get j).toInt ≤ r) ∧ (∀ j, j < i → (readings.get j).toInt < r) ∧
      (r < 8 * t.warn.toNat - 40 → r < 880 → s.chip.emergency.thermal = 0 →
        exec (.tempSample readings.toList 0) s = .next { s with
          chip.temp := { t with
            sensors := readings, bad := 0, hottest := r, sensor := BitVec.ofNat 3 i.val
            peak := BitVec.ofInt 8 (max t.peak.toInt (r / 8))
            warning := false, limited := false, critical := false } }) ∧
      (880 ≤ r → ∃ u, exec (.tempSample readings.toList 0) s = .next u ∧
        u.chip.temp.critical = true ∧ u.chip.temp.hottest = r ∧ u.chip.emergency.thermal = 0xF ∧ u.chip.emergency.hold = s.chip.emergency.hold ∧
        (∀ d, u.chip.deckHeld d = true) ∧ u.chip.timebase = s.chip.timebase ∧ u.pending = s.pending)

/-- The log window (R515): what LOG_SEL chooses, what a read latches, and what the window's words return. The entries of the present instant
take their places first (log entry 19). -/
def Obligations.LogWindowLatchesTheEntry : Prop :=
  ∀ s : State,
    let l := s.chip.log.settle
    let slot := 2 * (l.sel.extractLsb' 0 8).toNat + (if l.sel.getLsbD 8 then 1 else 0)
    let latches := fun win : List Byte => win.length = 32 ∧ exec (.logWinRead false) s = .next { s with chip.log := { l with win := win } }
    (s.Reached →
      (l.sel.getLsbD 9 = false → l.store = [] → latches (List.replicate 32 0)) ∧
      (∀ e es, l.sel.getLsbD 9 = false → l.store = e :: es → latches e.bytes) ∧
      (l.sel.getLsbD 9 = true → (∀ x ∈ l.slots, x.1 ≠ slot) → latches (List.replicate 32 0)) ∧
      (∀ front e back, l.sel.getLsbD 9 = true → l.slots = front ++ (slot, e) :: back → (∀ x ∈ front, x.1 ≠ slot) → latches e.bytes)) ∧
    (∀ (j k : Fin 8), k.val < 4 →
      (s.chip.readReg (0x0840 + 4 * j.val)).extractLsb' (8 * k.val) 8 = (s.chip.log.win[4 * j.val + k.val]?).getD 0)

/-- The log's other commands (R510, R516), the patch data port and the mirror's latch, all at the I2C port (R5, R107). -/
def Obligations.LogAndPatchCommands : Prop :=
  ∀ s : State, s.chip.power.valid = true → s.Reached →
    let l := s.chip.log.settle
    let c := s.chip
    (∀ e es, l.store = e :: es →
      exec (.logPop e.seq) s = .next { s with chip.log := { l with store := es } } ∧
      (l.sel.getLsbD 9 = false → exec (.logWinRead true) s = .next { s with
        chip.log := { l with win := ({ e with flags := e.flags ||| 8 } : LogEntry).bytes } })) ∧
    (∀ q, (∀ e ∈ l.store.head?, e.seq ≠ q) → exec (.logPop q) s = .next { s with chip.log := { l with popMiss := l.popMiss + 1 } }) ∧
    (∀ (unit : Byte) (which : BitVec 2), ∃ slots, exec (.logSlotClear unit which) s = .next { s with chip.log := { l with slots := slots } } ∧
      ∀ x, x ∈ slots ↔ x ∈ l.slots ∧ ¬ ∃ j : Fin 2, which.getLsbD j.val = true ∧ x.1 = 2 * unit.toNat + j.val) ∧
    (∀ unit : Byte, unit.toNat ∉ c.log.held → exec (.logRelease unit) s = .next s) ∧
    (∀ g : Fin 4, 32 + g.val ∈ c.log.held → c.power.core = true →
      exec (.logRelease (BitVec.ofNat 8 (32 + g.val))) s = .next { s with
        chip.domains.on := c.domains.on.set (32 + g.val) true
        chip.domains.mirror := c.domains.mirror.filter fun m => m.1 ≠ 32 + g.val
        chip.log := { s.logged 2 0x52 155 0 0xFF (BitVec.ofNat 32 (32 + g.val)) 0 0 with held := c.log.held.filter (· != 32 + g.val) } }) ∧
    exec (.cookPatchDataAccess none) s = .next { s with chip.cook.patchIndex := c.cook.patchIndex + 1 } ∧
    (∀ w : W32, ∃ words, exec (.cookPatchDataAccess (some w)) s = .next { s with
        chip.cook.patchIndex := c.cook.patchIndex + 1, chip.passQ.staged.patchWords := words } ∧
      ∀ i : BitVec 12, (words[i.toNat]?).getD 0 = if i = c.cook.patchIndex then w else (c.passQ.staged.patchWords[i.toNat]?).getD 0) ∧
    (∀ d : Deck, exec (.mirTimeLoRead d) s = .next { s with
      chip.emergency.mirror := c.emergency.mirror.set d { c.emergency.mirror.get d with latch := (c.emergency.mirror.get d).time.extractLsb' 32 32 } })

/-- Management register writes (R5, R12, R14, R113, R505, R506). -/
def Obligations.RegisterWrites : Prop :=
  ∀ (s : State) (v : W32),
    let after := fun (a : Nat) (t : State) =>
      exec (.registerWrite (BitVec.ofNat 16 a) v) s = .next { t with chip.i2c.pecOn := t.chip.i2c.pecEn }
    let g := s.chip.passQ.staged
    (¬ s.Reached → ∀ a, exec (.registerWrite a v) s = .next s) ∧
    (s.Reached →
      (∀ a : W16, a.toNat % 4 ≠ 0 ∨ 0x2600 ≤ a.toNat → after a.toNat s) ∧
      after 0x0104 { s with chip.kettle.vminCode := v.extractLsb' 0 7, chip.kettle.vmaxCode := v.extractLsb' 8 7 } ∧
      after 0x0814 { s with chip.log.sel := v.setWidth 10 } ∧
      after 0x1D80 { s with chip.i2c.pecEn := v.getLsbD 0 } ∧
      (∀ i : Ctx, after (0x0D00 + 4 * i.val) { s with
        chip.passQ.staged.cellQuota := g.cellQuota.set i (v.extractLsb' 0 15)
        chip.passQ.staged.blockQuota := g.blockQuota.set i (v.extractLsb' 16 7) }) ∧
      (∀ k : Fin 3, after (0x1000 + 16 * k.val) { s with
        chip.passQ.staged.sites := g.sites.set k { g.sites.get k with
          deadline := v.getLsbD 0, park := v.getLsbD 1, burst := v.extractLsb' 8 8, aging := v.extractLsb' 16 16 } }))

/-- The Cook (R495–R498, R518, R519). The micro-PC of a halt is a free value (log entry 8). -/
def Obligations.CookStates : Prop :=
  ∀ s : State, s.chip.power.valid = true → s.chip.cache.wb = [] → (∀ q, ∀ l ∈ s.chip.cache.sets.get q, l.dirty = false) →
    let c := s.chip
    let k := c.cook
    let active := k.state = .running ∨ k.state = .handler
    let entersSafe := fun i : Instr => ∃ u, exec i s = .next u ∧ u.pending = s.pending ∧ u.chip.cook = { k with state := .halted, safe := true } ∧
      u.chip.timebase = c.timebase ∧ u.chip.power = c.power ∧ ∀ d, c.servoOn d = true → (u.chip.decks.get d).seq.state = .safe ∧ (u.chip.decks.get d).seq.op = none
    (s.Reached →
      (k.state = .held → exec .cookRelease s = .next { s with chip.cook.state := .booting }) ∧
      (k.state = .off → exec .cookRelease s = .next { s with chip.cook.keptRelease := true }) ∧
      (k.state ≠ .held → k.state ≠ .off → exec .cookRelease s = .next s)) ∧
    (∀ (cause : Nat) (pc : W32), k.state = .running →
      let trapped := fun (object : W32) => { s with
        chip.cook := { k with state := .handler, traps := k.traps + 1, lastTrap := pc }
        chip.log := s.logged 2 0x40 9 0 0xFF (BitVec.ofNat 32 cause) pc object }
      exec (.cookTrap cause pc none) s = .next (trapped 0) ∧
      (∀ (i : Ctx) (e : Executing), (c.ctxs.get i).state = .open → (c.ctxs.get i).executing = [e] → ∃ ctxs decks held raising tongsQ,
        exec (.cookTrap cause pc (some (i, e.tag))) s = .next { trapped (e.tag.setWidth 32) with
          chip.ctxs := ctxs, chip.decks := decks, chip.held := held, chip.kettle.raising := raising, chip.tongsQ := tongsQ } ∧
        (ctxs.get i).executing = [] ∧
        (ctxs.get i).rpl = (c.ctxs.get i).rpl ++ [{ type := 0x80, ctx := BitVec.ofNat 8 i.val, tag := e.tag, stat := 0xC05, payload := []
                                                    trailer := e.rcrc, time := c.now, fetch := none }] ∧
        (∀ j, j ≠ i → ctxs.get j = c.ctxs.get j) ∧
        ∀ d, (decks.get d).tape = (c.decks.get d).tape ∧ (decks.get d).io = (c.decks.get d).io ∧ (decks.get d).loops = (c.decks.get d).loops)) ∧
    (∀ pc : W32, k.state = .handler →
      (k.safe = true → exec (.cookDoubleFault 2 pc) s = .next { s with
        chip.cook.state := .halted, chip.log := s.logged 2 0x41 9 0 0xFF 2 pc 0 }) ∧
      (k.safe = false → entersSafe (.cookDoubleFault 2 pc))) ∧
    (active → k.safe = false → (s.Reached → entersSafe .cookHalt) ∧ (c.cookHasWork = true → entersSafe .cookSupervisionTimeout)) ∧
    (¬ active → exec .cookHalt s = .next s) ∧ (c.cookHasWork = false → exec .cookSupervisionTimeout s = .next s) ∧
    (active ∨ k.state = .halted →
      (s.Reached → ∃ ctxs decks held raising sites mirror, exec .cookRestartRequest s = .next { s with
        chip.cook := { k with state := .booting, restarting := true, patchActive := false, hooks := [], patchRam := [] }
        chip.cache := Cache.reset, chip.tongsQ := []
        chip.domains.on := (c.domains.on.set 9 false).set 10 false, chip.domains.mirror := mirror, chip.funnel.sites := sites
        chip.ctxs := ctxs, chip.decks := decks, chip.held := held, chip.kettle.raising := raising } ∧
        ∀ i, ctxs.get i = { c.ctxs.get i with executing := [] }) ∧
      ∃ u, exec .cookRestart s = .next u ∧ u.chip.cook.state = .running ∧ u.chip.cook.safe = false ∧ u.chip.cook.restarting = false ∧
        u.chip.cook.boots = (if k.boots = 255 then 255 else k.boots + 1) ∧ (∀ i, (u.chip.ctxs.get i).executing = []) ∧
        u.chip.cache = Cache.reset ∧ u.chip.timebase.time = c.timebase.time)

/-- Engine faults (R499, R500) and Tongs (R252, R284). -/
def Obligations.UnitFaultsAndTongs : Prop :=
  ∀ s : State, s.chip.power.valid = true →
    let c := s.chip
    (∀ (g : Fin 4) (detail : W32), let n := 32 + g.val
      let drop := c.merge.set (Fin.ofNat 9 (5 + g.val)) []
      let unit : Fin 148 := ⟨32 + g.val, by omega⟩
      (c.domOn n = true → n ∉ c.log.held → n ∉ c.domains.recovering → ∃ sites mirror,
        exec (.engineFault unit detail) s = .next { s with
          chip.domains.on := c.domains.on.set n false, chip.domains.recovering := n :: c.domains.recovering
          chip.domains.mirror := mirror, chip.funnel.sites := sites
          chip.merge := drop, chip.log := s.logged 2 0x50 n 0 0xFF detail 0 0 }) ∧
      (n ∉ c.log.held → n ∈ c.domains.recovering → ∃ sites mirror,
        exec (.engineFault unit detail) s = .next { s with
          chip.domains.on := c.domains.on.set n false, chip.domains.recovering := c.domains.recovering.filter (· != n)
          chip.domains.mirror := mirror, chip.funnel.sites := sites
          chip.merge := drop, chip.log := { s.logged 2 0x50 n 0 0xFF detail 1 0 with held := insertNat n c.log.held } })) ∧
    (∀ (unit : Fin 148) (detail : W32), unit.val ∈ c.log.held ∨ (c.domOn unit.val = false ∧ unit.val ∉ c.domains.recovering) →
      exec (.engineFault unit detail) s = .next s) ∧
    (∀ (d : Deck) (j : Fin 6) (detail : W32), let n := 48 + 6 * d.val + j.val
      c.domOn n = true → n ∉ c.log.held → n ∉ c.domains.recovering → (c.decks.get d).loops.running = true →
      (c.decks.get d).seq.state ≠ .faultStop → (c.decks.get d).seq.state ≠ .safe →
      ∃ u, exec (.engineFault ⟨48 + 6 * d.val + j.val, by omega⟩ detail) s = .next u ∧
        (u.chip.decks.get d).seq.state = .faultStop ∧ (u.chip.decks.get d).seq.cause = 0x00 ∧ (u.chip.decks.get d).seq.op = none ∧
        u.chip.domOn n = false ∧ n ∈ u.chip.domains.recovering ∧ u.chip.timebase = c.timebase ∧
        ∀ e, e ≠ d → (u.chip.decks.get e).tape = (c.decks.get e).tape ∧ (u.chip.decks.get e).seq = (c.decks.get e).seq) ∧
    (∀ (channel : Fin 32) (job : Option (Ctx × W16)) (head : BitVec 18) (words : List (BitVec 18 × BitVec 18)) (damage : Damage),
      let g := channel.val / 8
      let row := fun ws : List (BitVec 18 × BitVec 18) => exec (.tongsDescriptor channel job head ws damage) s
      let used := s.unitUsed 17
      (c.domOn (32 + g) = false ∨ c.cook.safe = true ∨ c.grantFor 17 channel.val = false → row words = .next s) ∧
      (c.domOn (32 + g) = true → c.cook.safe = false → c.grantFor 17 channel.val = true → c.bankServes head = true →
        c.merge.get (Fin.ofNat 9 (5 + g)) = [] → s.Uncached head → (c.decodeWord head (errOf damage head)).result = .clean →
        row [] = .next { s with chip.funnel.sites := used } ∧
        ∀ a b : BitVec 18, c.bankServes a = true → c.bankServes b = true → s.Canonical → s.Uncached a → s.Uncached b →
          (c.decodeWord a (errOf damage a)).result = .clean →
          ∃ mem, s.puts mem b (sramEncode b (c.decodeWord a (errOf damage a)).data) ∧
            row [(a, b)] = .next { s with chip.funnel.sites := used, chip.sram.mem := mem }))

/-- Funnel's rounds (R248, R251, R253, R254, R257, R258, R263). -/
def Obligations.FunnelRounds : Prop :=
  ∀ (s : State) (n : Fin 18),
    let f := s.chip.funnel
    let x := f.sites.get n
    let k := siteKind n
    let t := s.chip.now
    let present := fun r : Wanting => s.chip.presenting k r.input r.blocks
    let raisedAt := fun r : Wanting => t - BitVec.ofNat 64 (1024 * r.ago.toNat)
    let request := fun r : Wanting => ({ input := r.input, blocks := present r, raised := raisedAt r, lostR := 1
                                         deadline := ((raisedAt r) >>> 10).setWidth 32 + ((x.ofs[r.input]?).getD 0).setWidth 32 } : Request)
    let waited := fun r : Wanting => (t - raisedAt r).toNat / 16000
    (x.frozen = true ∨ x.granted = true ∨ s.chip.power.core = false → ∀ wanting, ∃ rs,
      exec (.funnelRound n wanting) s = .next { s with chip.funnel.sites := f.sites.set n { x with requests := rs } }) ∧
    (n ≠ 16 → x.frozen = false → x.granted = false → x.parked = false → x.requests = [] → s.chip.power.core = true →
      x.cfg = s.chip.passQ.active.sites.get k → x.ofs = s.chip.passQ.active.offsets k →
      exec (.funnelRound n []) s = .next s ∧
      (∀ wanting : List Wanting, wanting ≠ [] → (wanting.map (·.input)).Nodup →
        (∀ r ∈ wanting, s.chip.mayRequest k r.input = true ∧ present r ≠ [] ∧ r.input < x.cfg.threshold.toNat) →
        x.cfg.deadline = false → x.used + 1 < x.cfg.windowSize →
        ∃ w ∈ wanting, ∃ g, (∀ r ∈ wanting, r.input ≤ w.input) ∧
          exec (.funnelRound n wanting) s = .next { s with chip.funnel := g } ∧
          g.sites = f.sites.set n { x with
            owner := w.input, granted := true, units := 0, burst := x.cfg.burstSize, used := x.used + 1, inUse := false
            block := x.nextBlock w.input (present w)
            turns := (w.input, x.nextBlock w.input (present w)) :: x.turns.filter (fun y => y.1 != w.input)
            requests := (wanting.filter (fun r => r.input ≠ w.input)).map request } ∧
          (∀ i, g.counters k.val i =
            if i = w.input then (f.counters k.val i).granted 0 (waited w)
            else if i ∈ wanting.map (·.input) then { f.counters k.val i with lost := satInc32 (f.counters k.val i).lost }
            else f.counters k.val i) ∧
          (∀ (k' : Fin 3) (i : Nat), k' ≠ k → g.counters k'.val i = f.counters k'.val i) ∧
          g.snap = f.snap ∧ g.cselIn = f.cselIn ∧ g.cselSite = f.cselSite ∧ g.cselBank = f.cselBank) ∧
      (∀ a b : Wanting, a.input ≠ b.input → b.ago.toNat < a.ago.toNat → s.chip.mayRequest k a.input = true → s.chip.mayRequest k b.input = true →
        present a ≠ [] → present b ≠ [] → x.cfg.deadline = true → x.ofs[a.input]? = x.ofs[b.input]? → ∃ g,
          exec (.funnelRound n [a, b]) s = .next { s with chip.funnel := g } ∧
          (g.sites.get n).owner = a.input ∧ (g.sites.get n).granted = true ∧ (g.sites.get n).inUse = false ∧
          (g.sites.get n).requests = [{ request b with deadline := (request b).deadline - x.cfg.aging.setWidth 32 }] ∧
          ∀ m, m ≠ n → g.sites.get m = f.sites.get m)) ∧
    (n = 16 → x.frozen = false → x.granted = false → x.parked = false → x.requests = [] → s.chip.power.core = true →
      x.cfg = s.chip.passQ.active.sites.get 1 → x.ofs = s.chip.passQ.active.offsets 1 → ∀ wanting,
      ((∀ i : Ctx, (s.chip.ctxs.get i).cmd = []) → exec (.funnelRound n wanting) s = .next s) ∧
      ∀ (a b : Ctx) (ta tb : W64), (∀ i : Ctx, s.chip.mayRequest 1 i.val = true ↔ i = a ∨ i = b) → a ≠ b →
        (s.chip.ctxs.get a).cmdAt.head? = some ta → (s.chip.ctxs.get b).cmdAt.head? = some tb → x.cfg.deadline = true →
        let head := fun (i : Ctx) (u : W64) => ({ input := i.val, blocks := [0], raised := u, lostR := 0
                                                  deadline := (u >>> 10).setWidth 32 + ((x.ofs[i.val]?).getD 0).setWidth 32 } : Request)
        let now := (t >>> 10).setWidth 32
        (head b tb).lateness now < (head a ta).lateness now → (head b tb).lateness now + x.cfg.aging.toNat < 0x3FFFFFFF → ∃ g,
          exec (.funnelRound n wanting) s = .next { s with chip.funnel := g } ∧
          (g.sites.get n).owner = a.val ∧ (g.sites.get n).granted = true ∧ (g.sites.get n).inUse = false ∧
          (g.sites.get n).requests = [{ head b tb with lostR := 1, deadline := (head b tb).deadline - x.cfg.aging.setWidth 32 }] ∧
          (∀ i, g.counters 1 i =
            if i = a.val then (f.counters 1 i).granted 0 ((t - ta).toNat / 16000)
            else if i = b.val then { f.counters 1 i with lost := satInc32 (f.counters 1 i).lost }
            else f.counters 1 i) ∧
          ∀ m, m ≠ n → g.sites.get m = f.sites.get m)

/-- The other commands of Funnel (R249, R252, R253, R257, R260, R263, R265). -/
def Obligations.FunnelUnitsAndRegisters : Prop :=
  ∀ s : State,
    let f := s.chip.funnel
    let t := s.chip.now
    let raise := fun (x : Site) (blocks : List Nat) (u : W64) => ({ input := x.owner, blocks := blocks, raised := u, lostR := 0
                                                                    deadline := (u >>> 10).setWidth 32 + ((x.ofs[x.owner]?).getD 0).setWidth 32 } : Request)
    let turned := fun (x : Site) (blocks : List Nat) => { x with
      inUse := false, block := x.nextBlock x.owner blocks
      turns := (x.owner, x.nextBlock x.owner blocks) :: x.turns.filter (fun y => y.1 != x.owner) }
    (∀ (n : Fin 18) (waiting : List Nat), let x := f.sites.get n
      let bs := s.chip.presenting (siteKind n) x.owner waiting
      let becomes := fun y : Site => exec (.funnelUnitDone n waiting) s = .next { s with chip.funnel.sites := f.sites.set n y }
      let more := s.chip.mayRequest (siteKind n) x.owner = true ∧ bs ≠ []
      (x.granted = false → exec (.funnelUnitDone n waiting) s = .next s) ∧
      (n ≠ 16 → x.granted = true →
        (x.units + 1 < x.burst → more → becomes (turned { x with units := x.units + 1 } bs)) ∧
        (x.burst ≤ x.units + 1 → more → becomes { x with
          units := x.units + 1, granted := false, inUse := false, parked := x.cfg.park && !x.frozen && x.requests.isEmpty
          requests := x.requests ++ [raise x bs t] }) ∧
        (¬ more → becomes { x with
          units := x.units + 1, granted := false, inUse := false, parked := x.cfg.park && !x.frozen && x.requests.isEmpty })) ∧
      (n = 16 → x.granted = true → ∀ i : Ctx, x.owner = i.val →
        (s.chip.mayRequest 1 i.val = true → x.units + 1 < x.burst → becomes (turned { x with units := x.units + 1 } waiting)) ∧
        ((∀ j : Ctx, j ≠ i → s.chip.mayRequest 1 j.val = false) →
          (∀ u, s.chip.mayRequest 1 i.val = true → (s.chip.ctxs.get i).cmdAt.head? = some u → x.burst ≤ x.units + 1 → becomes { x with
            units := x.units + 1, granted := false, inUse := false, parked := x.cfg.park && !x.frozen, requests := [raise x [0] u] }) ∧
          (s.chip.mayRequest 1 i.val = false → becomes { x with
            units := x.units + 1, granted := false, inUse := false, parked := x.cfg.park && !x.frozen, requests := [] })))) ∧
    (∀ (n : Fin 18) (waiting : List Nat), let x := f.sites.get n
      let bs := s.chip.presenting (siteKind n) x.owner waiting
      (x.parked = false → exec (.parkedRegrant n waiting) s = .next s) ∧
      (n ≠ 16 → s.chip.power.core = true → x.parked = true → x.frozen = false → x.granted = false → x.requests = [] →
        s.chip.mayRequest (siteKind n) x.owner = true → bs ≠ [] → x.owner < x.cfg.threshold.toNat → x.used + 1 < x.cfg.windowSize → ∃ g,
        exec (.parkedRegrant n waiting) s = .next { s with chip.funnel := g } ∧
        g.sites = f.sites.set n (turned { x with granted := true, units := 0, burst := x.cfg.burstSize, parked := false, used := x.used + 1 } bs) ∧
        g.counters (siteKind n).val x.owner = (f.counters (siteKind n).val x.owner).granted 0 0 ∧
        ∀ (k : Fin 3) (i : Nat), (k, i) ≠ (siteKind n, x.owner) → g.counters k.val i = f.counters k.val i)) ∧
    (∀ (n : Fin 18) (i : Nat) (waiting : List Nat), let x := f.sites.get n
      let count := bankBlocksOf i
      let last := ((x.turns.find? (fun y => y.1 == i)).map (fun y => y.2)).getD (count - 1)
      last < count → (∃ b ∈ waiting, b < count) → x.nextBlock i waiting ∈ waiting ∧ x.nextBlock i waiting < count ∧
        ∀ b ∈ waiting, b < count → (x.nextBlock i waiting + count - 1 - last) % count ≤ (b + count - 1 - last) % count) ∧
    (s.Reached → ∀ v : W32,
      exec (.funnelFreeze v) s = .next { s with chip.funnel.sites := Vector.ofFn fun n : Fin 18 =>
        { f.sites.get n with frozen := v.getLsbD n.val, parked := (f.sites.get n).parked && !v.getLsbD n.val } } ∧
      exec (.funnelClear v) s = .next { s with
        chip.funnel.bankCnt := if v.getLsbD 0 then Vector.replicate 12 .reset else f.bankCnt
        chip.funnel.portCnt := if v.getLsbD 1 then Vector.replicate 64 .reset else f.portCnt
        chip.funnel.moveCnt := if v.getLsbD 2 then Vector.replicate 32 .reset else f.moveCnt } ∧
      exec (.funnelCsel v) s = .next { s with
        chip.funnel.cselIn := v.extractLsb' 0 7, chip.funnel.cselSite := v.extractLsb' 8 2, chip.funnel.cselBank := v.extractLsb' 12 4
        chip.funnel.snap :=
          if v.extractLsb' 8 2 = 0 then (f.bankCnt[(v.extractLsb' 0 7).toNat]?).getD .reset
          else if v.extractLsb' 8 2 = 1 then (f.portCnt[(v.extractLsb' 0 7).toNat]?).getD .reset
          else (f.moveCnt[(v.extractLsb' 0 7).toNat]?).getD .reset })

/-- The read channel's link and counters (R360–R362, R376), with the position latch (R25, R349). -/
def Obligations.ReadChannelRegisters : Prop :=
  ∀ (s : State) (d : Deck),
    let k := s.chip.decks.get d
    let x := k.strainer
    let becomes := fun (i : Instr) (y : Strainer) => exec i s = .next (s.withDeck d { k with strainer := y })
    becomes (.readLinkAlign d) { x with aligned := true } ∧
    (x.aligned = true → becomes (.readLinkAlignLoss d) { x with
      aligned := false, alignLoss := x.alignLoss + 1, tracks := x.tracks.map fun t => { t with locked := false } }) ∧
    (x.aligned = false → ∀ (t : Fin 16) (skew : W16),
      exec (.readLinkAlignLoss d) s = .next s ∧ exec (.trackLock d t skew) s = .next s) ∧
    (∀ (t : Fin 16) (skew : W16), x.aligned = true →
      (-2048 ≤ skew.toInt ∧ skew.toInt ≤ 2048 → becomes (.trackLock d t skew) { x with
        tracks := x.tracks.set t { locked := true, misses := 0, skew := skew, dropped := false } }) ∧
      (skew.toInt < -2048 ∨ 2048 < skew.toInt → becomes (.trackLock d t skew) { x with
        tracks := x.tracks.set t { locked := false, misses := 0, skew := 0, dropped := true } })) ∧
    (∀ t : Fin 16,
      becomes (.trackUnlock d t true) { x with tracks := x.tracks.set t { locked := false, misses := 0, skew := 0, dropped := true } } ∧
      becomes (.trackUnlock d t false) { x with tracks := x.tracks.set t { locked := false, misses := 2, skew := 0, dropped := false } }) ∧
    (s.Reached →
      becomes (.strClearCounts d) { x with
        judged := 0, bad := 0, notFound := 0, codeViol := 0, c1 := 0, c2rows := 0, c3sds := 0, reread := 0, unrecovered := 0, alignLoss := 0 } ∧
      exec (.rolClearCounts d) s = .next (s.withDeck d { k with
        roller := { k.roller with datasets := 0, rewrites := 0, precaution := 0, skips := 0, failed := 0, overrun := 0 } }) ∧
      (s.chip.domOn (50 + 6 * d.val) = true → exec (.rolPosLoRead d) s = .next (s.withDeck d { k with
        roller := { k.roller with posLatch := (BitVec.ofInt 64 (k.positionAt s.chip.now)).extractLsb' 32 32, posTime := s.chip.now } })) ∧
      (s.chip.domOn (50 + 6 * d.val) = false → exec (.rolPosLoRead d) s = .next s))

/-- Reading one dataset in up to seven passes, stated for LOCATE (R363, R371–R375; R214). -/
def Obligations.ReadPasses : Prop :=
  ∀ (s : State) (d : Deck) (o : DeckOp) (l : Label),
    let k := s.chip.decks.get d
    let x := k.strainer
    k.seq.op = some o → k.tape.label = some l → o.moving = true →
    (∀ (n : W64) (q : ReadOrder) (passed : List Passed), o.op = .locate → o.silent = false → k.readQ = [q] → q = .read n ∨ q = .scan →
      k.rereadDue = false → k.seq.state = .streaming → x.stalled = false → s.chip.domOn (51 + 6 * d.val) = true →
      (x.reading = true → x.dataset = n.setWidth 32) →
      let seen := x.found l.tracks n passed
      let got := collectRows seen x.rows 0
      let r := decodePass got.1
      let ended := fun (st : Stat) => CookWork.endedMove (some { ctx := o.ctx, tag := o.tag, rcrc := o.rcrc, stat := st, payload := [] })
      let back := if x.pass = 0 then [] else [CookWork.reread 0]
      ∃ u, exec (.datasetRead d n passed) s = .next u ∧ u.pending = s.pending ∧ u.chip.timebase = s.chip.timebase ∧
        let y := u.chip.decks.get d
        let z := y.strainer
        z.notFound = x.notFound + BitVec.ofNat 32 (passed.length - seen.length) ∧
        z.codeViol = x.codeViol + BitVec.ofNat 32 (seen.map (fun c : Piece => codeViolations c.words)).sum ∧
        z.c1 = x.c1 + BitVec.ofNat 32 got.2 ∧ z.c2rows = x.c2rows + BitVec.ofNat 32 r.c2Rows ∧ z.c3sds = x.c3sds + BitVec.ofNat 32 r.c3Sds ∧
        z.dataset = n.setWidth 32 ∧ y.io = k.io ∧
        match r.payload with
        | none =>
          if x.pass.toNat < 6 then
            z.reading = true ∧ z.rows = got.1 ∧ z.unrecovered = x.unrecovered ∧ y.seq = k.seq ∧ y.tape = k.tape ∧ y.readQ = k.readQ ∧
              y.cookQ = k.cookQ ++ [.reread (x.pass.toNat + 1)]
          else z.reading = false ∧ z.rows = [] ∧ z.unrecovered = x.unrecovered + 1 ∧ y.seq.op = none ∧ y.readQ = [] ∧ y.tape.dataset = n ∧
            y.tape.mid = false ∧ y.cookQ = k.cookQ ++ back ++ [ended 0x702]
        | some p =>
          z.reading = false ∧ z.rows = [] ∧ z.pass = 0 ∧ z.unrecovered = x.unrecovered ∧
          match parseDataset k.tape.partition l.tracks p with
          | none => y.seq.op = none ∧ y.tape.dataset = n ∧ y.cookQ = k.cookQ ++ back ++ [ended 0x706]
          | some ds => y.tape.ds = some ds ∧ y.tape.wrap = ds.wrap) ∧
    (∀ i, s.Hears d i → x.reading = true → x.pass.toNat < 6 → k.seq.offset = x.pass.toNat + 1 →
      exec (.rereadPass d) s = .next ((s.told d i 0x47 (51 + 6 * d.val) (BitVec.ofNat 32 (x.pass.toNat + 1))).withDeck d { k with
        strainer := { x with pass := x.pass + 1, reread := x.reread + 1 }
        seq := { k.seq with op := some { o with rereads := o.rereads + 1 } } })) ∧
    (x.reading = false ∨ k.seq.offset ≠ x.pass.toNat + 1 → exec (.rereadPass d) s = .next s)

/-- Whisk's two engines on a deck (R299, R300, R310, R363, R490; R211, R212), and an entry read as poison (R278); what becomes of the number
of its record is the model's choice (log entry 92). -/
def Obligations.WhiskEngines : Prop :=
  ∀ (s : State) (d : Deck),
    let k := s.chip.decks.get d
    (k.lock.state = .free → ∀ slot damage, exec (.compressRecord d slot damage) s = .next s) ∧
    (∀ i, k.lock.owner = some i → (s.chip.ctxs.get i).wdata.get d = [] → ∀ slot damage, exec (.compressRecord d slot damage) s = .next s) ∧
    (∀ (i : Ctx) (r : Rec) (rest : List Rec) (slot : Option Nat) (damage : Damage), k.lock.owner = some i → (s.chip.ctxs.get i).wdata.get d = r :: rest →
      let entry := slot.toList.flatMap (s.chip.placeWords i (3 + d.val))
      let seen := s.chip.readEntry (4 + d.val) damage entry
      (s.chip.domOn (48 + 6 * d.val) = false ∨ entry.all s.chip.bankServes = false → exec (.compressRecord d slot damage) s = .next s) ∧
      (s.chip.domOn (48 + 6 * d.val) = true → s.chip.cook.safe = false → s.chip.cellsServed (r.chain ++ s.chip.outputCells r) = true →
        entry.all s.chip.bankServes = true → s.chip.ladle.sharesUsed < 1008 → k.staged = [] → k.orders = [] → k.seq.op = none → k.seq.waiters = [] →
        k.roller.open_ = none → k.roller.buffers.length = 3 →
        (seen.2 = true → rest = [] → s.chip.held = [] → (s.chip.ctxs.get i).ticket = none → k.tape.object.toNat = r.object.toNat + 1 →
          ∃ u, exec (.compressRecord d slot damage) s = .next u ∧
            (u.chip.ctxs.get i).wdata.get d = [] ∧ (u.chip.ctxs.get i).rpl = (s.chip.ctxs.get i).rpl ∧
            (u.chip.decks.get d).staged = [] ∧ (u.chip.decks.get d).tape = { k.tape with object := r.object } ∧
            (u.chip.decks.get d).roller = k.roller ∧ (∀ e, e ≠ d → u.chip.decks.get e = s.chip.decks.get e) ∧
            u.chip.timebase = s.chip.timebase) ∧
        (seen.2 = false →
        let got := (seen.1.readRuns (4 + d.val) damage (wordRuns (partBytes r.parts r.chain))).2
        let st := whiskStore (!r.raw) (fun b => ((got[b]?).map (·.2)).getD false) (got.map (·.1))
        ∃ u cells, exec (.compressRecord d slot damage) s = .next u ∧
          ((u.chip.ctxs.get i).wdata.get d) = rest ∧
          (u.chip.decks.get d).staged = [.stored { ctx := i, object := r.object, length := r.length, raw := st.raw, size := st.bytes.length
                                                   marked := st.poisonFrom.isSome, durable := r.durable, tag := r.tag, rcrc := r.rcrc
                                                   chain := cells, bytes := [] }] ∧
          (u.chip.decks.get d).poisoned = k.poisoned ++
            (if st.poisonFrom.isSome then [{ object := r.object, atRoller := false, tag := r.tag }] else []) ∧
          (u.chip.decks.get d).matcher.stored = k.matcher.stored + (if k.matcher.restAt.isSome then st.bytes.length else 0) ∧
          (u.chip.decks.get d).roller = k.roller ∧
          (∀ e, e ≠ d → u.chip.decks.get e = s.chip.decks.get e) ∧
          (∀ j, (u.chip.ctxs.get j).cmd = (s.chip.ctxs.get j).cmd ∧ (j ≠ i → (u.chip.ctxs.get j).wdata = (s.chip.ctxs.get j).wdata)) ∧
          u.chip.timebase = s.chip.timebase))) ∧
    (k.seq.op = none ∨ s.chip.domOn (49 + 6 * d.val) = false → ∀ bad, exec (.decompressRecord d bad) s = .next s) ∧
    (∀ (o : DeckOp) (e : Extract) (data : List Byte), k.toExpand = [e] → k.tape.current = none → k.tape.mid = false → k.strainer.stalled = false →
      e.first = true → e.last = true → (if e.raw then e.bytes.length = e.recLen + 4 else 4 ≤ e.bytes.length) →
      k.seq.op = some o → o.op = .readRecord → o.moving = true → o.delivered = 0 → o.silent = false → o.rereads = 0 → o.c3 = 0 → o.c2Data = 0 →
      leAt o.payload 4 4 = 0 → s.chip.held = [] → s.chip.domOn (49 + 6 * d.val) = true → s.chip.cook.safe = false → e.marked = false →
      whiskExpand e.raw false true (inWords []) e.recLen e.bytes = ⟨data, e.recLen, .good, none⟩ → 0 < e.recLen → e.recLen ≤ 4096 → data.length = e.recLen →
      ((s.chip.ctxs.get o.ctx).rdata.get d).length < (s.chip.ctxs.get o.ctx).depth (Fin.ofNat 11 (7 + d.val)) →
      ∃ u, exec (.decompressRecord d []) s = .next u ∧
        (u.chip.ctxs.get o.ctx).rdata.get d = (s.chip.ctxs.get o.ctx).rdata.get d ++
          [{ type := 0x81, ctx := BitVec.ofNat 8 o.ctx.val, tag := o.tag, stat := 0x000, payload := data, trailer := o.rcrc
             time := s.chip.now, fetch := none }] ∧
        (u.chip.decks.get d).cookQ = k.cookQ ++ [.endedMove (some { ctx := o.ctx, tag := o.tag, rcrc := o.rcrc, stat := 0x000
                                                                    payload := k.tape.readReply e.recLen e.recLen e.recLen })] ∧
        (u.chip.decks.get d).seq.op = none ∧ (u.chip.decks.get d).toExpand = [] ∧
        (u.chip.decks.get d).tape.object = k.tape.object + 1 ∧ (u.chip.decks.get d).tape.mid = false ∧
        u.chip.timebase = s.chip.timebase ∧ ∀ e, e ≠ d → u.chip.decks.get e = s.chip.decks.get e)

/-- Targets (R378, R380, R381, R390), run-outs (R386) and underruns (R387). -/
def Obligations.SpeedMatcherTargets : Prop :=
  ∀ (s : State) (d : Deck),
    let k := s.chip.decks.get d
    let m := k.matcher
    let on := s.chip.domOn (50 + 6 * d.val)
    (m.fills = [] ∨ on = false → exec (.speedRetarget d) s = .next s) ∧
    (∀ (f : Nat) (rest : List Nat) (p : Profile), m.fills = f :: rest → k.profile = some p → m.lo ≤ m.hi → on = true →
      let old := m.runOut.getD m.target
      let change : Int := Int.tdiv ((old : Int) * (f - 500)) 5000
      let limit : Int := max 1 (old / 50 : Nat)
      let moved : Int := old + max (-limit) (min limit change)
      let new := if m.policy.fixed then m.policy.fixedAt else (max (m.lo : Int) (min m.hi (max 0 moved))).toNat
      let announced := m.lastEvent = none ∨ (∃ x, m.lastEvent = some x ∧ (100 ≤ max new x - min new x ∨ ((new = m.lo ∨ new = m.hi) ∧ new ≠ x)))
      let after := fun e => { k with
        matcher := { m with fills := rest, runOut := none, target := new, lastEvent := e }, workQ := k.workQ ++ [.speed (new * p.speedMax / 10000)] }
      (¬ announced → exec (.speedRetarget d) s = .next (s.withDeck d (after m.lastEvent))) ∧
      (announced → ∀ i, s.Hears d i →
        exec (.speedRetarget d) s = .next ((s.told d i 0x03 (50 + 6 * d.val) (BitVec.ofNat 32 new)).withDeck d (after (some new))))) ∧
    (∀ (p : Profile) (l : Label) (b : DsBuf), k.profile = some p → k.tape.label = some l → k.roller.buffers = [b] → b.started = true →
      let v := m.target * p.speedMax / 10000
      let vb := runOutSpeed p
      let x := k.toPostamble b l s.chip.now
      (m.runOut = none → vb < v → x * (p.linePitch * 2 * p.accel : Nat) ≤ ((v * v - vb * vb) * 4096000000 : Nat) →
        exec (.runOutBrake d) s = .next (s.withDeck d { k with
          matcher := { m with runOut := some m.target, target := vb * 10000 / p.speedMax }, workQ := k.workQ ++ [.speed vb] })) ∧
      (m.runOut.isSome = true ∨ v ≤ vb → exec (.runOutBrake d) s = .next s)) ∧
    (∀ p : Profile, k.profile = some p → k.roller.gate = true → k.roller.buffers = [] → k.roller.stopAt = none → m.underrun = false →
      k.seq.state = .streaming → k.seq.op = none → on = true →
      let gap := mmCrumbs p 2
      let splices := fun (e next : Option Int) => exec (.underrun d) s = .next (s.withDeck d { k with
        matcher := { m with underrun := true, runOut := none }
        roller := { k.roller with eraseFrom := e, nextP0 := next }, workQ := k.workQ ++ [.stop] })
      let beyond := fun e : Int => if k.tape.wrap.getLsbD 0 then e - gap else e + gap
      (k.roller.tail = none → let e := k.positionAt s.chip.now
        splices (some e) (some (beyond e))) ∧
      (∀ (b : DsBuf) (l : Label), k.roller.tail = some b → k.tape.label = some l →
        splices (some (b.endAt l)) (if b.ds.kind = .data then some (beyond (b.endAt l)) else k.roller.nextP0))) ∧
    (k.roller.gate = false ∨ k.roller.buffers ≠ [] → exec (.underrun d) s = .next s)

/-- Stalls (R384, R385), restarts (R389, R390) and full read buffers (R383). -/
def Obligations.StallsAndRestarts : Prop :=
  ∀ (s : State) (d : Deck),
    let k := s.chip.decks.get d
    let m := k.matcher
    let on := s.chip.domOn (50 + 6 * d.val)
    (m.stallOn = false ∨ k.roller.open_ = none ∨ on = false → exec (.stallTimeout d) s = .next s) ∧
    (∀ (i : Ctx) (ds : Dataset), s.Hears d i → m.stallOn = true → k.roller.open_ = some ds → ds.entries ≠ [] → k.staged = [] → k.orders = [] →
      m.runOut = none → on = true →
      exec (.stallTimeout d) s = .next ((s.told d i 0x04 (50 + 6 * d.val) (BitVec.ofNat 32 (131072 - ds.user.length))).withDeck d { k with
        matcher := { m with stallOn := false }
        roller := { k.roller with open_ := none, openBlocks := [], buffers := k.roller.buffers ++ [DsBuf.fresh ds k.roller.openBlocks 0] } })) ∧
    (∀ (p : Profile) (l : Label) (b : DsBuf) (bs : List DsBuf), k.profile = some p → k.tape.label = some l → k.roller.buffers = b :: bs →
      let still := k.seq.state = .ready ∨ k.seq.state = .stopping ∨ (k.seq.state = .streaming ∧ k.seq.capSpeed = 0)
      (b.started = true ∨ .start ∈ k.workQ ∨ ¬ still ∨ on = false → exec (.deckRestart d) s = .next s) ∧
      (b.started = false → k.roller.open_ = none → k.roller.eodFailed = false → .start ∉ k.workQ → still → on = true →
        let t := match m.restAt with
          | some x => (s.chip.now - x).toNat
          | none => 0
        let new := if m.policy.fixed then m.policy.fixedAt else restartLaw m.lo m.hi p l.tracks l.cellLength m.stored t
        m.lastEvent = some new →
        exec (.deckRestart d) s = .next (s.withDeck d { k with
          matcher := { m with target := new, underrun := false, runOut := none }
          workQ := k.workQ ++ [.speed (new * p.speedMax / 10000), .start] }))) ∧
    (∀ o : DeckOp, k.seq.op = some o → o.moving = true → k.seq.state = .streaming →
      (k.toExpand = [] ∨ k.strainer.stalled = true → exec (.readBufferStall d) s = .next s) ∧
      (k.toExpand ≠ [] → k.strainer.stalled = false →
        exec (.readBufferStall d) s = .next (s.withDeck d { k with strainer := { k.strainer with stalled := true }, workQ := k.workQ ++ [.pause] })))

/-- The write link (R350–R357): each row at the instant that its fine part stamps. -/
def Obligations.DatasetsStartAndCellsGoOut : Prop :=
  ∀ (s0 : State) (d : Deck) (fine : BitVec 11),
    let s : State := { s0 with chip := s0.chip.stamp fine }
    let k := s.chip.decks.get d
    let r := k.roller
    let now := s.chip.now
    let on := s.chip.domOn (50 + 6 * d.val)
    let wide : W16 := BitVec.ofNat 16 (2 ^ k.tape.tracks - 1)
    let erase := fun m : Nat => if m % 4 < 2 then wide else 0
    (∀ (b : DsBuf) (bs : List DsBuf) (p : Profile) (l : Label), r.buffers = b :: bs → k.profile = some p → k.tape.label = some l →
      let w := k.wrapFor b.ds
      let x := k.startOf p l b now
      (b.started = true ∨ k.seq.state ≠ .streaming ∨ k.onCourse w = false ∨ on = false ∨ r.eodFailed = true ∨ r.stopAt.isSome = true →
        exec (.datasetStart d fine) s0 = .next s) ∧
      (b.started = false → k.seq.state = .streaming → k.onCourse w = true → on = true → r.eodFailed = false → r.stopAt = none →
        b.ds.fits p l w x = true → k.matcher.next = none →
        let begun := { r with
          gate := true, skipping := false, boundary := 0, lastCell := now, spoiled := [], eraseFrom := none
          nextP0 := if b.ds.kind = .label then r.nextP0 else none
          buffers := { b with started := true, p0 := x, ds := { b.ds with wrap := w } } :: bs }
        (b.ds.kind = .data → b.ds.partition = k.tape.partition → k.pastEw p l = false →
          exec (.datasetStart d fine) s0 = .next (s.withDeck d { k with
            roller := begun
            tape := { k.tape with marker := true, beyondEw := false, ewPosted := false
                                  incomplete := k.tape.incomplete.setIfInBounds k.tape.partition.toNat false }
            strainer := { k.strainer with dataset := b.ds.number.setWidth 32 }
            matcher := { k.matcher with underrun := false, fills := k.matcher.fills ++ [begun.fill] } })) ∧
        (b.ds.kind = .label →
          exec (.datasetStart d fine) s0 = .next (s.withDeck d { k with
            roller := begun
            strainer := { k.strainer with dataset := b.ds.number.setWidth 32 }
            matcher := { k.matcher with underrun := false } })))) ∧
    (on = false → exec (.cellBoundary d fine) s0 = .next s) ∧
    (r.gate = false → on = true →
      (k.gateDue now = false → exec (.cellBoundary d fine) s0 = .next s) ∧
      (k.gateDue now = true → r.stopAt = none →
        exec (.cellBoundary d fine) s0 = .next (s.withDeck d { k with roller := { r with gate := true, wl := erase 0, boundary := 1, lastCell := now } }))) ∧
    (r.gate = true → on = true → k.interpolated = false → r.stopAt = none → ∃ u, exec (.cellBoundary d fine) s0 = .next u ∧
      (u.chip.decks.get d).roller.stopAt = r.stopsAt ∧ (u.chip.decks.get d).roller.gate = r.stopsAt.isSome ∧
      (k.seq.state = .streaming → (u.chip.decks.get d).workQ = k.workQ ++ [.stop])) ∧
    (r.gate = true → on = true → k.interpolated = true →
      let at_ := k.cellInstant now
      let late := r.boundary ≠ 0 ∧ (at_ - r.lastCell).toInt < 500
      let burst := match r.outgoing with
        | some b => b.burst r.boundary
        | none => erase r.boundary
      (¬ late → (r.stopAt = none ∨ ∃ e, r.stopAt = some e ∧ r.boundary + 1 < e) →
        exec (.cellBoundary d fine) s0 = .next (s.withDeck d { k with roller := { r with wl := burst, boundary := r.boundary + 1, lastCell := at_ } })) ∧
      (¬ late → ∀ e, r.stopAt = some e → e ≤ r.boundary + 1 → ∃ u, exec (.cellBoundary d fine) s0 = .next u ∧
        (u.chip.decks.get d).roller.gate = false ∧ (u.chip.decks.get d).roller.stopAt = none ∧ (u.chip.decks.get d).roller.buffers = []) ∧
      (late → exec (.cellBoundary d fine) s0 = exec (.lateFrame d fine) s0)) ∧
    (∀ (b : DsBuf) (bs : List DsBuf), r.buffers = b :: bs → b.started = true → r.tail = none → r.gate = true → r.stopAt = none →
      let at_ := if r.boundary ≠ 0 ∧ (k.cellInstant now - r.lastCell).toInt < 500 then r.lastCell + 500 else k.cellInstant now
      (r.boundary < 360 → ∃ kettle, exec (.lateFrame d fine) s0 = .next { s.withDeck d { k with roller := { r with
          overrun := r.overrun + 1, boundary := r.boundary + 1, lastCell := at_, wl := erase r.boundary } } with
        chip.kettle := kettle
        chip.log := if s.chip.power.valid then s.logged 2 0x30 (50 + 6 * d.val) 0 0xFF ((satInc16 s.chip.kettle.overruns).setWidth 32) 0 0 else s.chip.log } ∧
        kettle.overruns = satInc16 s.chip.kettle.overruns ∧ kettle.overSite = BitVec.ofNat 8 (50 + 6 * d.val) ∧ kettle.decks = s.chip.kettle.decks) ∧
      (b.settled.length < 800 → ∃ u c, exec (.lateFrame d fine) s0 = .next u ∧ (u.chip.decks.get d).roller.buffers = c :: bs ∧
        (u.chip.decks.get d).roller.wl = erase r.boundary ∧ (u.chip.decks.get d).roller.overrun = r.overrun + 1 ∧
        ∀ x ∈ b.spoils r.boundary, x.1 ∉ r.spoiled → x ∈ b.waiting → x ∉ c.waiting ∧ x.1 ∈ c.everBad))

/-- Verify while writing (R358–R361, R365–R370). -/
def Obligations.PiecesAreJudgedAndRewritten : Prop :=
  ∀ (s : State) (d : Deck),
    let k := s.chip.decks.get d
    let r := k.roller
    let x := k.strainer
    (r.buffers = [] → r.tail = none →
      (∀ sd row copy frames, exec (.pieceJudge d sd row copy frames) s = .next s) ∧ exec (.trailerPlace d) s = .next s) ∧
    (∀ (b : DsBuf) (bs : List DsBuf), r.buffers = b :: bs → b.started = true → r.tail = none →
      let head := fun c : DsBuf => { r with buffers := c :: bs }
      (∀ (sd row copy : Nat) (frames : List W16),
        b.copyPlace (sd, row) copy = none ∨ s.chip.domOn (52 + 6 * d.val) = false → exec (.pieceJudge d sd row copy frames) s = .next s) ∧
      (∀ (sd row copy track : Nat) (slot : Option Nat) (frames : List W16), b.copyPlace (sd, row) copy = some (track, slot) →
        s.chip.domOn (52 + 6 * d.val) = true →
        let lock := (x.tracks[track]?).getD Track.reset
        let found : Option Piece :=
          if x.aligned ∧ lock.dropped = false then ({ track := track, slot := slot, frames := frames } : Passed).find (max b.ds.tracks 1) b.ds.number lock.locked
          else none
        let good := ∃ q h, found = some q ∧ q.header = some h ∧ h.sd = sd ∧ h.row = row ∧ h.rewrite = copy ∧ h.track = track ∧ verifyGood q.words = true
        let judged := fun bad : W32 => { x with
          dataset := b.ds.number.setWidth 32, judged := x.judged + 1, bad := bad
          notFound := if found.isSome then x.notFound else x.notFound + 1
          codeViol := x.codeViol + BitVec.ofNat 32 ((found.map fun q => codeViolations q.words).getD 0) }
        let left := b.waiting.filter (· ≠ ((sd, row), copy))
        (good → (sd, row) ∉ b.settled → b.settled.length < 799 →
          exec (.pieceJudge d sd row copy frames) s = .next (s.withDeck d { k with
            roller := head { b with waiting := left, bad := b.bad.filter (· ≠ (sd, row)), settled := (sd, row) :: b.settled }
            strainer := judged x.bad })) ∧
        (good → (sd, row) ∉ b.settled → b.settled.length = 799 → b.ds.kind = .data → r.stopAt = none → k.seq.op = none →
          ∃ u, exec (.pieceJudge d sd row copy frames) s = .next u ∧ (u.chip.decks.get d).roller.datasets = r.datasets + 1 ∧
            (u.chip.decks.get d).tape.durDs = some b.ds.number ∧ (u.chip.decks.get d).tape.durObj = b.ds.after ∧
            u.chip.timebase = s.chip.timebase ∧ u.pending = s.pending) ∧
        (¬ good → (sd, row) ∉ b.settled → (sd, row) ∉ b.everBad → (∀ y ∈ left, y.1 ≠ (sd, row)) → b.settled.length < 800 →
          exec (.pieceJudge d sd row copy frames) s = .next (s.withDeck d { k with
            roller := head { b with waiting := left, bad := b.bad.filter (· ≠ (sd, row)) ++ [(sd, row)], everBad := b.everBad ++ [(sd, row)] }
            strainer := judged (x.bad + 1) }))) ∧
      (∀ pieces : List (Nat × Nat), pieces = (eachOnce (b.bad ++ (b.waiting.map (·.1)).filter (· ∉ b.settled))).take b.ds.tracks →
        (pieces = [] ∨ r.stopAt.isSome = true → exec (.trailerPlace d) s = .next s) ∧
        (pieces ≠ [] → r.stopAt = none → (∀ y ∈ pieces, b.copies.flatten.count y < 8) → b.trailer + pieces.length ≤ 64 →
          let again := pieces.countP (fun y => b.everBad.contains y)
          exec (.trailerPlace d) s = .next (s.withDeck d { k with
            roller := { head { b with
              inTrailer := true, trailer := b.trailer + pieces.length, copies := b.copies ++ [pieces], rewrites := b.rewrites + again
              bad := b.bad.filter (fun y => !pieces.contains y)
              waiting := b.waiting ++ pieces.map (fun y => (y, b.copies.flatten.count y + 1)) } with
              spoiled := [], rewrites := r.rewrites + BitVec.ofNat 32 again, precaution := r.precaution + BitVec.ofNat 32 (pieces.length - again) } })) ∧
        (∀ i (l : Label), s.Hears d i → k.tape.label = some l → pieces ≠ [] → r.stopAt = none → b.skips < 3 →
          (∃ y ∈ pieces, 8 ≤ b.copies.flatten.count y) ∨ 64 < b.trailer + pieces.length →
          exec (.trailerPlace d) s = .next ((s.told d i 0x45 (50 + 6 * d.val) (b.ds.number.setWidth 32)).withDeck d { k with
            roller := { r with
              skipping := true, skips := r.skips + 1, spoiled := [], tail := some { b with blocks := [] }
              nextP0 := some (onward b.ds.wrap (b.endAt l) (l.cells (tdsCells l.tracks)))
              buffers := { DsBuf.fresh b.ds b.blocks (b.skips + 1) with rewrites := b.rewrites, everBad := b.everBad } :: bs } }))))

/-- Simmer's sample instants (R41, R395–R405, R410) and Griddle's periods (R417, R419). -/
def Obligations.SimmerSamplesAndPwm : Prop :=
  ∀ (s : State) (d : Deck),
    let k := s.chip.decks.get d
    let l := k.loops
    let now := s.chip.now
    let linked := s.chip.power.viod.get d = true
    (∀ fine : BitVec 11, let u : State := { s with chip := s.chip.stamp fine }
      (∀ c0 c1, exec (.sampleInstant d c0 c1 fine) s = exec (.sampleInstant d c0 c1 0) u) ∧ exec (.pwmPeriodStart d fine) s = exec (.pwmPeriodStart d 0) u) ∧
    (l.running = false → (∀ c0 c1, exec (.sampleInstant d c0 c1 0) s = .next s) ∧
      (∀ j, exec (.sampleOverrun d j) s = .next s) ∧ exec (.pwmPeriodStart d 0) s = .next s) ∧
    (∀ (chip0 chip1 : W64), linked → l.running = true → k.io.anchor = true → k.seq.state = .thread → invalidCount chip0 chip1 = 0 →
      (∀ j, (l.slots.get j).state ≠ .tuning ∧ (l.slots.get j).feSamples = 0 ∧ (l.slots.get j).feFault = false) →
      ∃ u, exec (.sampleInstant d chip0 chip1 0) s = .next u ∧ (u.chip.decks.get d).io.anchor = false ∧
        (u.chip.decks.get d).seq = { k.seq with posTarget := (chip1.extractLsb' 0 32).toInt - k.io.home.offset }) ∧
    (∀ (chip0 chip1 : W64), linked → l.running = true → k.io.anchor = false → invalidCount chip0 chip1 = 0 →
      (∀ j, (l.slots.get j).state ≠ .tuning ∧ (l.slots.get j).feSamples = 0 ∧ (l.slots.get j).feFault = false) → (∀ a, (l.groups.get a).safe = false) →
      ∃ slots groups,
        exec (.sampleInstant d chip0 chip1 0) s = .next (s.withDeck d { k with
          loops := { l with n := l.n + 1, slots := slots, groups := groups }
          io := { k.io with posRaw := (chip1.extractLsb' 0 32).toInt, sldo := BitVec.ofNat 64 (l.n % 65536 * 2 ^ 48), invalid := 0, badSrc := 0 } }) ∧
        (∀ a, let g := groups.get a
          g.out = (l.groups.get a).next ∧ g.dir = (l.groups.get a).dir ∧ g.driven = (l.groups.get a).driven ∧ g.safe = false ∧
          (∀ j, (l.slots.get j).enable = true → (l.slots.get j).effAxis = a → g.next ≤ (slots.get j).u) ∧
          ((∃ j, (l.slots.get j).enable = true ∧ (l.slots.get j).effAxis = a) →
            ∃ j, (l.slots.get j).enable = true ∧ (l.slots.get j).effAxis = a ∧ (slots.get j).u = g.next)) ∧
        (∀ j, let q := l.slots.get j
          let y := slots.get j
          (q.enable = false → ∀ x, k.signedSource chip0 chip1 now q.effSrc = some x →
            y = { q with winner := false, ref := if q.reseed then x else q.ref, reseed := false }) ∧
          (q.enable = true → q.state = .closed → ∀ x, k.signedSource chip0 chip1 now q.effSrc = some x →
            y.x = x ∧ y.ref = rampStep (if q.reseed then x else q.ref) q.target q.ramp ∧
            y.e = max (-32768) (min 32767 (((y.ref - x) * q.gain + 32768) / 65536)) ∧
            y.integ = (if q.fresh ∨ q.clipped ∨ q.winner = false ∨ (l.groups.get q.effAxis).driven = false then q.integ
              else max (-549755813888) (min 549755813887 (q.integ + q.ki * y.e))) ∧
            y.t = max (-32768) (min 32767 (y.integ / 2 ^ q.trim)) ∧ y.z = y.e + y.t ∧
            y.high = (if y.z > q.h then true else if y.z < -(q.h : Int) then false else q.high) ∧
            y.u = clampInt q.umin q.umax (if y.high then q.bias + q.swing else q.bias - q.swing)))) ∧
    (∀ (i : Ctx) (j : SlotIx), s.Hears d i → l.running = true → (l.slots.get j).enable = true → ∃ kettle log,
      let q := l.slots.get j
      let n := min (q.overruns + 1) 65535
      exec (.sampleOverrun d [j]) s = .next { s.withDeck d { k with loops := { l with
          overrun := l.overrun + 1, slots := l.slots.set j { q with overruns := n }
          groups := l.groups.set q.effAxis { l.groups.get q.effAxis with next := (l.groups.get q.effAxis).out } } } with
        chip.kettle := kettle, chip.log := log
        chip.events := s.chip.events ++ [{ code := 0x66, arg := BitVec.ofNat 32 n, time := now, targets := [(i, slotObject d j.val)] }] }) ∧
    (∀ (j : SlotIx) (o : DeckOp), let q := l.slots.get j
      q.state = .tuning → k.seq.op = some o → o.silent = false → (s.chip.ctxs.get o.ctx).state = .open →
      (q.tune.samples < 4096 * q.tune.cycles → exec (.autotuneTimeout d j) s = .next s) ∧
      (4096 * q.tune.cycles ≤ q.tune.samples → ∃ u, exec (.autotuneTimeout d j) s = .next u ∧
        (u.chip.decks.get d).loops = { l with slots := l.slots.set j { q with
          state := if q.tune.wasOpen then .open else .closed, ref := q.tune.ref0, tune := { q.tune with state := .failed } } } ∧
        (u.chip.decks.get d).seq = { k.seq with op := none } ∧
        (u.chip.ctxs.get o.ctx).rpl = (s.chip.ctxs.get o.ctx).rpl ++ [s.endReply o 0xA07 []] ∧ u.chip.timebase = s.chip.timebase ∧ u.chip.log = s.chip.log)) ∧
    (∀ p : Profile, l.running = true → k.profile = some p → ∃ axes groups suppress held,
      exec (.pwmPeriodStart d 0) s = .next (s.withDeck d { k with
        io := { k.io with axes := axes, suppress := suppress, held := held }, loops := { l with groups := groups } }) ∧
      ∀ a, let x := k.io.axes.get a
        let y := axes.get a
        let g := l.groups.get a
        let u := if g.dir then -g.out else g.out
        y.mode = (if x.trip = true ∨ x.mode = .tripped then .tripped else x.nextMode) ∧
        groups.get a = { g with driven := decide (y.mode = .drive) } ∧ y.trip = x.trip ∧
        (y.mode = .off ∨ y.mode = .tripped → y.legA = .idle ∧ y.legB = .idle) ∧ (y.mode = .brake → y.legA = .lowOn ∧ y.legB = .lowOn) ∧
        (y.mode = .drive →
          (y.legA, y.carryA) = legPlan (((32768 + u) * p.pwmPeriod + 32768) / 65536) x.carryA p.pwmPeriod p.deadTime p.minPulse ∧
          (y.legB, y.carryB) = legPlan (((32768 - u) * p.pwmPeriod + 32768) / 65536) x.carryB p.pwmPeriod p.deadTime p.minPulse))

/-- FAULT_STOP (R454, R455) and what leads there. -/
def Obligations.FaultsStopTheDeck : Prop :=
  ∀ (s : State) (d : Deck), s.chip.power.valid = true →
    let k := s.chip.decks.get d
    let io := k.io
    let stops := fun (i : Instr) (code : Byte) (st : Stat) => ∃ u, exec i s = .next u ∧ u.pending = s.pending ∧ u.chip.timebase = s.chip.timebase ∧
      (let y := u.chip.decks.get d
       y.seq.state = .faultStop ∧ y.seq.cause = code ∧ y.seq.op = none ∧ y.roller.stopAt = k.roller.stopsAt ∧ y.roller.gate = k.roller.stopsAt.isSome ∧ y.loops.running = true ∧
       ∀ a, (y.io.axes.get a).trip = true → (y.io.axes.get a).mode = .tripped ∨ (io.axes.get a).trip = true) ∧
      (∀ o, k.seq.op = some o → (u.chip.ctxs.get o.ctx).rpl = (s.chip.ctxs.get o.ctx).rpl ++ [s.endReply o st []]) ∧
      ∀ e, e ≠ d → (u.chip.decks.get e).tape = (s.chip.decks.get e).tape ∧ (u.chip.decks.get e).seq = (s.chip.decks.get e).seq
    (k.loops.running = true → k.seq.state ≠ .faultStop → k.seq.state ≠ .safe → k.seq.waiters = [] →
      (∀ o, k.seq.op = some o → o.silent = false ∧ (s.chip.ctxs.get o.ctx).state = .open) →
      (∀ a, s.chip.servoOn d = true → s.chip.power.viod.get d = true → (io.axes.get a).trip = false → stops (.trip d a 0) 0x01 0x903) ∧
      (16 ≤ io.invalid → stops (.sensorInvalidFault d) 0x00 0xC02) ∧
      (∀ enc, 16 < (io.encs.get enc).illegal.length → stops (.encoderErrorFault d enc) 0x00 0xC02) ∧
      (k.seq.state ∈ [.tensionUp, .calibrate, .scan, .ready, .streaming, .stopping, .unloading] → stops (.tensionFault d) 0x06 0xA06) ∧
      (k.seq.state ∈ [.thread, .homing, .calibrate, .unloading] → stops (.stepTimeout d) 0x07 0xA07) ∧
      (k.seq.state = .tensionUp → stops (.stepTimeout d) 0x06 0xA06) ∧
      (∀ (hi : Bool) (n : Nat) (t0 : W64), let x := io.limit hi
        x.window = some (n, t0) → x.active = false →
        (4 < n → stops (.limitWindowEnd d hi) 0x03 0xA03) ∧
        (n ≤ 4 → x.raw = true → k.seq.state ≠ .homing → k.profile.isSome → stops (.limitWindowEnd d hi) 0x04 0xA04)) ∧
      (∀ (p : Profile) (pos : Int), k.profile = some p → k.seq.state = .homing → k.seq.op.isSome → io.home.step = 1 ∨ io.home.step = 2 →
        travelLimit p < (pos - io.home.fromPos).natAbs → stops (.homeStepEnd d pos) 0x05 0xA05)) ∧
    (∀ a, (s.chip.servoOn d = false ∨ s.chip.power.viod.get d = false → exec (.trip d a 0) s = .next s) ∧
      ∀ fine, exec (.trip d a fine) s = exec (.trip d a 0) { s with chip := s.chip.stamp fine }) ∧
    (io.invalid < 16 → exec (.sensorInvalidFault d) s = .next s) ∧
    (∀ enc, (io.encs.get enc).illegal.length ≤ 16 → exec (.encoderErrorFault d enc) s = .next s) ∧
    (k.seq.state ∈ [.dormant, .empty, .present, .ready, .streaming] → exec (.stepTimeout d) s = .next s) ∧
    (k.seq.state ∈ [.dormant, .empty, .present, .thread] → exec (.tensionFault d) s = .next s) ∧
    (k.seq.state = .faultStop →
      (k.seq.rest = true → exec (.faultStopRest d) s = .next s) ∧
      (k.seq.rest = false → k.seq.cartOut = false → k.seq.stopWaiters = [] → k.roller.stopAt = none → ∃ u, exec (.faultStopRest d) s = .next u ∧
        (let y := u.chip.decks.get d
         y.seq = { k.seq with rest := true, capSpeed := 0 } ∧ y.loops.running = false ∧ y.loops.period = 0 ∧ y.tape = k.tape ∧
         ∀ a, (y.io.axes.get a).mode = (if (io.axes.get a).mode = .tripped then .tripped else .off) ∧ (y.io.axes.get a).legA = .idle ∧ (y.io.axes.get a).legB = .idle) ∧
        u.chip.timebase = s.chip.timebase ∧ ∀ e, e ≠ d → u.chip.decks.get e = s.chip.decks.get e))

/-- The inputs of motion I/O (R41, R422–R437, R440, R446, R464). -/
def Obligations.InputsOfADeck : Prop :=
  ∀ (s : State) (d : Deck),
    let k := s.chip.decks.get d
    let io := k.io
    let now := s.chip.now
    let becomes := fun (i : Instr) (x : MotionIo) => exec i s = .next (s.withDeck d { k with io := x })
    (∀ fine : BitVec 11, let u : State := { s with chip := s.chip.stamp fine }
      let part := BitVec.ofNat 64 (min fine.toNat (s.chip.timebase.nominalTick - 1))
      (s.chip.timebase.running = true → u.chip.now = s.chip.timebase.time + (if s.chip.timebase.fine.toNat < part.toNat then part else s.chip.timebase.fine.setWidth 64)) ∧
      (s.chip.timebase.fine.toNat ≥ part.toNat → u = s) ∧
      (∀ n a b, exec (.encoderEdge d n a b fine) s = exec (.encoderEdge d n a b 0) u) ∧ exec (.indexEdge d fine) s = exec (.indexEdge d 0) u ∧
      (∀ hi act x y n, exec (.limitEdge d hi act fine x y n) s = exec (.limitEdge d hi act 0 x y n) u) ∧
      (∀ door lv, exec (.presenceChange d door lv fine) s = exec (.presenceChange d door lv 0) u) ∧
      (∀ r, exec (.tapeMarkerEdge d r fine) s = exec (.tapeMarkerEdge d r 0) u) ∧
      (∀ a, exec (.tripInputRelease d a fine) s = exec (.tripInputRelease d a 0) u)) ∧
    (s.chip.servoOn d = false → (∀ e a b, exec (.encoderEdge d e a b 0) s = .next s) ∧ exec (.indexEdge d 0) s = .next s ∧
      (∀ hi act x y n, exec (.limitEdge d hi act 0 x y n) s = .next s) ∧ (∀ door lv, exec (.presenceChange d door lv 0) s = .next s) ∧
      (∀ r, exec (.tapeMarkerEdge d r 0) s = .next s) ∧ exec (.deckLeaveDormant d) s = .next s) ∧
    (s.chip.power.viod.get d = false → (∀ e a b, exec (.encoderEdge d e a b 0) s = .next s) ∧ exec (.indexEdge d 0) s = .next s ∧
      (∀ hi x y n, exec (.limitEdge d hi true 0 x y n) s = .next s) ∧ (∀ door, exec (.presenceChange d door true 0) s = .next s) ∧
      exec (.tapeMarkerEdge d true 0) s = .next s) ∧
    (∀ a, becomes (.tripInputRelease d a 0) { io with axes := io.axes.set a { io.axes.get a with tripIn := false } }) ∧
    (s.Reached → becomes (.mioClearCounts d) { io with
      suppress := 0, held := 0, encErr := 0, indexErr := 0, glitch := 0, chatter := 0, sensorInvalid := 0
      axes := io.axes.map fun x => { x with tripCnt := 0 } }) ∧
    (s.chip.servoOn d = true → s.chip.power.viod.get d = true →
      (∀ (n : Fin 3) (a b : Bool), (n = 0 → measuring k.seq.state = false) →
        let e := io.encs.get n
        let t := now
        let onB := decide (b ≠ e.b)
        let fwd := decide ((quadPhase a b + 4 - quadPhase e.a e.b) % 4 = 1)
        (a = e.a → b = e.b → exec (.encoderEdge d n a b 0) s = .next s) ∧
        ((a ≠ e.a) ≠ (b ≠ e.b) → onB = e.lastOnB ∨ e.lastA = 0 ∨ 400 ≤ (t - e.lastA).toNat →
          exec (.encoderEdge d n a b 0) s = .next (s.withDeck d { k with
            pos := if n = 0 then (if fwd then k.pos + 1024 else k.pos - 1024) else k.pos
            io := { io with encs := io.encs.set n { e with
              a := a, b := b, count := if fwd then e.count + 1 else e.count - 1, lastA := t, lastOnB := onB, fwd := fwd
              way := some (e.way.getD fwd), mixed := e.mixed || decide (e.way = some (!fwd))
              edges := if e.edges = [] ∨ fwd ≠ e.fwd then [t] else (t :: e.edges).take 5 } } })) ∧
        (a ≠ e.a → b ≠ e.b → becomes (.encoderEdge d n a b 0) { io with
          encErr := io.encErr + 1
          encs := io.encs.set n { e with
            a := a, b := b, edges := [], lastA := t, lastOnB := true, illegal := t :: e.illegal.filter fun x => decide ((t - x).toNat < 16000000) } }) ∧
        ((a ≠ e.a) ≠ (b ≠ e.b) → onB ≠ e.lastOnB → e.lastA ≠ 0 → (t - e.lastA).toNat < 400 → becomes (.encoderEdge d n a b 0) { io with
          encErr := io.encErr + 1
          encs := io.encs.set n { e with
            a := a, b := b, edges := [], lastA := t, lastOnB := onB, illegal := t :: e.illegal.filter fun x => decide ((t - x).toNat < 16000000) } })) ∧
      (let e := io.encs.get 0
       becomes (.indexEdge d 0) { io with
        encs := io.encs.set 0 { e with indexAt := some e.count, way := none, mixed := false }
        indexErr := match e.indexAt, k.profile with
          | some c, some p => if (e.count - c).natAbs ≠ 4 * p.capLines ∨ e.mixed = true then io.indexErr + 1 else io.indexErr
          | _, _ => io.indexErr }) ∧
      (∀ (hi : Bool) (before after : Int) (into : Nat), let x := io.limit hi
        exec (.limitEdge d hi x.raw 0 before after into) s = .next s ∧
        (∀ n t0, x.window = some (n, t0) → becomes (.limitEdge d hi (!x.raw) 0 before after into) (io.setLimit hi { x with raw := !x.raw, window := some (n + 1, t0) })) ∧
        (x.window = none → k.loops.running = false →
          becomes (.limitEdge d hi (!x.raw) 0 before after into) (io.setLimit hi { x with raw := !x.raw, window := some (1, now) }))) ∧
      (∀ rising : Bool, exec (.tapeMarkerEdge d io.tapemk 0) s = .next s ∧
        (rising ≠ io.tapemk → measuring k.seq.state = false → k.seq.state ≠ .scan →
          becomes (.tapeMarkerEdge d rising 0) { io with tapemk := rising, markAt := k.positionAt now }) ∧
        (rising ≠ io.tapemk → k.seq.state = .calibrate → rising ≠ (io.encs.get 0).fwd →
          exec (.tapeMarkerEdge d rising 0) s = .next (s.withDeck d { k with pos := k.pos - k.positionAt now, seq.zeroed := true, io := { io with tapemk := rising, markAt := k.positionAt now } }))) ∧
      exec (.presenceChange d true io.door 0) s = .next s ∧ exec (.presenceChange d false io.cart 0) s = .next s ∧
      (io.cart = false → k.loops.running = false → k.seq.state = .empty → s.chip.domains.holdPend = 0 → ∃ u, exec (.presenceChange d false true 0) s = .next u ∧
        (u.chip.decks.get d).io = { io with cart := true, axes := (u.chip.decks.get d).io.axes } ∧ (u.chip.decks.get d).seq = { k.seq with state := .present } ∧
        u.chip.timebase = s.chip.timebase ∧ ∀ e, e ≠ d → u.chip.decks.get e = s.chip.decks.get e) ∧
      (k.seq.state ≠ .dormant → exec (.deckLeaveDormant d) s = .next s) ∧
      (k.seq.state = .dormant → s.chip.power.control = true → s.chip.power.viod.get d = true → s.chip.timebase.refState = .locked →
        (s.chip.timebase.decks.get d).valid = true → s.chip.domains.holdPend = 0 → ∃ u, exec (.deckLeaveDormant d) s = .next u ∧
          (u.chip.decks.get d).seq = { k.seq with state := if io.cart then .present else .empty } ∧ u.chip.timebase = s.chip.timebase ∧
          ∀ e, e ≠ d → u.chip.decks.get e = s.chip.decks.get e)) ∧
    (∀ hi, let x := io.limit hi
      (x.window = none → exec (.limitWindowEnd d hi) s = .next s) ∧
      (∀ n t0, x.window = some (n, t0) → n ≤ 4 →
        (x.raw = false → x.active = true → becomes (.limitWindowEnd d hi) (io.setLimit hi { x with window := none, active := false })) ∧
        (x.raw = x.active → k.seq.state ≠ .homing → io.posHold = none → becomes (.limitWindowEnd d hi)
          { io.setLimit hi { x with window := none } with glitch := io.glitch + 1 })))

/-- LOAD and HOME, step by step (R434, R435, R449, R453, R343, Tables 17-5 and 18-3). -/
def Obligations.LoadAndHomeSteps : Prop :=
  ∀ (s : State) (d : Deck) (i : Ctx) (p : Profile) (f : ScanFound), s.Hears d i → s.chip.domains.holdPend.getLsbD d.val = false →
    let k := s.chip.decks.get d
    k.profile = some p →
    let becomes := fun (c : Instr) (st : DeckState) (home : Homing) (q : DeckSeq) => ∃ axes loops,
      exec c s = .next ((s.entered d i st).withDeck d { k with
        seq := { q with state := st }, io := { k.io with axes := axes, home := home, posHold := if st = .homing then none else k.io.posHold }, loops := loops }) ∧
      (∀ a, (axes.get a).mode = (k.io.axes.get a).mode ∧ (axes.get a).trip = (k.io.axes.get a).trip) ∧ loops.running = k.loops.running
    let aims := fun (home : Homing) (target : Int) (ramp : Nat) (o : Host.Outcome State Fault Refusal) => ∃ loops, loops.running = k.loops.running ∧
      o = .next (s.withDeck d { k with io := { k.io with home := home }, seq := { k.seq with posTarget := target, posRamp := ramp }, loops := loops })
    (k.seq.op = none → exec (.loadStepEnd d f) s = .next s ∧ ∀ pos, exec (.homeStepEnd d pos) s = .next s) ∧
    (∀ o, k.seq.op = some o →
      let completes := fun (u : State) (st : Stat) (payload : List Byte) => (u.chip.decks.get d).seq.op = none ∧ u.chip.timebase = s.chip.timebase ∧
        (u.chip.ctxs.get o.ctx).rpl = (s.chip.ctxs.get o.ctx).rpl ++ [s.endReply o st payload]
      (o.op = .load →
        (k.seq.state = .thread → becomes (.loadStepEnd d f) .tensionUp k.io.home { k.seq with tension := p.tensionSet }) ∧
        (k.seq.state = .tensionUp →
          let home := fun n => ({ Homing.reset with step := n, fromPos := k.io.posRaw } : Homing)
          (k.io.posLo.active = true → becomes (.loadStepEnd d f) .homing (home 1)
            { k.seq with posTarget := k.io.posRaw + travelLimit p + 2000000, posRamp := approachRamp p }) ∧
          (k.io.posLo.active = false → becomes (.loadStepEnd d f) .homing (home 2)
            { k.seq with posTarget := k.io.posRaw - travelLimit p - 2000000, posRamp := approachRamp p })) ∧
        (k.seq.state = .calibrate →
          (k.seq.zeroed = true → k.seq.rhoSup.isSome → k.seq.rhoTku.isSome →
            becomes (.loadStepEnd d f) .scan k.io.home { k.seq with capSpeed := p.speedMin, reverse := false, stage := 0 }) ∧
          (k.seq.zeroed = false ∨ k.seq.rhoSup = none ∨ k.seq.rhoTku = none → exec (.loadStepEnd d f) s = .next s)) ∧
        (k.seq.state = .scan → k.seq.unloadAfter = false → o.silent = false → (s.chip.ctxs.get o.ctx).state = .open →
          let lab := inForce (labelOf f.labelA) (labelOf f.labelB)
          let m := mediaOf p f.signal lab
          let broken := m = .krf ∧ ∃ l, lab = some l ∧ l.structureOk = false
          ∃ u, exec (.loadStepEnd d f) s = .next u ∧ (u.chip.decks.get d).seq.state = .ready ∧
            (broken → (u.chip.decks.get d).tape.media = some .unreadable ∧ completes u 0x706 []) ∧
            (¬ broken → (u.chip.decks.get d).tape.media = some m ∧ (m = .krf → (u.chip.decks.get d).tape.label = lab) ∧
              completes u 0x000 (u.chip.decks.get d).tape.loadReply))) ∧
      (k.seq.state = .homing → ∀ pos : Int,
        (k.io.home.step = 1 → (pos - k.io.home.fromPos).natAbs ≤ travelLimit p → k.io.posLo.active = false →
          aims { k.io.home with step := 2, fromPos := pos } (pos - travelLimit p - 2000000) (approachRamp p) (exec (.homeStepEnd d pos) s)) ∧
        (k.io.home.step = 4 → k.io.posLo.active = false →
          aims { k.io.home with step := 5 } (k.io.home.latch1 - 1000000) (reapproachRamp p) (exec (.homeStepEnd d pos) s)) ∧
        (k.io.home.step = 7 →
          let home := { k.io.home with step := 0, homed := true }
          (o.op = .load → ∃ loops axes, loops.running = k.loops.running ∧ (∀ a, (axes.get a).mode = (k.io.axes.get a).mode) ∧
            exec (.homeStepEnd d pos) s = .next ((s.entered d i .calibrate).withDeck d { k with
              io := { k.io with home := home, axes := axes }
              seq := { k.seq with
                state := .calibrate, capSpeed := p.speedMin, reverse := false, stage := 0, rhoSup := none, rhoTku := none, marks := k.io.counts
                zeroed := false, posTarget := 200000, posRamp := approachRamp p }, loops := loops })) ∧
          (o.op = .home → o.silent = false → (s.chip.ctxs.get o.ctx).state = .open → k.seq.stopWaiters = [] →
            k.seq.base = .ready ∨ k.seq.base = .present ∨ k.seq.base = .empty → ∃ u, exec (.homeStepEnd d pos) s = .next u ∧
              (u.chip.decks.get d).seq.state = k.seq.base ∧ (u.chip.decks.get d).io.home = home ∧
              (k.seq.base ≠ .ready → (u.chip.decks.get d).loops.running = false) ∧ completes u 0x000 (leBytes 8 k.io.home.latch2At.toNat)))))

/-- Rest (R383, R387, R452, R453), turns (R447, R316, R217) and UNLOAD (R458). -/
def Obligations.StopsTurnsAndUnload : Prop :=
  ∀ (s : State) (d : Deck) (i : Ctx) (p : Profile), s.Hears d i → s.chip.domains.holdPend.getLsbD d.val = false →
    let k := s.chip.decks.get d
    k.profile = some p →
    let completes := fun (u : State) (o : DeckOp) => (u.chip.decks.get d).seq.op = none ∧ u.chip.timebase = s.chip.timebase ∧
      (u.chip.ctxs.get o.ctx).rpl = (s.chip.ctxs.get o.ctx).rpl ++ [s.endReply o 0x000 []]
    let back := s.told d i 0x65 (53 + 6 * d.val) (BitVec.ofNat 32 p.backhitch)
    let rests := fun (u : State) => ∃ axes loops,
      exec (.stopComplete d) s = .next ((u.entered d i .ready).withDeck d { k with
        roller := { k.roller with gate := false, wl := 0 }, matcher := { k.matcher with restAt := none, stored := 0, underrun := false }
        seq := { k.seq with state := .ready, capSpeed := 0, stage := 0 }, io := { k.io with axes := axes }, loops := loops }) ∧
      loops.running = k.loops.running ∧ ∀ a, (axes.get a).mode = (k.io.axes.get a).mode
    (k.seq.state = .ready → exec (.stopComplete d) s = .next s ∧ exec (.wrapTurn d) s = .next s ∧ exec (.unloadStepEnd d) s = .next s) ∧
    (k.seq.state = .stopping → k.seq.op = none → k.seq.stopWaiters = [] → k.roller.stopAt = none →
      (k.matcher.underrun = false → rests s) ∧ (k.matcher.underrun = true → s.chip.events.length < 63 → rests back)) ∧
    (∀ o, k.seq.state = .streaming → k.seq.op = some o → o.moving = true →
      (o.op = .rewind → o.silent = false → (s.chip.ctxs.get o.ctx).state = .open → k.seq.stopWaiters = [] → ∃ u,
        exec (.stopComplete d) s = .next u ∧ (u.chip.decks.get d).seq.state = .ready ∧ (u.chip.decks.get d).tape = k.tape.toBop 0 ∧ completes u o) ∧
      (o.op ≠ .rewind → k.strainer.stalled = true → k.seq.capSpeed = 0 → exec (.stopComplete d) s = .next back)) ∧
    (k.seq.state ∈ [.thread, .tensionUp, .calibrate, .scan] → k.seq.op = none → k.seq.stopWaiters = [] → ∃ u, exec (.stopComplete d) s = .next u ∧
      (u.chip.decks.get d).seq.state = .present ∧ (u.chip.decks.get d).tape.media = none ∧ (u.chip.decks.get d).io.home.homed = false ∧
      (u.chip.decks.get d).loops.running = false) ∧
    (∀ l, k.seq.state = .streaming → k.tape.label = some l →
      let last := l.lastWrap k.tape.partition.toNat k.tape.wrap.toNat
      let w := k.tape.wrap + 1
      let turns := fun (speed : Nat) (next : Option Int) => ∃ loops, loops.running = k.loops.running ∧
        exec (.wrapTurn d) s = .next ((s.told d i 0x25 (53 + 6 * d.val) (w.setWidth 32)).withDeck d { k with
          tape := { k.tape with wrap := w, beyondEw := false }
          roller := { k.roller with gate := false, wl := 0, tail := none, eraseFrom := none, nextP0 := next }
          seq := { k.seq with
            reverse := w.getLsbD 0, posTarget := 200000 + w.toNat * p.wrapPitch, posRamp := approachRamp p, offset := 0, capSpeed := speed }
          loops := loops })
      (last = true → k.longErase = false → exec (.wrapTurn d) s = .next s) ∧
      (last = true → k.longErase = true → s.chip.writeIdle d = true → ∃ u, exec (.wrapTurn d) s = .next u ∧
        (u.chip.decks.get d).seq.op = none ∧ (u.chip.decks.get d).roller.gate = false ∧ (u.chip.decks.get d).tape.wrap = k.tape.eodWrap.get (Fin.ofNat 4 k.tape.partition.toNat)) ∧
      (last = false → k.seq.op = none → turns (speedOf p k.matcher.target) (some (wrapStart p w))) ∧
      (∀ o, last = false → k.seq.op = some o → o.moving = true → o.op ≠ .eraseFromHere → o.op ≠ .formatTape → turns k.readSpeed none)) ∧
    (∀ o, k.seq.state = .unloading → k.seq.op = some o → o.op = .unload →
      let goes := fun q : DeckSeq => ∃ loops, loops.running = k.loops.running ∧
        exec (.unloadStepEnd d) s = .next (s.withDeck d { k with seq := q, loops := loops })
      (k.seq.stage = 1 → goes { k.seq with stage := 2, reverse := true, capSpeed := k.readSpeed }) ∧
      (k.seq.stage = 2 → goes { k.seq with stage := 3, capSpeed := p.speedMin }) ∧
      (k.seq.stage = 3 → goes { k.seq with stage := 4 }) ∧
      (k.seq.stage = 4 → goes { k.seq with stage := 5, capSpeed := 0, tension := 0 }) ∧
      (k.seq.stage = 5 → o.silent = false → (s.chip.ctxs.get o.ctx).state = .open → k.seq.stopWaiters = [] → ∃ u, exec (.unloadStepEnd d) s = .next u ∧
        (u.chip.decks.get d).seq.state = .present ∧ (u.chip.decks.get d).tape.media = none ∧ (u.chip.decks.get d).io.home.homed = false ∧
        (u.chip.decks.get d).loops.running = false ∧ completes u o))

/-- A step runs the command at the front of its queue. That an empty queue idles is a DESIGN CHOICE (log entry 4). -/
def Obligations.StepRunsTheFrontCommand : Prop :=
  ∀ s : State,
    (∀ (c : Instr) (rest : List Instr), step { s with pending := c :: rest } = exec c { s with pending := rest }) ∧
    step { s with pending := [] } = .next { s with pending := [] }

/-- The identity registers (R507, Table 21-2). The serial number is the part's own (log entry 10). -/
def Obligations.IdentityRegistersNeverChange : Prop :=
  ∀ s : State,
    (let id := s.chip.readReg
     id 0x00 = 0x2A440C5B ∧ id 0x04 = 0x0002A440 ∧ id 0x08 = 0x00000001 ∧ id 0x0C = Config.serial.extractLsb' 0 32 ∧
     id 0x10 = Config.serial.extractLsb' 32 32 ∧ id 0x14 = BitVec.ofNat 32 (4 + 64 * 2 ^ 4 + 19 * 2 ^ 11 + 4096 * 2 ^ 16) ∧ id 0x18 = 0x34345A53) ∧
    (∀ (c : Instr) (t : State), exec c s = .next t → ∀ k : Fin 7, t.chip.readReg (4 * k.val) = s.chip.readReg (4 * k.val)) ∧
    (∀ (k : Fin 7) (v : W32), s.Reached →
      exec (.registerWrite (BitVec.ofNat 16 (4 * k.val)) v) s = .next { s with chip.i2c.pecOn := s.chip.i2c.pecEn })

/-- State.reset: the values the spec gives. -/
def Obligations.PowerOnState : Prop :=
  let s := State.reset
  let c := s.chip
  s.pending = [] ∧ c.power.valid = false ∧ c.power.core = false ∧ c.timebase.time = 0 ∧ c.timebase.running = false ∧ c.timebase.refState = .absent ∧
  c.kettle.vcore = 30 ∧ c.kettle.vminCode = 0 ∧ c.kettle.vmaxCode = 70 ∧ (∀ n, c.domOn n = false) ∧
  c.log.store = [] ∧ c.log.seq = 0 ∧ c.log.sealed = false ∧ c.sram.mem = [] ∧ c.sram.initDone = false ∧
  c.cook.state = .off ∧ c.cook.safe = false ∧ c.jtag.ir = 0b00001 ∧ c.i2c.ready = false ∧
  (∀ p, let e := c.ehran.get p
    e.sel = false ∧ e.rxOpen = false ∧ e.rxHeld = 0 ∧ e.enabled = true ∧ e.width16 = true ∧ e.pktIn = 0) ∧
  (∀ i, let x := c.ctxs.get i
    x.state = .closed ∧ x.cmd = [] ∧ x.rpl = [] ∧ x.evt.recs = [] ∧ x.cmdDepth = 8 ∧ x.rplDepth = 8 ∧ x.evt.depth = 8 ∧ x.cellQuota = 128 ∧ x.blockQuota = 0) ∧
  (∀ d, let k := c.decks.get d
    k.seq.state = .dormant ∧ k.lock.state = .free ∧ k.loops.running = false ∧ k.profile = none ∧ k.tape.media = none ∧
    ∀ j : Fin 12, (k.loops.slots.get j).enable = decide (j.val < 10) ∧ (k.loops.slots.get j).role = (if j.val < 10 then j.val + 1 else 0)) ∧
  (∀ n, (c.funnel.sites.get n).frozen = false ∧ (c.funnel.sites.get n).cfg.window = 16 ∧ (c.funnel.sites.get n).cfg.deadline = decide (16 ≤ n.val)) ∧
  (∀ x ∈ ([(0x0100, 1), (0x0104, 0x4600), (0x0184, 320), (0x0320, 0x695F), (0x1408, 0x10FA0), (0x142C, 0x7C0000), (0x1430, 64), (0x0C04, 4)] : List (Nat × W32)),
    c.readReg x.1 = x.2)

/-- The invariant of the model at reset. -/
def Obligations.ResetIsCanonical : Prop := State.reset.Canonical

/-- The invariant that every step keeps: equal buffer memories are equal data. -/
def Obligations.EveryStepKeepsTheMemoryCanonical : Prop := ∀ (s t : State), step s = .next t → s.Canonical → t.Canonical

/-- Whisk's decoder undoes its encoder (R299–R309). -/
def Obligations.WhiskGivesEveryRecordBack : Prop :=
  ∀ (compress : Bool) (record : List Byte),
    let st := whiskStore compress (fun _ => false) record
    whiskExpand st.raw false true (fun _ => false) record.length st.bytes = ⟨record, record.length, .good, none⟩
end

