-- ==== Sys2Proof/Laws/State.lean ====
section
/-! SUPPORT. Reading a field after an update of one part of the chip or of a deck: one lemma for each field and each update. -/

namespace Sys2Proof.Machine

/-! ### An element of a vector after one element is set -/

@[simp] theorem vector_get_set_self {α : Type} {n : Nat} (v : Vector α n) (i : Fin n) (x : α) : (v.set i x).get i = x := by
  show (v.set i x)[i.val] = x
  simp

theorem vector_get_set_ne {α : Type} {n : Nat} (v : Vector α n) (i j : Fin n) (x : α) (h : j ≠ i) : (v.set i x).get j = v.get j := by
  have h' : (i : Nat) ≠ (j : Nat) := fun e => h (Fin.ext e.symm)
  show (v.set i x)[j.val] = v[j.val]
  simp [h']

/-- Setting an element to what it is changes nothing. -/
@[simp] theorem vector_set_get {α : Type} {n : Nat} (v : Vector α n) (i : Fin n) : v.set i (v.get i) = v := by
  apply Vector.ext
  intro j hj
  by_cases h : (i : Nat) = j
  · subst h; simp [Vector.get]
  · simp [h]

@[simp] theorem vector_set_set {α : Type} {n : Nat} (v : Vector α n) (i : Fin n) (x y : α) : (v.set i x).set i y = v.set i y := by
  apply Vector.ext
  intro j hj
  by_cases h : (i : Nat) = j
  · subst h; simp
  · simp [h]

/-! ### Updates of the chip -/

section
variable (ch : Chip)

@[simp] theorem Chip.modCtx_power (i : Ctx) (f : Context → Context) : (ch.modCtx i f).power = ch.power := rfl
@[simp] theorem Chip.modCtx_domains (i : Ctx) (f : Context → Context) : (ch.modCtx i f).domains = ch.domains := rfl
@[simp] theorem Chip.modCtx_timebase (i : Ctx) (f : Context → Context) : (ch.modCtx i f).timebase = ch.timebase := rfl
@[simp] theorem Chip.modCtx_kettle (i : Ctx) (f : Context → Context) : (ch.modCtx i f).kettle = ch.kettle := rfl
@[simp] theorem Chip.modCtx_temp (i : Ctx) (f : Context → Context) : (ch.modCtx i f).temp = ch.temp := rfl
@[simp] theorem Chip.modCtx_log (i : Ctx) (f : Context → Context) : (ch.modCtx i f).log = ch.log := rfl
@[simp] theorem Chip.modCtx_cook (i : Ctx) (f : Context → Context) : (ch.modCtx i f).cook = ch.cook := rfl
@[simp] theorem Chip.modCtx_emergency (i : Ctx) (f : Context → Context) : (ch.modCtx i f).emergency = ch.emergency := rfl
@[simp] theorem Chip.modCtx_passQ (i : Ctx) (f : Context → Context) : (ch.modCtx i f).passQ = ch.passQ := rfl
@[simp] theorem Chip.modCtx_ladle (i : Ctx) (f : Context → Context) : (ch.modCtx i f).ladle = ch.ladle := rfl
@[simp] theorem Chip.modCtx_ladleAnswer (i : Ctx) (f : Context → Context) : (ch.modCtx i f).ladleAnswer = ch.ladleAnswer := rfl
@[simp] theorem Chip.modCtx_funnel (i : Ctx) (f : Context → Context) : (ch.modCtx i f).funnel = ch.funnel := rfl
@[simp] theorem Chip.modCtx_sram (i : Ctx) (f : Context → Context) : (ch.modCtx i f).sram = ch.sram := rfl
@[simp] theorem Chip.modCtx_merge (i : Ctx) (f : Context → Context) : (ch.modCtx i f).merge = ch.merge := rfl
@[simp] theorem Chip.modCtx_cache (i : Ctx) (f : Context → Context) : (ch.modCtx i f).cache = ch.cache := rfl
@[simp] theorem Chip.modCtx_readOut (i : Ctx) (f : Context → Context) : (ch.modCtx i f).readOut = ch.readOut := rfl
@[simp] theorem Chip.modCtx_events (i : Ctx) (f : Context → Context) : (ch.modCtx i f).events = ch.events := rfl
@[simp] theorem Chip.modCtx_held (i : Ctx) (f : Context → Context) : (ch.modCtx i f).held = ch.held := rfl
@[simp] theorem Chip.modCtx_openQ (i : Ctx) (f : Context → Context) : (ch.modCtx i f).openQ = ch.openQ := rfl
@[simp] theorem Chip.modCtx_tongsQ (i : Ctx) (f : Context → Context) : (ch.modCtx i f).tongsQ = ch.tongsQ := rfl
@[simp] theorem Chip.modCtx_ehran (i : Ctx) (f : Context → Context) : (ch.modCtx i f).ehran = ch.ehran := rfl
@[simp] theorem Chip.modCtx_spi (i : Ctx) (f : Context → Context) : (ch.modCtx i f).spi = ch.spi := rfl
@[simp] theorem Chip.modCtx_i2c (i : Ctx) (f : Context → Context) : (ch.modCtx i f).i2c = ch.i2c := rfl
@[simp] theorem Chip.modCtx_jtag (i : Ctx) (f : Context → Context) : (ch.modCtx i f).jtag = ch.jtag := rfl
@[simp] theorem Chip.modCtx_sieve (i : Ctx) (f : Context → Context) : (ch.modCtx i f).sieve = ch.sieve := rfl
@[simp] theorem Chip.modCtx_rotor (i : Ctx) (f : Context → Context) : (ch.modCtx i f).rotor = ch.rotor := rfl
@[simp] theorem Chip.modCtx_ctxs (i : Ctx) (f : Context → Context) : (ch.modCtx i f).ctxs = ch.ctxs.set i (f (ch.ctxs.get i)) := rfl
@[simp] theorem Chip.modCtx_decks (i : Ctx) (f : Context → Context) : (ch.modCtx i f).decks = ch.decks := rfl
@[simp] theorem Chip.modCtx_freeUsed (i : Ctx) (f : Context → Context) : (ch.modCtx i f).freeUsed = ch.freeUsed := rfl

@[simp] theorem Chip.modDeck_power (d : Deck) (f : DeckAll → DeckAll) : (ch.modDeck d f).power = ch.power := rfl
@[simp] theorem Chip.modDeck_domains (d : Deck) (f : DeckAll → DeckAll) : (ch.modDeck d f).domains = ch.domains := rfl
@[simp] theorem Chip.modDeck_timebase (d : Deck) (f : DeckAll → DeckAll) : (ch.modDeck d f).timebase = ch.timebase := rfl
@[simp] theorem Chip.modDeck_kettle (d : Deck) (f : DeckAll → DeckAll) : (ch.modDeck d f).kettle = ch.kettle := rfl
@[simp] theorem Chip.modDeck_temp (d : Deck) (f : DeckAll → DeckAll) : (ch.modDeck d f).temp = ch.temp := rfl
@[simp] theorem Chip.modDeck_log (d : Deck) (f : DeckAll → DeckAll) : (ch.modDeck d f).log = ch.log := rfl
@[simp] theorem Chip.modDeck_cook (d : Deck) (f : DeckAll → DeckAll) : (ch.modDeck d f).cook = ch.cook := rfl
@[simp] theorem Chip.modDeck_emergency (d : Deck) (f : DeckAll → DeckAll) : (ch.modDeck d f).emergency = ch.emergency := rfl
@[simp] theorem Chip.modDeck_passQ (d : Deck) (f : DeckAll → DeckAll) : (ch.modDeck d f).passQ = ch.passQ := rfl
@[simp] theorem Chip.modDeck_ladle (d : Deck) (f : DeckAll → DeckAll) : (ch.modDeck d f).ladle = ch.ladle := rfl
@[simp] theorem Chip.modDeck_ladleAnswer (d : Deck) (f : DeckAll → DeckAll) : (ch.modDeck d f).ladleAnswer = ch.ladleAnswer := rfl
@[simp] theorem Chip.modDeck_funnel (d : Deck) (f : DeckAll → DeckAll) : (ch.modDeck d f).funnel = ch.funnel := rfl
@[simp] theorem Chip.modDeck_sram (d : Deck) (f : DeckAll → DeckAll) : (ch.modDeck d f).sram = ch.sram := rfl
@[simp] theorem Chip.modDeck_merge (d : Deck) (f : DeckAll → DeckAll) : (ch.modDeck d f).merge = ch.merge := rfl
@[simp] theorem Chip.modDeck_cache (d : Deck) (f : DeckAll → DeckAll) : (ch.modDeck d f).cache = ch.cache := rfl
@[simp] theorem Chip.modDeck_readOut (d : Deck) (f : DeckAll → DeckAll) : (ch.modDeck d f).readOut = ch.readOut := rfl
@[simp] theorem Chip.modDeck_events (d : Deck) (f : DeckAll → DeckAll) : (ch.modDeck d f).events = ch.events := rfl
@[simp] theorem Chip.modDeck_held (d : Deck) (f : DeckAll → DeckAll) : (ch.modDeck d f).held = ch.held := rfl
@[simp] theorem Chip.modDeck_openQ (d : Deck) (f : DeckAll → DeckAll) : (ch.modDeck d f).openQ = ch.openQ := rfl
@[simp] theorem Chip.modDeck_tongsQ (d : Deck) (f : DeckAll → DeckAll) : (ch.modDeck d f).tongsQ = ch.tongsQ := rfl
@[simp] theorem Chip.modDeck_ehran (d : Deck) (f : DeckAll → DeckAll) : (ch.modDeck d f).ehran = ch.ehran := rfl
@[simp] theorem Chip.modDeck_spi (d : Deck) (f : DeckAll → DeckAll) : (ch.modDeck d f).spi = ch.spi := rfl
@[simp] theorem Chip.modDeck_i2c (d : Deck) (f : DeckAll → DeckAll) : (ch.modDeck d f).i2c = ch.i2c := rfl
@[simp] theorem Chip.modDeck_jtag (d : Deck) (f : DeckAll → DeckAll) : (ch.modDeck d f).jtag = ch.jtag := rfl
@[simp] theorem Chip.modDeck_sieve (d : Deck) (f : DeckAll → DeckAll) : (ch.modDeck d f).sieve = ch.sieve := rfl
@[simp] theorem Chip.modDeck_rotor (d : Deck) (f : DeckAll → DeckAll) : (ch.modDeck d f).rotor = ch.rotor := rfl
@[simp] theorem Chip.modDeck_ctxs (d : Deck) (f : DeckAll → DeckAll) : (ch.modDeck d f).ctxs = ch.ctxs := rfl
@[simp] theorem Chip.modDeck_decks (d : Deck) (f : DeckAll → DeckAll) : (ch.modDeck d f).decks = ch.decks.set d (f (ch.decks.get d)) := rfl
@[simp] theorem Chip.modDeck_freeUsed (d : Deck) (f : DeckAll → DeckAll) : (ch.modDeck d f).freeUsed = ch.freeUsed := rfl

@[simp] theorem Chip.modEhran_power (p : EPort) (f : EhranPort → EhranPort) : (ch.modEhran p f).power = ch.power := rfl
@[simp] theorem Chip.modEhran_domains (p : EPort) (f : EhranPort → EhranPort) : (ch.modEhran p f).domains = ch.domains := rfl
@[simp] theorem Chip.modEhran_timebase (p : EPort) (f : EhranPort → EhranPort) : (ch.modEhran p f).timebase = ch.timebase := rfl
@[simp] theorem Chip.modEhran_kettle (p : EPort) (f : EhranPort → EhranPort) : (ch.modEhran p f).kettle = ch.kettle := rfl
@[simp] theorem Chip.modEhran_temp (p : EPort) (f : EhranPort → EhranPort) : (ch.modEhran p f).temp = ch.temp := rfl
@[simp] theorem Chip.modEhran_log (p : EPort) (f : EhranPort → EhranPort) : (ch.modEhran p f).log = ch.log := rfl
@[simp] theorem Chip.modEhran_cook (p : EPort) (f : EhranPort → EhranPort) : (ch.modEhran p f).cook = ch.cook := rfl
@[simp] theorem Chip.modEhran_emergency (p : EPort) (f : EhranPort → EhranPort) : (ch.modEhran p f).emergency = ch.emergency := rfl
@[simp] theorem Chip.modEhran_passQ (p : EPort) (f : EhranPort → EhranPort) : (ch.modEhran p f).passQ = ch.passQ := rfl
@[simp] theorem Chip.modEhran_ladle (p : EPort) (f : EhranPort → EhranPort) : (ch.modEhran p f).ladle = ch.ladle := rfl
@[simp] theorem Chip.modEhran_ladleAnswer (p : EPort) (f : EhranPort → EhranPort) : (ch.modEhran p f).ladleAnswer = ch.ladleAnswer := rfl
@[simp] theorem Chip.modEhran_funnel (p : EPort) (f : EhranPort → EhranPort) : (ch.modEhran p f).funnel = ch.funnel := rfl
@[simp] theorem Chip.modEhran_sram (p : EPort) (f : EhranPort → EhranPort) : (ch.modEhran p f).sram = ch.sram := rfl
@[simp] theorem Chip.modEhran_merge (p : EPort) (f : EhranPort → EhranPort) : (ch.modEhran p f).merge = ch.merge := rfl
@[simp] theorem Chip.modEhran_cache (p : EPort) (f : EhranPort → EhranPort) : (ch.modEhran p f).cache = ch.cache := rfl
@[simp] theorem Chip.modEhran_readOut (p : EPort) (f : EhranPort → EhranPort) : (ch.modEhran p f).readOut = ch.readOut := rfl
@[simp] theorem Chip.modEhran_events (p : EPort) (f : EhranPort → EhranPort) : (ch.modEhran p f).events = ch.events := rfl
@[simp] theorem Chip.modEhran_held (p : EPort) (f : EhranPort → EhranPort) : (ch.modEhran p f).held = ch.held := rfl
@[simp] theorem Chip.modEhran_openQ (p : EPort) (f : EhranPort → EhranPort) : (ch.modEhran p f).openQ = ch.openQ := rfl
@[simp] theorem Chip.modEhran_tongsQ (p : EPort) (f : EhranPort → EhranPort) : (ch.modEhran p f).tongsQ = ch.tongsQ := rfl
@[simp] theorem Chip.modEhran_ehran (p : EPort) (f : EhranPort → EhranPort) : (ch.modEhran p f).ehran = ch.ehran.set p (f (ch.ehran.get p)) := rfl
@[simp] theorem Chip.modEhran_spi (p : EPort) (f : EhranPort → EhranPort) : (ch.modEhran p f).spi = ch.spi := rfl
@[simp] theorem Chip.modEhran_i2c (p : EPort) (f : EhranPort → EhranPort) : (ch.modEhran p f).i2c = ch.i2c := rfl
@[simp] theorem Chip.modEhran_jtag (p : EPort) (f : EhranPort → EhranPort) : (ch.modEhran p f).jtag = ch.jtag := rfl
@[simp] theorem Chip.modEhran_sieve (p : EPort) (f : EhranPort → EhranPort) : (ch.modEhran p f).sieve = ch.sieve := rfl
@[simp] theorem Chip.modEhran_rotor (p : EPort) (f : EhranPort → EhranPort) : (ch.modEhran p f).rotor = ch.rotor := rfl
@[simp] theorem Chip.modEhran_ctxs (p : EPort) (f : EhranPort → EhranPort) : (ch.modEhran p f).ctxs = ch.ctxs := rfl
@[simp] theorem Chip.modEhran_decks (p : EPort) (f : EhranPort → EhranPort) : (ch.modEhran p f).decks = ch.decks := rfl
@[simp] theorem Chip.modEhran_freeUsed (p : EPort) (f : EhranPort → EhranPort) : (ch.modEhran p f).freeUsed = ch.freeUsed := rfl

@[simp] theorem Chip.modSieve_power (p : Port) (f : Sieve → Sieve) : (ch.modSieve p f).power = ch.power := rfl
@[simp] theorem Chip.modSieve_domains (p : Port) (f : Sieve → Sieve) : (ch.modSieve p f).domains = ch.domains := rfl
@[simp] theorem Chip.modSieve_timebase (p : Port) (f : Sieve → Sieve) : (ch.modSieve p f).timebase = ch.timebase := rfl
@[simp] theorem Chip.modSieve_kettle (p : Port) (f : Sieve → Sieve) : (ch.modSieve p f).kettle = ch.kettle := rfl
@[simp] theorem Chip.modSieve_temp (p : Port) (f : Sieve → Sieve) : (ch.modSieve p f).temp = ch.temp := rfl
@[simp] theorem Chip.modSieve_log (p : Port) (f : Sieve → Sieve) : (ch.modSieve p f).log = ch.log := rfl
@[simp] theorem Chip.modSieve_cook (p : Port) (f : Sieve → Sieve) : (ch.modSieve p f).cook = ch.cook := rfl
@[simp] theorem Chip.modSieve_emergency (p : Port) (f : Sieve → Sieve) : (ch.modSieve p f).emergency = ch.emergency := rfl
@[simp] theorem Chip.modSieve_passQ (p : Port) (f : Sieve → Sieve) : (ch.modSieve p f).passQ = ch.passQ := rfl
@[simp] theorem Chip.modSieve_ladle (p : Port) (f : Sieve → Sieve) : (ch.modSieve p f).ladle = ch.ladle := rfl
@[simp] theorem Chip.modSieve_ladleAnswer (p : Port) (f : Sieve → Sieve) : (ch.modSieve p f).ladleAnswer = ch.ladleAnswer := rfl
@[simp] theorem Chip.modSieve_funnel (p : Port) (f : Sieve → Sieve) : (ch.modSieve p f).funnel = ch.funnel := rfl
@[simp] theorem Chip.modSieve_sram (p : Port) (f : Sieve → Sieve) : (ch.modSieve p f).sram = ch.sram := rfl
@[simp] theorem Chip.modSieve_merge (p : Port) (f : Sieve → Sieve) : (ch.modSieve p f).merge = ch.merge := rfl
@[simp] theorem Chip.modSieve_cache (p : Port) (f : Sieve → Sieve) : (ch.modSieve p f).cache = ch.cache := rfl
@[simp] theorem Chip.modSieve_readOut (p : Port) (f : Sieve → Sieve) : (ch.modSieve p f).readOut = ch.readOut := rfl
@[simp] theorem Chip.modSieve_events (p : Port) (f : Sieve → Sieve) : (ch.modSieve p f).events = ch.events := rfl
@[simp] theorem Chip.modSieve_held (p : Port) (f : Sieve → Sieve) : (ch.modSieve p f).held = ch.held := rfl
@[simp] theorem Chip.modSieve_openQ (p : Port) (f : Sieve → Sieve) : (ch.modSieve p f).openQ = ch.openQ := rfl
@[simp] theorem Chip.modSieve_tongsQ (p : Port) (f : Sieve → Sieve) : (ch.modSieve p f).tongsQ = ch.tongsQ := rfl
@[simp] theorem Chip.modSieve_ehran (p : Port) (f : Sieve → Sieve) : (ch.modSieve p f).ehran = ch.ehran := rfl
@[simp] theorem Chip.modSieve_spi (p : Port) (f : Sieve → Sieve) : (ch.modSieve p f).spi = ch.spi := rfl
@[simp] theorem Chip.modSieve_i2c (p : Port) (f : Sieve → Sieve) : (ch.modSieve p f).i2c = ch.i2c := rfl
@[simp] theorem Chip.modSieve_jtag (p : Port) (f : Sieve → Sieve) : (ch.modSieve p f).jtag = ch.jtag := rfl
@[simp] theorem Chip.modSieve_sieve (p : Port) (f : Sieve → Sieve) : (ch.modSieve p f).sieve = ch.sieve.set p (f (ch.sieve.get p)) := rfl
@[simp] theorem Chip.modSieve_rotor (p : Port) (f : Sieve → Sieve) : (ch.modSieve p f).rotor = ch.rotor := rfl
@[simp] theorem Chip.modSieve_ctxs (p : Port) (f : Sieve → Sieve) : (ch.modSieve p f).ctxs = ch.ctxs := rfl
@[simp] theorem Chip.modSieve_decks (p : Port) (f : Sieve → Sieve) : (ch.modSieve p f).decks = ch.decks := rfl
@[simp] theorem Chip.modSieve_freeUsed (p : Port) (f : Sieve → Sieve) : (ch.modSieve p f).freeUsed = ch.freeUsed := rfl

@[simp] theorem Chip.modSite_power (n : Fin 18) (f : Site → Site) : (ch.modSite n f).power = ch.power := rfl
@[simp] theorem Chip.modSite_domains (n : Fin 18) (f : Site → Site) : (ch.modSite n f).domains = ch.domains := rfl
@[simp] theorem Chip.modSite_timebase (n : Fin 18) (f : Site → Site) : (ch.modSite n f).timebase = ch.timebase := rfl
@[simp] theorem Chip.modSite_kettle (n : Fin 18) (f : Site → Site) : (ch.modSite n f).kettle = ch.kettle := rfl
@[simp] theorem Chip.modSite_temp (n : Fin 18) (f : Site → Site) : (ch.modSite n f).temp = ch.temp := rfl
@[simp] theorem Chip.modSite_log (n : Fin 18) (f : Site → Site) : (ch.modSite n f).log = ch.log := rfl
@[simp] theorem Chip.modSite_cook (n : Fin 18) (f : Site → Site) : (ch.modSite n f).cook = ch.cook := rfl
@[simp] theorem Chip.modSite_emergency (n : Fin 18) (f : Site → Site) : (ch.modSite n f).emergency = ch.emergency := rfl
@[simp] theorem Chip.modSite_passQ (n : Fin 18) (f : Site → Site) : (ch.modSite n f).passQ = ch.passQ := rfl
@[simp] theorem Chip.modSite_ladle (n : Fin 18) (f : Site → Site) : (ch.modSite n f).ladle = ch.ladle := rfl
@[simp] theorem Chip.modSite_ladleAnswer (n : Fin 18) (f : Site → Site) : (ch.modSite n f).ladleAnswer = ch.ladleAnswer := rfl
@[simp] theorem Chip.modSite_funnel (n : Fin 18) (f : Site → Site) : (ch.modSite n f).funnel = { ch.funnel with sites := ch.funnel.sites.set n (f (ch.funnel.sites.get n)) } := rfl
@[simp] theorem Chip.modSite_sram (n : Fin 18) (f : Site → Site) : (ch.modSite n f).sram = ch.sram := rfl
@[simp] theorem Chip.modSite_merge (n : Fin 18) (f : Site → Site) : (ch.modSite n f).merge = ch.merge := rfl
@[simp] theorem Chip.modSite_cache (n : Fin 18) (f : Site → Site) : (ch.modSite n f).cache = ch.cache := rfl
@[simp] theorem Chip.modSite_readOut (n : Fin 18) (f : Site → Site) : (ch.modSite n f).readOut = ch.readOut := rfl
@[simp] theorem Chip.modSite_events (n : Fin 18) (f : Site → Site) : (ch.modSite n f).events = ch.events := rfl
@[simp] theorem Chip.modSite_held (n : Fin 18) (f : Site → Site) : (ch.modSite n f).held = ch.held := rfl
@[simp] theorem Chip.modSite_openQ (n : Fin 18) (f : Site → Site) : (ch.modSite n f).openQ = ch.openQ := rfl
@[simp] theorem Chip.modSite_tongsQ (n : Fin 18) (f : Site → Site) : (ch.modSite n f).tongsQ = ch.tongsQ := rfl
@[simp] theorem Chip.modSite_ehran (n : Fin 18) (f : Site → Site) : (ch.modSite n f).ehran = ch.ehran := rfl
@[simp] theorem Chip.modSite_spi (n : Fin 18) (f : Site → Site) : (ch.modSite n f).spi = ch.spi := rfl
@[simp] theorem Chip.modSite_i2c (n : Fin 18) (f : Site → Site) : (ch.modSite n f).i2c = ch.i2c := rfl
@[simp] theorem Chip.modSite_jtag (n : Fin 18) (f : Site → Site) : (ch.modSite n f).jtag = ch.jtag := rfl
@[simp] theorem Chip.modSite_sieve (n : Fin 18) (f : Site → Site) : (ch.modSite n f).sieve = ch.sieve := rfl
@[simp] theorem Chip.modSite_rotor (n : Fin 18) (f : Site → Site) : (ch.modSite n f).rotor = ch.rotor := rfl
@[simp] theorem Chip.modSite_ctxs (n : Fin 18) (f : Site → Site) : (ch.modSite n f).ctxs = ch.ctxs := rfl
@[simp] theorem Chip.modSite_decks (n : Fin 18) (f : Site → Site) : (ch.modSite n f).decks = ch.decks := rfl
@[simp] theorem Chip.modSite_freeUsed (n : Fin 18) (f : Site → Site) : (ch.modSite n f).freeUsed = ch.freeUsed := rfl

@[simp] theorem Chip.modI2c_power (f : I2cPort → I2cPort) : (ch.modI2c f).power = ch.power := rfl
@[simp] theorem Chip.modI2c_domains (f : I2cPort → I2cPort) : (ch.modI2c f).domains = ch.domains := rfl
@[simp] theorem Chip.modI2c_timebase (f : I2cPort → I2cPort) : (ch.modI2c f).timebase = ch.timebase := rfl
@[simp] theorem Chip.modI2c_kettle (f : I2cPort → I2cPort) : (ch.modI2c f).kettle = ch.kettle := rfl
@[simp] theorem Chip.modI2c_temp (f : I2cPort → I2cPort) : (ch.modI2c f).temp = ch.temp := rfl
@[simp] theorem Chip.modI2c_log (f : I2cPort → I2cPort) : (ch.modI2c f).log = ch.log := rfl
@[simp] theorem Chip.modI2c_cook (f : I2cPort → I2cPort) : (ch.modI2c f).cook = ch.cook := rfl
@[simp] theorem Chip.modI2c_emergency (f : I2cPort → I2cPort) : (ch.modI2c f).emergency = ch.emergency := rfl
@[simp] theorem Chip.modI2c_passQ (f : I2cPort → I2cPort) : (ch.modI2c f).passQ = ch.passQ := rfl
@[simp] theorem Chip.modI2c_ladle (f : I2cPort → I2cPort) : (ch.modI2c f).ladle = ch.ladle := rfl
@[simp] theorem Chip.modI2c_ladleAnswer (f : I2cPort → I2cPort) : (ch.modI2c f).ladleAnswer = ch.ladleAnswer := rfl
@[simp] theorem Chip.modI2c_funnel (f : I2cPort → I2cPort) : (ch.modI2c f).funnel = ch.funnel := rfl
@[simp] theorem Chip.modI2c_sram (f : I2cPort → I2cPort) : (ch.modI2c f).sram = ch.sram := rfl
@[simp] theorem Chip.modI2c_merge (f : I2cPort → I2cPort) : (ch.modI2c f).merge = ch.merge := rfl
@[simp] theorem Chip.modI2c_cache (f : I2cPort → I2cPort) : (ch.modI2c f).cache = ch.cache := rfl
@[simp] theorem Chip.modI2c_readOut (f : I2cPort → I2cPort) : (ch.modI2c f).readOut = ch.readOut := rfl
@[simp] theorem Chip.modI2c_events (f : I2cPort → I2cPort) : (ch.modI2c f).events = ch.events := rfl
@[simp] theorem Chip.modI2c_held (f : I2cPort → I2cPort) : (ch.modI2c f).held = ch.held := rfl
@[simp] theorem Chip.modI2c_openQ (f : I2cPort → I2cPort) : (ch.modI2c f).openQ = ch.openQ := rfl
@[simp] theorem Chip.modI2c_tongsQ (f : I2cPort → I2cPort) : (ch.modI2c f).tongsQ = ch.tongsQ := rfl
@[simp] theorem Chip.modI2c_ehran (f : I2cPort → I2cPort) : (ch.modI2c f).ehran = ch.ehran := rfl
@[simp] theorem Chip.modI2c_spi (f : I2cPort → I2cPort) : (ch.modI2c f).spi = ch.spi := rfl
@[simp] theorem Chip.modI2c_i2c (f : I2cPort → I2cPort) : (ch.modI2c f).i2c = f ch.i2c := rfl
@[simp] theorem Chip.modI2c_jtag (f : I2cPort → I2cPort) : (ch.modI2c f).jtag = ch.jtag := rfl
@[simp] theorem Chip.modI2c_sieve (f : I2cPort → I2cPort) : (ch.modI2c f).sieve = ch.sieve := rfl
@[simp] theorem Chip.modI2c_rotor (f : I2cPort → I2cPort) : (ch.modI2c f).rotor = ch.rotor := rfl
@[simp] theorem Chip.modI2c_ctxs (f : I2cPort → I2cPort) : (ch.modI2c f).ctxs = ch.ctxs := rfl
@[simp] theorem Chip.modI2c_decks (f : I2cPort → I2cPort) : (ch.modI2c f).decks = ch.decks := rfl
@[simp] theorem Chip.modI2c_freeUsed (f : I2cPort → I2cPort) : (ch.modI2c f).freeUsed = ch.freeUsed := rfl

@[simp] theorem Chip.modJtag_power (f : Jtag → Jtag) : (ch.modJtag f).power = ch.power := rfl
@[simp] theorem Chip.modJtag_domains (f : Jtag → Jtag) : (ch.modJtag f).domains = ch.domains := rfl
@[simp] theorem Chip.modJtag_timebase (f : Jtag → Jtag) : (ch.modJtag f).timebase = ch.timebase := rfl
@[simp] theorem Chip.modJtag_kettle (f : Jtag → Jtag) : (ch.modJtag f).kettle = ch.kettle := rfl
@[simp] theorem Chip.modJtag_temp (f : Jtag → Jtag) : (ch.modJtag f).temp = ch.temp := rfl
@[simp] theorem Chip.modJtag_log (f : Jtag → Jtag) : (ch.modJtag f).log = ch.log := rfl
@[simp] theorem Chip.modJtag_cook (f : Jtag → Jtag) : (ch.modJtag f).cook = ch.cook := rfl
@[simp] theorem Chip.modJtag_emergency (f : Jtag → Jtag) : (ch.modJtag f).emergency = ch.emergency := rfl
@[simp] theorem Chip.modJtag_passQ (f : Jtag → Jtag) : (ch.modJtag f).passQ = ch.passQ := rfl
@[simp] theorem Chip.modJtag_ladle (f : Jtag → Jtag) : (ch.modJtag f).ladle = ch.ladle := rfl
@[simp] theorem Chip.modJtag_ladleAnswer (f : Jtag → Jtag) : (ch.modJtag f).ladleAnswer = ch.ladleAnswer := rfl
@[simp] theorem Chip.modJtag_funnel (f : Jtag → Jtag) : (ch.modJtag f).funnel = ch.funnel := rfl
@[simp] theorem Chip.modJtag_sram (f : Jtag → Jtag) : (ch.modJtag f).sram = ch.sram := rfl
@[simp] theorem Chip.modJtag_merge (f : Jtag → Jtag) : (ch.modJtag f).merge = ch.merge := rfl
@[simp] theorem Chip.modJtag_cache (f : Jtag → Jtag) : (ch.modJtag f).cache = ch.cache := rfl
@[simp] theorem Chip.modJtag_readOut (f : Jtag → Jtag) : (ch.modJtag f).readOut = ch.readOut := rfl
@[simp] theorem Chip.modJtag_events (f : Jtag → Jtag) : (ch.modJtag f).events = ch.events := rfl
@[simp] theorem Chip.modJtag_held (f : Jtag → Jtag) : (ch.modJtag f).held = ch.held := rfl
@[simp] theorem Chip.modJtag_openQ (f : Jtag → Jtag) : (ch.modJtag f).openQ = ch.openQ := rfl
@[simp] theorem Chip.modJtag_tongsQ (f : Jtag → Jtag) : (ch.modJtag f).tongsQ = ch.tongsQ := rfl
@[simp] theorem Chip.modJtag_ehran (f : Jtag → Jtag) : (ch.modJtag f).ehran = ch.ehran := rfl
@[simp] theorem Chip.modJtag_spi (f : Jtag → Jtag) : (ch.modJtag f).spi = ch.spi := rfl
@[simp] theorem Chip.modJtag_i2c (f : Jtag → Jtag) : (ch.modJtag f).i2c = ch.i2c := rfl
@[simp] theorem Chip.modJtag_jtag (f : Jtag → Jtag) : (ch.modJtag f).jtag = f ch.jtag := rfl
@[simp] theorem Chip.modJtag_sieve (f : Jtag → Jtag) : (ch.modJtag f).sieve = ch.sieve := rfl
@[simp] theorem Chip.modJtag_rotor (f : Jtag → Jtag) : (ch.modJtag f).rotor = ch.rotor := rfl
@[simp] theorem Chip.modJtag_ctxs (f : Jtag → Jtag) : (ch.modJtag f).ctxs = ch.ctxs := rfl
@[simp] theorem Chip.modJtag_decks (f : Jtag → Jtag) : (ch.modJtag f).decks = ch.decks := rfl
@[simp] theorem Chip.modJtag_freeUsed (f : Jtag → Jtag) : (ch.modJtag f).freeUsed = ch.freeUsed := rfl

@[simp] theorem Chip.modKettle_power (f : Kettle → Kettle) : (ch.modKettle f).power = ch.power := rfl
@[simp] theorem Chip.modKettle_domains (f : Kettle → Kettle) : (ch.modKettle f).domains = ch.domains := rfl
@[simp] theorem Chip.modKettle_timebase (f : Kettle → Kettle) : (ch.modKettle f).timebase = ch.timebase := rfl
@[simp] theorem Chip.modKettle_kettle (f : Kettle → Kettle) : (ch.modKettle f).kettle = f ch.kettle := rfl
@[simp] theorem Chip.modKettle_temp (f : Kettle → Kettle) : (ch.modKettle f).temp = ch.temp := rfl
@[simp] theorem Chip.modKettle_log (f : Kettle → Kettle) : (ch.modKettle f).log = ch.log := rfl
@[simp] theorem Chip.modKettle_cook (f : Kettle → Kettle) : (ch.modKettle f).cook = ch.cook := rfl
@[simp] theorem Chip.modKettle_emergency (f : Kettle → Kettle) : (ch.modKettle f).emergency = ch.emergency := rfl
@[simp] theorem Chip.modKettle_passQ (f : Kettle → Kettle) : (ch.modKettle f).passQ = ch.passQ := rfl
@[simp] theorem Chip.modKettle_ladle (f : Kettle → Kettle) : (ch.modKettle f).ladle = ch.ladle := rfl
@[simp] theorem Chip.modKettle_ladleAnswer (f : Kettle → Kettle) : (ch.modKettle f).ladleAnswer = ch.ladleAnswer := rfl
@[simp] theorem Chip.modKettle_funnel (f : Kettle → Kettle) : (ch.modKettle f).funnel = ch.funnel := rfl
@[simp] theorem Chip.modKettle_sram (f : Kettle → Kettle) : (ch.modKettle f).sram = ch.sram := rfl
@[simp] theorem Chip.modKettle_merge (f : Kettle → Kettle) : (ch.modKettle f).merge = ch.merge := rfl
@[simp] theorem Chip.modKettle_cache (f : Kettle → Kettle) : (ch.modKettle f).cache = ch.cache := rfl
@[simp] theorem Chip.modKettle_readOut (f : Kettle → Kettle) : (ch.modKettle f).readOut = ch.readOut := rfl
@[simp] theorem Chip.modKettle_events (f : Kettle → Kettle) : (ch.modKettle f).events = ch.events := rfl
@[simp] theorem Chip.modKettle_held (f : Kettle → Kettle) : (ch.modKettle f).held = ch.held := rfl
@[simp] theorem Chip.modKettle_openQ (f : Kettle → Kettle) : (ch.modKettle f).openQ = ch.openQ := rfl
@[simp] theorem Chip.modKettle_tongsQ (f : Kettle → Kettle) : (ch.modKettle f).tongsQ = ch.tongsQ := rfl
@[simp] theorem Chip.modKettle_ehran (f : Kettle → Kettle) : (ch.modKettle f).ehran = ch.ehran := rfl
@[simp] theorem Chip.modKettle_spi (f : Kettle → Kettle) : (ch.modKettle f).spi = ch.spi := rfl
@[simp] theorem Chip.modKettle_i2c (f : Kettle → Kettle) : (ch.modKettle f).i2c = ch.i2c := rfl
@[simp] theorem Chip.modKettle_jtag (f : Kettle → Kettle) : (ch.modKettle f).jtag = ch.jtag := rfl
@[simp] theorem Chip.modKettle_sieve (f : Kettle → Kettle) : (ch.modKettle f).sieve = ch.sieve := rfl
@[simp] theorem Chip.modKettle_rotor (f : Kettle → Kettle) : (ch.modKettle f).rotor = ch.rotor := rfl
@[simp] theorem Chip.modKettle_ctxs (f : Kettle → Kettle) : (ch.modKettle f).ctxs = ch.ctxs := rfl
@[simp] theorem Chip.modKettle_decks (f : Kettle → Kettle) : (ch.modKettle f).decks = ch.decks := rfl
@[simp] theorem Chip.modKettle_freeUsed (f : Kettle → Kettle) : (ch.modKettle f).freeUsed = ch.freeUsed := rfl

@[simp] theorem Chip.modLadle_power (f : Ladle → Ladle) : (ch.modLadle f).power = ch.power := rfl
@[simp] theorem Chip.modLadle_domains (f : Ladle → Ladle) : (ch.modLadle f).domains = ch.domains := rfl
@[simp] theorem Chip.modLadle_timebase (f : Ladle → Ladle) : (ch.modLadle f).timebase = ch.timebase := rfl
@[simp] theorem Chip.modLadle_kettle (f : Ladle → Ladle) : (ch.modLadle f).kettle = ch.kettle := rfl
@[simp] theorem Chip.modLadle_temp (f : Ladle → Ladle) : (ch.modLadle f).temp = ch.temp := rfl
@[simp] theorem Chip.modLadle_log (f : Ladle → Ladle) : (ch.modLadle f).log = ch.log := rfl
@[simp] theorem Chip.modLadle_cook (f : Ladle → Ladle) : (ch.modLadle f).cook = ch.cook := rfl
@[simp] theorem Chip.modLadle_emergency (f : Ladle → Ladle) : (ch.modLadle f).emergency = ch.emergency := rfl
@[simp] theorem Chip.modLadle_passQ (f : Ladle → Ladle) : (ch.modLadle f).passQ = ch.passQ := rfl
@[simp] theorem Chip.modLadle_ladle (f : Ladle → Ladle) : (ch.modLadle f).ladle = f ch.ladle := rfl
@[simp] theorem Chip.modLadle_ladleAnswer (f : Ladle → Ladle) : (ch.modLadle f).ladleAnswer = ch.ladleAnswer := rfl
@[simp] theorem Chip.modLadle_funnel (f : Ladle → Ladle) : (ch.modLadle f).funnel = ch.funnel := rfl
@[simp] theorem Chip.modLadle_sram (f : Ladle → Ladle) : (ch.modLadle f).sram = ch.sram := rfl
@[simp] theorem Chip.modLadle_merge (f : Ladle → Ladle) : (ch.modLadle f).merge = ch.merge := rfl
@[simp] theorem Chip.modLadle_cache (f : Ladle → Ladle) : (ch.modLadle f).cache = ch.cache := rfl
@[simp] theorem Chip.modLadle_readOut (f : Ladle → Ladle) : (ch.modLadle f).readOut = ch.readOut := rfl
@[simp] theorem Chip.modLadle_events (f : Ladle → Ladle) : (ch.modLadle f).events = ch.events := rfl
@[simp] theorem Chip.modLadle_held (f : Ladle → Ladle) : (ch.modLadle f).held = ch.held := rfl
@[simp] theorem Chip.modLadle_openQ (f : Ladle → Ladle) : (ch.modLadle f).openQ = ch.openQ := rfl
@[simp] theorem Chip.modLadle_tongsQ (f : Ladle → Ladle) : (ch.modLadle f).tongsQ = ch.tongsQ := rfl
@[simp] theorem Chip.modLadle_ehran (f : Ladle → Ladle) : (ch.modLadle f).ehran = ch.ehran := rfl
@[simp] theorem Chip.modLadle_spi (f : Ladle → Ladle) : (ch.modLadle f).spi = ch.spi := rfl
@[simp] theorem Chip.modLadle_i2c (f : Ladle → Ladle) : (ch.modLadle f).i2c = ch.i2c := rfl
@[simp] theorem Chip.modLadle_jtag (f : Ladle → Ladle) : (ch.modLadle f).jtag = ch.jtag := rfl
@[simp] theorem Chip.modLadle_sieve (f : Ladle → Ladle) : (ch.modLadle f).sieve = ch.sieve := rfl
@[simp] theorem Chip.modLadle_rotor (f : Ladle → Ladle) : (ch.modLadle f).rotor = ch.rotor := rfl
@[simp] theorem Chip.modLadle_ctxs (f : Ladle → Ladle) : (ch.modLadle f).ctxs = ch.ctxs := rfl
@[simp] theorem Chip.modLadle_decks (f : Ladle → Ladle) : (ch.modLadle f).decks = ch.decks := rfl
@[simp] theorem Chip.modLadle_freeUsed (f : Ladle → Ladle) : (ch.modLadle f).freeUsed = ch.freeUsed := rfl

@[simp] theorem Chip.modPower_power (f : Power → Power) : (ch.modPower f).power = f ch.power := rfl
@[simp] theorem Chip.modPower_domains (f : Power → Power) : (ch.modPower f).domains = ch.domains := rfl
@[simp] theorem Chip.modPower_timebase (f : Power → Power) : (ch.modPower f).timebase = ch.timebase := rfl
@[simp] theorem Chip.modPower_kettle (f : Power → Power) : (ch.modPower f).kettle = ch.kettle := rfl
@[simp] theorem Chip.modPower_temp (f : Power → Power) : (ch.modPower f).temp = ch.temp := rfl
@[simp] theorem Chip.modPower_log (f : Power → Power) : (ch.modPower f).log = ch.log := rfl
@[simp] theorem Chip.modPower_cook (f : Power → Power) : (ch.modPower f).cook = ch.cook := rfl
@[simp] theorem Chip.modPower_emergency (f : Power → Power) : (ch.modPower f).emergency = ch.emergency := rfl
@[simp] theorem Chip.modPower_passQ (f : Power → Power) : (ch.modPower f).passQ = ch.passQ := rfl
@[simp] theorem Chip.modPower_ladle (f : Power → Power) : (ch.modPower f).ladle = ch.ladle := rfl
@[simp] theorem Chip.modPower_ladleAnswer (f : Power → Power) : (ch.modPower f).ladleAnswer = ch.ladleAnswer := rfl
@[simp] theorem Chip.modPower_funnel (f : Power → Power) : (ch.modPower f).funnel = ch.funnel := rfl
@[simp] theorem Chip.modPower_sram (f : Power → Power) : (ch.modPower f).sram = ch.sram := rfl
@[simp] theorem Chip.modPower_merge (f : Power → Power) : (ch.modPower f).merge = ch.merge := rfl
@[simp] theorem Chip.modPower_cache (f : Power → Power) : (ch.modPower f).cache = ch.cache := rfl
@[simp] theorem Chip.modPower_readOut (f : Power → Power) : (ch.modPower f).readOut = ch.readOut := rfl
@[simp] theorem Chip.modPower_events (f : Power → Power) : (ch.modPower f).events = ch.events := rfl
@[simp] theorem Chip.modPower_held (f : Power → Power) : (ch.modPower f).held = ch.held := rfl
@[simp] theorem Chip.modPower_openQ (f : Power → Power) : (ch.modPower f).openQ = ch.openQ := rfl
@[simp] theorem Chip.modPower_tongsQ (f : Power → Power) : (ch.modPower f).tongsQ = ch.tongsQ := rfl
@[simp] theorem Chip.modPower_ehran (f : Power → Power) : (ch.modPower f).ehran = ch.ehran := rfl
@[simp] theorem Chip.modPower_spi (f : Power → Power) : (ch.modPower f).spi = ch.spi := rfl
@[simp] theorem Chip.modPower_i2c (f : Power → Power) : (ch.modPower f).i2c = ch.i2c := rfl
@[simp] theorem Chip.modPower_jtag (f : Power → Power) : (ch.modPower f).jtag = ch.jtag := rfl
@[simp] theorem Chip.modPower_sieve (f : Power → Power) : (ch.modPower f).sieve = ch.sieve := rfl
@[simp] theorem Chip.modPower_rotor (f : Power → Power) : (ch.modPower f).rotor = ch.rotor := rfl
@[simp] theorem Chip.modPower_ctxs (f : Power → Power) : (ch.modPower f).ctxs = ch.ctxs := rfl
@[simp] theorem Chip.modPower_decks (f : Power → Power) : (ch.modPower f).decks = ch.decks := rfl
@[simp] theorem Chip.modPower_freeUsed (f : Power → Power) : (ch.modPower f).freeUsed = ch.freeUsed := rfl

@[simp] theorem Chip.modSpi_power (f : SpiPort → SpiPort) : (ch.modSpi f).power = ch.power := rfl
@[simp] theorem Chip.modSpi_domains (f : SpiPort → SpiPort) : (ch.modSpi f).domains = ch.domains := rfl
@[simp] theorem Chip.modSpi_timebase (f : SpiPort → SpiPort) : (ch.modSpi f).timebase = ch.timebase := rfl
@[simp] theorem Chip.modSpi_kettle (f : SpiPort → SpiPort) : (ch.modSpi f).kettle = ch.kettle := rfl
@[simp] theorem Chip.modSpi_temp (f : SpiPort → SpiPort) : (ch.modSpi f).temp = ch.temp := rfl
@[simp] theorem Chip.modSpi_log (f : SpiPort → SpiPort) : (ch.modSpi f).log = ch.log := rfl
@[simp] theorem Chip.modSpi_cook (f : SpiPort → SpiPort) : (ch.modSpi f).cook = ch.cook := rfl
@[simp] theorem Chip.modSpi_emergency (f : SpiPort → SpiPort) : (ch.modSpi f).emergency = ch.emergency := rfl
@[simp] theorem Chip.modSpi_passQ (f : SpiPort → SpiPort) : (ch.modSpi f).passQ = ch.passQ := rfl
@[simp] theorem Chip.modSpi_ladle (f : SpiPort → SpiPort) : (ch.modSpi f).ladle = ch.ladle := rfl
@[simp] theorem Chip.modSpi_ladleAnswer (f : SpiPort → SpiPort) : (ch.modSpi f).ladleAnswer = ch.ladleAnswer := rfl
@[simp] theorem Chip.modSpi_funnel (f : SpiPort → SpiPort) : (ch.modSpi f).funnel = ch.funnel := rfl
@[simp] theorem Chip.modSpi_sram (f : SpiPort → SpiPort) : (ch.modSpi f).sram = ch.sram := rfl
@[simp] theorem Chip.modSpi_merge (f : SpiPort → SpiPort) : (ch.modSpi f).merge = ch.merge := rfl
@[simp] theorem Chip.modSpi_cache (f : SpiPort → SpiPort) : (ch.modSpi f).cache = ch.cache := rfl
@[simp] theorem Chip.modSpi_readOut (f : SpiPort → SpiPort) : (ch.modSpi f).readOut = ch.readOut := rfl
@[simp] theorem Chip.modSpi_events (f : SpiPort → SpiPort) : (ch.modSpi f).events = ch.events := rfl
@[simp] theorem Chip.modSpi_held (f : SpiPort → SpiPort) : (ch.modSpi f).held = ch.held := rfl
@[simp] theorem Chip.modSpi_openQ (f : SpiPort → SpiPort) : (ch.modSpi f).openQ = ch.openQ := rfl
@[simp] theorem Chip.modSpi_tongsQ (f : SpiPort → SpiPort) : (ch.modSpi f).tongsQ = ch.tongsQ := rfl
@[simp] theorem Chip.modSpi_ehran (f : SpiPort → SpiPort) : (ch.modSpi f).ehran = ch.ehran := rfl
@[simp] theorem Chip.modSpi_spi (f : SpiPort → SpiPort) : (ch.modSpi f).spi = f ch.spi := rfl
@[simp] theorem Chip.modSpi_i2c (f : SpiPort → SpiPort) : (ch.modSpi f).i2c = ch.i2c := rfl
@[simp] theorem Chip.modSpi_jtag (f : SpiPort → SpiPort) : (ch.modSpi f).jtag = ch.jtag := rfl
@[simp] theorem Chip.modSpi_sieve (f : SpiPort → SpiPort) : (ch.modSpi f).sieve = ch.sieve := rfl
@[simp] theorem Chip.modSpi_rotor (f : SpiPort → SpiPort) : (ch.modSpi f).rotor = ch.rotor := rfl
@[simp] theorem Chip.modSpi_ctxs (f : SpiPort → SpiPort) : (ch.modSpi f).ctxs = ch.ctxs := rfl
@[simp] theorem Chip.modSpi_decks (f : SpiPort → SpiPort) : (ch.modSpi f).decks = ch.decks := rfl
@[simp] theorem Chip.modSpi_freeUsed (f : SpiPort → SpiPort) : (ch.modSpi f).freeUsed = ch.freeUsed := rfl

@[simp] theorem Chip.modSram_power (f : Sram → Sram) : (ch.modSram f).power = ch.power := rfl
@[simp] theorem Chip.modSram_domains (f : Sram → Sram) : (ch.modSram f).domains = ch.domains := rfl
@[simp] theorem Chip.modSram_timebase (f : Sram → Sram) : (ch.modSram f).timebase = ch.timebase := rfl
@[simp] theorem Chip.modSram_kettle (f : Sram → Sram) : (ch.modSram f).kettle = ch.kettle := rfl
@[simp] theorem Chip.modSram_temp (f : Sram → Sram) : (ch.modSram f).temp = ch.temp := rfl
@[simp] theorem Chip.modSram_log (f : Sram → Sram) : (ch.modSram f).log = ch.log := rfl
@[simp] theorem Chip.modSram_cook (f : Sram → Sram) : (ch.modSram f).cook = ch.cook := rfl
@[simp] theorem Chip.modSram_emergency (f : Sram → Sram) : (ch.modSram f).emergency = ch.emergency := rfl
@[simp] theorem Chip.modSram_passQ (f : Sram → Sram) : (ch.modSram f).passQ = ch.passQ := rfl
@[simp] theorem Chip.modSram_ladle (f : Sram → Sram) : (ch.modSram f).ladle = ch.ladle := rfl
@[simp] theorem Chip.modSram_ladleAnswer (f : Sram → Sram) : (ch.modSram f).ladleAnswer = ch.ladleAnswer := rfl
@[simp] theorem Chip.modSram_funnel (f : Sram → Sram) : (ch.modSram f).funnel = ch.funnel := rfl
@[simp] theorem Chip.modSram_sram (f : Sram → Sram) : (ch.modSram f).sram = f ch.sram := rfl
@[simp] theorem Chip.modSram_merge (f : Sram → Sram) : (ch.modSram f).merge = ch.merge := rfl
@[simp] theorem Chip.modSram_cache (f : Sram → Sram) : (ch.modSram f).cache = ch.cache := rfl
@[simp] theorem Chip.modSram_readOut (f : Sram → Sram) : (ch.modSram f).readOut = ch.readOut := rfl
@[simp] theorem Chip.modSram_events (f : Sram → Sram) : (ch.modSram f).events = ch.events := rfl
@[simp] theorem Chip.modSram_held (f : Sram → Sram) : (ch.modSram f).held = ch.held := rfl
@[simp] theorem Chip.modSram_openQ (f : Sram → Sram) : (ch.modSram f).openQ = ch.openQ := rfl
@[simp] theorem Chip.modSram_tongsQ (f : Sram → Sram) : (ch.modSram f).tongsQ = ch.tongsQ := rfl
@[simp] theorem Chip.modSram_ehran (f : Sram → Sram) : (ch.modSram f).ehran = ch.ehran := rfl
@[simp] theorem Chip.modSram_spi (f : Sram → Sram) : (ch.modSram f).spi = ch.spi := rfl
@[simp] theorem Chip.modSram_i2c (f : Sram → Sram) : (ch.modSram f).i2c = ch.i2c := rfl
@[simp] theorem Chip.modSram_jtag (f : Sram → Sram) : (ch.modSram f).jtag = ch.jtag := rfl
@[simp] theorem Chip.modSram_sieve (f : Sram → Sram) : (ch.modSram f).sieve = ch.sieve := rfl
@[simp] theorem Chip.modSram_rotor (f : Sram → Sram) : (ch.modSram f).rotor = ch.rotor := rfl
@[simp] theorem Chip.modSram_ctxs (f : Sram → Sram) : (ch.modSram f).ctxs = ch.ctxs := rfl
@[simp] theorem Chip.modSram_decks (f : Sram → Sram) : (ch.modSram f).decks = ch.decks := rfl
@[simp] theorem Chip.modSram_freeUsed (f : Sram → Sram) : (ch.modSram f).freeUsed = ch.freeUsed := rfl

@[simp] theorem Chip.modTb_power (f : Timebase → Timebase) : (ch.modTb f).power = ch.power := rfl
@[simp] theorem Chip.modTb_domains (f : Timebase → Timebase) : (ch.modTb f).domains = ch.domains := rfl
@[simp] theorem Chip.modTb_timebase (f : Timebase → Timebase) : (ch.modTb f).timebase = f ch.timebase := rfl
@[simp] theorem Chip.modTb_kettle (f : Timebase → Timebase) : (ch.modTb f).kettle = ch.kettle := rfl
@[simp] theorem Chip.modTb_temp (f : Timebase → Timebase) : (ch.modTb f).temp = ch.temp := rfl
@[simp] theorem Chip.modTb_log (f : Timebase → Timebase) : (ch.modTb f).log = ch.log := rfl
@[simp] theorem Chip.modTb_cook (f : Timebase → Timebase) : (ch.modTb f).cook = ch.cook := rfl
@[simp] theorem Chip.modTb_emergency (f : Timebase → Timebase) : (ch.modTb f).emergency = ch.emergency := rfl
@[simp] theorem Chip.modTb_passQ (f : Timebase → Timebase) : (ch.modTb f).passQ = ch.passQ := rfl
@[simp] theorem Chip.modTb_ladle (f : Timebase → Timebase) : (ch.modTb f).ladle = ch.ladle := rfl
@[simp] theorem Chip.modTb_ladleAnswer (f : Timebase → Timebase) : (ch.modTb f).ladleAnswer = ch.ladleAnswer := rfl
@[simp] theorem Chip.modTb_funnel (f : Timebase → Timebase) : (ch.modTb f).funnel = ch.funnel := rfl
@[simp] theorem Chip.modTb_sram (f : Timebase → Timebase) : (ch.modTb f).sram = ch.sram := rfl
@[simp] theorem Chip.modTb_merge (f : Timebase → Timebase) : (ch.modTb f).merge = ch.merge := rfl
@[simp] theorem Chip.modTb_cache (f : Timebase → Timebase) : (ch.modTb f).cache = ch.cache := rfl
@[simp] theorem Chip.modTb_readOut (f : Timebase → Timebase) : (ch.modTb f).readOut = ch.readOut := rfl
@[simp] theorem Chip.modTb_events (f : Timebase → Timebase) : (ch.modTb f).events = ch.events := rfl
@[simp] theorem Chip.modTb_held (f : Timebase → Timebase) : (ch.modTb f).held = ch.held := rfl
@[simp] theorem Chip.modTb_openQ (f : Timebase → Timebase) : (ch.modTb f).openQ = ch.openQ := rfl
@[simp] theorem Chip.modTb_tongsQ (f : Timebase → Timebase) : (ch.modTb f).tongsQ = ch.tongsQ := rfl
@[simp] theorem Chip.modTb_ehran (f : Timebase → Timebase) : (ch.modTb f).ehran = ch.ehran := rfl
@[simp] theorem Chip.modTb_spi (f : Timebase → Timebase) : (ch.modTb f).spi = ch.spi := rfl
@[simp] theorem Chip.modTb_i2c (f : Timebase → Timebase) : (ch.modTb f).i2c = ch.i2c := rfl
@[simp] theorem Chip.modTb_jtag (f : Timebase → Timebase) : (ch.modTb f).jtag = ch.jtag := rfl
@[simp] theorem Chip.modTb_sieve (f : Timebase → Timebase) : (ch.modTb f).sieve = ch.sieve := rfl
@[simp] theorem Chip.modTb_rotor (f : Timebase → Timebase) : (ch.modTb f).rotor = ch.rotor := rfl
@[simp] theorem Chip.modTb_ctxs (f : Timebase → Timebase) : (ch.modTb f).ctxs = ch.ctxs := rfl
@[simp] theorem Chip.modTb_decks (f : Timebase → Timebase) : (ch.modTb f).decks = ch.decks := rfl
@[simp] theorem Chip.modTb_freeUsed (f : Timebase → Timebase) : (ch.modTb f).freeUsed = ch.freeUsed := rfl

@[simp] theorem Chip.modDom_power (f : Domains → Domains) : (ch.modDom f).power = ch.power := rfl
@[simp] theorem Chip.modDom_domains (f : Domains → Domains) : (ch.modDom f).domains = f ch.domains := rfl
@[simp] theorem Chip.modDom_timebase (f : Domains → Domains) : (ch.modDom f).timebase = ch.timebase := rfl
@[simp] theorem Chip.modDom_kettle (f : Domains → Domains) : (ch.modDom f).kettle = ch.kettle := rfl
@[simp] theorem Chip.modDom_temp (f : Domains → Domains) : (ch.modDom f).temp = ch.temp := rfl
@[simp] theorem Chip.modDom_log (f : Domains → Domains) : (ch.modDom f).log = ch.log := rfl
@[simp] theorem Chip.modDom_cook (f : Domains → Domains) : (ch.modDom f).cook = ch.cook := rfl
@[simp] theorem Chip.modDom_emergency (f : Domains → Domains) : (ch.modDom f).emergency = ch.emergency := rfl
@[simp] theorem Chip.modDom_passQ (f : Domains → Domains) : (ch.modDom f).passQ = ch.passQ := rfl
@[simp] theorem Chip.modDom_ladle (f : Domains → Domains) : (ch.modDom f).ladle = ch.ladle := rfl
@[simp] theorem Chip.modDom_ladleAnswer (f : Domains → Domains) : (ch.modDom f).ladleAnswer = ch.ladleAnswer := rfl
@[simp] theorem Chip.modDom_funnel (f : Domains → Domains) : (ch.modDom f).funnel = ch.funnel := rfl
@[simp] theorem Chip.modDom_sram (f : Domains → Domains) : (ch.modDom f).sram = ch.sram := rfl
@[simp] theorem Chip.modDom_merge (f : Domains → Domains) : (ch.modDom f).merge = ch.merge := rfl
@[simp] theorem Chip.modDom_cache (f : Domains → Domains) : (ch.modDom f).cache = ch.cache := rfl
@[simp] theorem Chip.modDom_readOut (f : Domains → Domains) : (ch.modDom f).readOut = ch.readOut := rfl
@[simp] theorem Chip.modDom_events (f : Domains → Domains) : (ch.modDom f).events = ch.events := rfl
@[simp] theorem Chip.modDom_held (f : Domains → Domains) : (ch.modDom f).held = ch.held := rfl
@[simp] theorem Chip.modDom_openQ (f : Domains → Domains) : (ch.modDom f).openQ = ch.openQ := rfl
@[simp] theorem Chip.modDom_tongsQ (f : Domains → Domains) : (ch.modDom f).tongsQ = ch.tongsQ := rfl
@[simp] theorem Chip.modDom_ehran (f : Domains → Domains) : (ch.modDom f).ehran = ch.ehran := rfl
@[simp] theorem Chip.modDom_spi (f : Domains → Domains) : (ch.modDom f).spi = ch.spi := rfl
@[simp] theorem Chip.modDom_i2c (f : Domains → Domains) : (ch.modDom f).i2c = ch.i2c := rfl
@[simp] theorem Chip.modDom_jtag (f : Domains → Domains) : (ch.modDom f).jtag = ch.jtag := rfl
@[simp] theorem Chip.modDom_sieve (f : Domains → Domains) : (ch.modDom f).sieve = ch.sieve := rfl
@[simp] theorem Chip.modDom_rotor (f : Domains → Domains) : (ch.modDom f).rotor = ch.rotor := rfl
@[simp] theorem Chip.modDom_ctxs (f : Domains → Domains) : (ch.modDom f).ctxs = ch.ctxs := rfl
@[simp] theorem Chip.modDom_decks (f : Domains → Domains) : (ch.modDom f).decks = ch.decks := rfl
@[simp] theorem Chip.modDom_freeUsed (f : Domains → Domains) : (ch.modDom f).freeUsed = ch.freeUsed := rfl

@[simp] theorem Chip.stage_power (f : Generation → Generation) : (ch.stage f).power = ch.power := rfl
@[simp] theorem Chip.stage_domains (f : Generation → Generation) : (ch.stage f).domains = ch.domains := rfl
@[simp] theorem Chip.stage_timebase (f : Generation → Generation) : (ch.stage f).timebase = ch.timebase := rfl
@[simp] theorem Chip.stage_kettle (f : Generation → Generation) : (ch.stage f).kettle = ch.kettle := rfl
@[simp] theorem Chip.stage_temp (f : Generation → Generation) : (ch.stage f).temp = ch.temp := rfl
@[simp] theorem Chip.stage_log (f : Generation → Generation) : (ch.stage f).log = ch.log := rfl
@[simp] theorem Chip.stage_cook (f : Generation → Generation) : (ch.stage f).cook = ch.cook := rfl
@[simp] theorem Chip.stage_emergency (f : Generation → Generation) : (ch.stage f).emergency = ch.emergency := rfl
@[simp] theorem Chip.stage_passQ (f : Generation → Generation) : (ch.stage f).passQ = { ch.passQ with staged := f ch.passQ.staged } := rfl
@[simp] theorem Chip.stage_ladle (f : Generation → Generation) : (ch.stage f).ladle = ch.ladle := rfl
@[simp] theorem Chip.stage_ladleAnswer (f : Generation → Generation) : (ch.stage f).ladleAnswer = ch.ladleAnswer := rfl
@[simp] theorem Chip.stage_funnel (f : Generation → Generation) : (ch.stage f).funnel = ch.funnel := rfl
@[simp] theorem Chip.stage_sram (f : Generation → Generation) : (ch.stage f).sram = ch.sram := rfl
@[simp] theorem Chip.stage_merge (f : Generation → Generation) : (ch.stage f).merge = ch.merge := rfl
@[simp] theorem Chip.stage_cache (f : Generation → Generation) : (ch.stage f).cache = ch.cache := rfl
@[simp] theorem Chip.stage_readOut (f : Generation → Generation) : (ch.stage f).readOut = ch.readOut := rfl
@[simp] theorem Chip.stage_events (f : Generation → Generation) : (ch.stage f).events = ch.events := rfl
@[simp] theorem Chip.stage_held (f : Generation → Generation) : (ch.stage f).held = ch.held := rfl
@[simp] theorem Chip.stage_openQ (f : Generation → Generation) : (ch.stage f).openQ = ch.openQ := rfl
@[simp] theorem Chip.stage_tongsQ (f : Generation → Generation) : (ch.stage f).tongsQ = ch.tongsQ := rfl
@[simp] theorem Chip.stage_ehran (f : Generation → Generation) : (ch.stage f).ehran = ch.ehran := rfl
@[simp] theorem Chip.stage_spi (f : Generation → Generation) : (ch.stage f).spi = ch.spi := rfl
@[simp] theorem Chip.stage_i2c (f : Generation → Generation) : (ch.stage f).i2c = ch.i2c := rfl
@[simp] theorem Chip.stage_jtag (f : Generation → Generation) : (ch.stage f).jtag = ch.jtag := rfl
@[simp] theorem Chip.stage_sieve (f : Generation → Generation) : (ch.stage f).sieve = ch.sieve := rfl
@[simp] theorem Chip.stage_rotor (f : Generation → Generation) : (ch.stage f).rotor = ch.rotor := rfl
@[simp] theorem Chip.stage_ctxs (f : Generation → Generation) : (ch.stage f).ctxs = ch.ctxs := rfl
@[simp] theorem Chip.stage_decks (f : Generation → Generation) : (ch.stage f).decks = ch.decks := rfl
@[simp] theorem Chip.stage_freeUsed (f : Generation → Generation) : (ch.stage f).freeUsed = ch.freeUsed := rfl

@[simp] theorem Chip.modCnt_power (k : Fin 3) (i : Nat) (f : InputCounters → InputCounters) : (ch.modCnt k i f).power = ch.power := rfl
@[simp] theorem Chip.modCnt_domains (k : Fin 3) (i : Nat) (f : InputCounters → InputCounters) : (ch.modCnt k i f).domains = ch.domains := rfl
@[simp] theorem Chip.modCnt_timebase (k : Fin 3) (i : Nat) (f : InputCounters → InputCounters) : (ch.modCnt k i f).timebase = ch.timebase := rfl
@[simp] theorem Chip.modCnt_kettle (k : Fin 3) (i : Nat) (f : InputCounters → InputCounters) : (ch.modCnt k i f).kettle = ch.kettle := rfl
@[simp] theorem Chip.modCnt_temp (k : Fin 3) (i : Nat) (f : InputCounters → InputCounters) : (ch.modCnt k i f).temp = ch.temp := rfl
@[simp] theorem Chip.modCnt_log (k : Fin 3) (i : Nat) (f : InputCounters → InputCounters) : (ch.modCnt k i f).log = ch.log := rfl
@[simp] theorem Chip.modCnt_cook (k : Fin 3) (i : Nat) (f : InputCounters → InputCounters) : (ch.modCnt k i f).cook = ch.cook := rfl
@[simp] theorem Chip.modCnt_emergency (k : Fin 3) (i : Nat) (f : InputCounters → InputCounters) : (ch.modCnt k i f).emergency = ch.emergency := rfl
@[simp] theorem Chip.modCnt_passQ (k : Fin 3) (i : Nat) (f : InputCounters → InputCounters) : (ch.modCnt k i f).passQ = ch.passQ := rfl
@[simp] theorem Chip.modCnt_ladle (k : Fin 3) (i : Nat) (f : InputCounters → InputCounters) : (ch.modCnt k i f).ladle = ch.ladle := rfl
@[simp] theorem Chip.modCnt_ladleAnswer (k : Fin 3) (i : Nat) (f : InputCounters → InputCounters) : (ch.modCnt k i f).ladleAnswer = ch.ladleAnswer := rfl
@[simp] theorem Chip.modCnt_funnel (k : Fin 3) (i : Nat) (f : InputCounters → InputCounters) : (ch.modCnt k i f).funnel = ch.funnel.modCnt k i f := rfl
@[simp] theorem Chip.modCnt_sram (k : Fin 3) (i : Nat) (f : InputCounters → InputCounters) : (ch.modCnt k i f).sram = ch.sram := rfl
@[simp] theorem Chip.modCnt_merge (k : Fin 3) (i : Nat) (f : InputCounters → InputCounters) : (ch.modCnt k i f).merge = ch.merge := rfl
@[simp] theorem Chip.modCnt_cache (k : Fin 3) (i : Nat) (f : InputCounters → InputCounters) : (ch.modCnt k i f).cache = ch.cache := rfl
@[simp] theorem Chip.modCnt_readOut (k : Fin 3) (i : Nat) (f : InputCounters → InputCounters) : (ch.modCnt k i f).readOut = ch.readOut := rfl
@[simp] theorem Chip.modCnt_events (k : Fin 3) (i : Nat) (f : InputCounters → InputCounters) : (ch.modCnt k i f).events = ch.events := rfl
@[simp] theorem Chip.modCnt_held (k : Fin 3) (i : Nat) (f : InputCounters → InputCounters) : (ch.modCnt k i f).held = ch.held := rfl
@[simp] theorem Chip.modCnt_openQ (k : Fin 3) (i : Nat) (f : InputCounters → InputCounters) : (ch.modCnt k i f).openQ = ch.openQ := rfl
@[simp] theorem Chip.modCnt_tongsQ (k : Fin 3) (i : Nat) (f : InputCounters → InputCounters) : (ch.modCnt k i f).tongsQ = ch.tongsQ := rfl
@[simp] theorem Chip.modCnt_ehran (k : Fin 3) (i : Nat) (f : InputCounters → InputCounters) : (ch.modCnt k i f).ehran = ch.ehran := rfl
@[simp] theorem Chip.modCnt_spi (k : Fin 3) (i : Nat) (f : InputCounters → InputCounters) : (ch.modCnt k i f).spi = ch.spi := rfl
@[simp] theorem Chip.modCnt_i2c (k : Fin 3) (i : Nat) (f : InputCounters → InputCounters) : (ch.modCnt k i f).i2c = ch.i2c := rfl
@[simp] theorem Chip.modCnt_jtag (k : Fin 3) (i : Nat) (f : InputCounters → InputCounters) : (ch.modCnt k i f).jtag = ch.jtag := rfl
@[simp] theorem Chip.modCnt_sieve (k : Fin 3) (i : Nat) (f : InputCounters → InputCounters) : (ch.modCnt k i f).sieve = ch.sieve := rfl
@[simp] theorem Chip.modCnt_rotor (k : Fin 3) (i : Nat) (f : InputCounters → InputCounters) : (ch.modCnt k i f).rotor = ch.rotor := rfl
@[simp] theorem Chip.modCnt_ctxs (k : Fin 3) (i : Nat) (f : InputCounters → InputCounters) : (ch.modCnt k i f).ctxs = ch.ctxs := rfl
@[simp] theorem Chip.modCnt_decks (k : Fin 3) (i : Nat) (f : InputCounters → InputCounters) : (ch.modCnt k i f).decks = ch.decks := rfl
@[simp] theorem Chip.modCnt_freeUsed (k : Fin 3) (i : Nat) (f : InputCounters → InputCounters) : (ch.modCnt k i f).freeUsed = ch.freeUsed := rfl

@[simp] theorem Chip.settleLog_power : ch.settleLog.power = ch.power := rfl
@[simp] theorem Chip.settleLog_domains : ch.settleLog.domains = ch.domains := rfl
@[simp] theorem Chip.settleLog_timebase : ch.settleLog.timebase = ch.timebase := rfl
@[simp] theorem Chip.settleLog_kettle : ch.settleLog.kettle = ch.kettle := rfl
@[simp] theorem Chip.settleLog_temp : ch.settleLog.temp = ch.temp := rfl
@[simp] theorem Chip.settleLog_cook : ch.settleLog.cook = ch.cook := rfl
@[simp] theorem Chip.settleLog_emergency : ch.settleLog.emergency = ch.emergency := rfl
@[simp] theorem Chip.settleLog_passQ : ch.settleLog.passQ = ch.passQ := rfl
@[simp] theorem Chip.settleLog_ladle : ch.settleLog.ladle = ch.ladle := rfl
@[simp] theorem Chip.settleLog_ladleAnswer : ch.settleLog.ladleAnswer = ch.ladleAnswer := rfl
@[simp] theorem Chip.settleLog_funnel : ch.settleLog.funnel = ch.funnel := rfl
@[simp] theorem Chip.settleLog_sram : ch.settleLog.sram = ch.sram := rfl
@[simp] theorem Chip.settleLog_merge : ch.settleLog.merge = ch.merge := rfl
@[simp] theorem Chip.settleLog_cache : ch.settleLog.cache = ch.cache := rfl
@[simp] theorem Chip.settleLog_readOut : ch.settleLog.readOut = ch.readOut := rfl
@[simp] theorem Chip.settleLog_events : ch.settleLog.events = ch.events := rfl
@[simp] theorem Chip.settleLog_held : ch.settleLog.held = ch.held := rfl
@[simp] theorem Chip.settleLog_openQ : ch.settleLog.openQ = ch.openQ := rfl
@[simp] theorem Chip.settleLog_tongsQ : ch.settleLog.tongsQ = ch.tongsQ := rfl
@[simp] theorem Chip.settleLog_ehran : ch.settleLog.ehran = ch.ehran := rfl
@[simp] theorem Chip.settleLog_spi : ch.settleLog.spi = ch.spi := rfl
@[simp] theorem Chip.settleLog_i2c : ch.settleLog.i2c = ch.i2c := rfl
@[simp] theorem Chip.settleLog_jtag : ch.settleLog.jtag = ch.jtag := rfl
@[simp] theorem Chip.settleLog_sieve : ch.settleLog.sieve = ch.sieve := rfl
@[simp] theorem Chip.settleLog_rotor : ch.settleLog.rotor = ch.rotor := rfl
@[simp] theorem Chip.settleLog_ctxs : ch.settleLog.ctxs = ch.ctxs := rfl
@[simp] theorem Chip.settleLog_decks : ch.settleLog.decks = ch.decks := rfl
@[simp] theorem Chip.settleLog_freeUsed : ch.settleLog.freeUsed = ch.freeUsed := rfl
@[simp] theorem Chip.settleLog_log : ch.settleLog.log = ch.log.settle := rfl

/-- A grant's unit comes into use: an update of its site. -/
@[simp] theorem Chip.useGrant_eq (n : Fin 18) : ch.useGrant n = ch.modSite n (fun s => { s with inUse := true }) := rfl

@[simp] theorem Chip.stamp_power (fine : BitVec 11) : (ch.stamp fine).power = ch.power := by unfold Chip.stamp; dsimp only; split <;> rfl
@[simp] theorem Chip.stamp_domains (fine : BitVec 11) : (ch.stamp fine).domains = ch.domains := by unfold Chip.stamp; dsimp only; split <;> rfl
@[simp] theorem Chip.stamp_kettle (fine : BitVec 11) : (ch.stamp fine).kettle = ch.kettle := by unfold Chip.stamp; dsimp only; split <;> rfl
@[simp] theorem Chip.stamp_temp (fine : BitVec 11) : (ch.stamp fine).temp = ch.temp := by unfold Chip.stamp; dsimp only; split <;> rfl
@[simp] theorem Chip.stamp_cook (fine : BitVec 11) : (ch.stamp fine).cook = ch.cook := by unfold Chip.stamp; dsimp only; split <;> rfl
@[simp] theorem Chip.stamp_emergency (fine : BitVec 11) : (ch.stamp fine).emergency = ch.emergency := by unfold Chip.stamp; dsimp only; split <;> rfl
@[simp] theorem Chip.stamp_passQ (fine : BitVec 11) : (ch.stamp fine).passQ = ch.passQ := by unfold Chip.stamp; dsimp only; split <;> rfl
@[simp] theorem Chip.stamp_ladle (fine : BitVec 11) : (ch.stamp fine).ladle = ch.ladle := by unfold Chip.stamp; dsimp only; split <;> rfl
@[simp] theorem Chip.stamp_ladleAnswer (fine : BitVec 11) : (ch.stamp fine).ladleAnswer = ch.ladleAnswer := by unfold Chip.stamp; dsimp only; split <;> rfl
@[simp] theorem Chip.stamp_funnel (fine : BitVec 11) : (ch.stamp fine).funnel = ch.funnel := by unfold Chip.stamp; dsimp only; split <;> rfl
@[simp] theorem Chip.stamp_sram (fine : BitVec 11) : (ch.stamp fine).sram = ch.sram := by unfold Chip.stamp; dsimp only; split <;> rfl
@[simp] theorem Chip.stamp_merge (fine : BitVec 11) : (ch.stamp fine).merge = ch.merge := by unfold Chip.stamp; dsimp only; split <;> rfl
@[simp] theorem Chip.stamp_cache (fine : BitVec 11) : (ch.stamp fine).cache = ch.cache := by unfold Chip.stamp; dsimp only; split <;> rfl
@[simp] theorem Chip.stamp_readOut (fine : BitVec 11) : (ch.stamp fine).readOut = ch.readOut := by unfold Chip.stamp; dsimp only; split <;> rfl
@[simp] theorem Chip.stamp_events (fine : BitVec 11) : (ch.stamp fine).events = ch.events := by unfold Chip.stamp; dsimp only; split <;> rfl
@[simp] theorem Chip.stamp_held (fine : BitVec 11) : (ch.stamp fine).held = ch.held := by unfold Chip.stamp; dsimp only; split <;> rfl
@[simp] theorem Chip.stamp_openQ (fine : BitVec 11) : (ch.stamp fine).openQ = ch.openQ := by unfold Chip.stamp; dsimp only; split <;> rfl
@[simp] theorem Chip.stamp_tongsQ (fine : BitVec 11) : (ch.stamp fine).tongsQ = ch.tongsQ := by unfold Chip.stamp; dsimp only; split <;> rfl
@[simp] theorem Chip.stamp_ehran (fine : BitVec 11) : (ch.stamp fine).ehran = ch.ehran := by unfold Chip.stamp; dsimp only; split <;> rfl
@[simp] theorem Chip.stamp_spi (fine : BitVec 11) : (ch.stamp fine).spi = ch.spi := by unfold Chip.stamp; dsimp only; split <;> rfl
@[simp] theorem Chip.stamp_i2c (fine : BitVec 11) : (ch.stamp fine).i2c = ch.i2c := by unfold Chip.stamp; dsimp only; split <;> rfl
@[simp] theorem Chip.stamp_jtag (fine : BitVec 11) : (ch.stamp fine).jtag = ch.jtag := by unfold Chip.stamp; dsimp only; split <;> rfl
@[simp] theorem Chip.stamp_sieve (fine : BitVec 11) : (ch.stamp fine).sieve = ch.sieve := by unfold Chip.stamp; dsimp only; split <;> rfl
@[simp] theorem Chip.stamp_rotor (fine : BitVec 11) : (ch.stamp fine).rotor = ch.rotor := by unfold Chip.stamp; dsimp only; split <;> rfl
@[simp] theorem Chip.stamp_ctxs (fine : BitVec 11) : (ch.stamp fine).ctxs = ch.ctxs := by unfold Chip.stamp; dsimp only; split <;> rfl
@[simp] theorem Chip.stamp_decks (fine : BitVec 11) : (ch.stamp fine).decks = ch.decks := by unfold Chip.stamp; dsimp only; split <;> rfl
@[simp] theorem Chip.stamp_freeUsed (fine : BitVec 11) : (ch.stamp fine).freeUsed = ch.freeUsed := by unfold Chip.stamp; dsimp only; split <;> rfl

end

/-! ### Updates of a deck -/

section
variable (k : DeckAll) (f : DeckSeq → DeckSeq)

@[simp] theorem DeckAll.modSeq_seq : (k.modSeq f).seq = f k.seq := rfl
@[simp] theorem DeckAll.modSeq_lock : (k.modSeq f).lock = k.lock := rfl
@[simp] theorem DeckAll.modSeq_profile : (k.modSeq f).profile = k.profile := rfl
@[simp] theorem DeckAll.modSeq_compress : (k.modSeq f).compress = k.compress := rfl
@[simp] theorem DeckAll.modSeq_tape : (k.modSeq f).tape = k.tape := rfl
@[simp] theorem DeckAll.modSeq_pos : (k.modSeq f).pos = k.pos := rfl
@[simp] theorem DeckAll.modSeq_loops : (k.modSeq f).loops = k.loops := rfl
@[simp] theorem DeckAll.modSeq_io : (k.modSeq f).io = k.io := rfl
@[simp] theorem DeckAll.modSeq_roller : (k.modSeq f).roller = k.roller := rfl
@[simp] theorem DeckAll.modSeq_strainer : (k.modSeq f).strainer = k.strainer := rfl
@[simp] theorem DeckAll.modSeq_matcher : (k.modSeq f).matcher = k.matcher := rfl
@[simp] theorem DeckAll.modSeq_staged : (k.modSeq f).staged = k.staged := rfl
@[simp] theorem DeckAll.modSeq_inFlight : (k.modSeq f).inFlight = k.inFlight := rfl
@[simp] theorem DeckAll.modSeq_poisoned : (k.modSeq f).poisoned = k.poisoned := rfl
@[simp] theorem DeckAll.modSeq_standing : (k.modSeq f).standing = k.standing := rfl
@[simp] theorem DeckAll.modSeq_orders : (k.modSeq f).orders = k.orders := rfl
@[simp] theorem DeckAll.modSeq_readQ : (k.modSeq f).readQ = k.readQ := rfl
@[simp] theorem DeckAll.modSeq_toExpand : (k.modSeq f).toExpand = k.toExpand := rfl
@[simp] theorem DeckAll.modSeq_cookQ : (k.modSeq f).cookQ = k.cookQ := rfl
@[simp] theorem DeckAll.modSeq_workQ : (k.modSeq f).workQ = k.workQ := rfl

end

/-! ### The words of the statements -/

section
variable (s : State) (d : Deck) (k : DeckAll)

@[simp] theorem State.withDeck_pending : (s.withDeck d k).pending = s.pending := rfl
@[simp] theorem State.withDeck_power : (s.withDeck d k).chip.power = s.chip.power := rfl
@[simp] theorem State.withDeck_domains : (s.withDeck d k).chip.domains = s.chip.domains := rfl
@[simp] theorem State.withDeck_timebase : (s.withDeck d k).chip.timebase = s.chip.timebase := rfl
@[simp] theorem State.withDeck_kettle : (s.withDeck d k).chip.kettle = s.chip.kettle := rfl
@[simp] theorem State.withDeck_temp : (s.withDeck d k).chip.temp = s.chip.temp := rfl
@[simp] theorem State.withDeck_log : (s.withDeck d k).chip.log = s.chip.log := rfl
@[simp] theorem State.withDeck_cook : (s.withDeck d k).chip.cook = s.chip.cook := rfl
@[simp] theorem State.withDeck_emergency : (s.withDeck d k).chip.emergency = s.chip.emergency := rfl
@[simp] theorem State.withDeck_passQ : (s.withDeck d k).chip.passQ = s.chip.passQ := rfl
@[simp] theorem State.withDeck_ladle : (s.withDeck d k).chip.ladle = s.chip.ladle := rfl
@[simp] theorem State.withDeck_ladleAnswer : (s.withDeck d k).chip.ladleAnswer = s.chip.ladleAnswer := rfl
@[simp] theorem State.withDeck_funnel : (s.withDeck d k).chip.funnel = s.chip.funnel := rfl
@[simp] theorem State.withDeck_sram : (s.withDeck d k).chip.sram = s.chip.sram := rfl
@[simp] theorem State.withDeck_merge : (s.withDeck d k).chip.merge = s.chip.merge := rfl
@[simp] theorem State.withDeck_cache : (s.withDeck d k).chip.cache = s.chip.cache := rfl
@[simp] theorem State.withDeck_readOut : (s.withDeck d k).chip.readOut = s.chip.readOut := rfl
@[simp] theorem State.withDeck_events : (s.withDeck d k).chip.events = s.chip.events := rfl
@[simp] theorem State.withDeck_held : (s.withDeck d k).chip.held = s.chip.held := rfl
@[simp] theorem State.withDeck_openQ : (s.withDeck d k).chip.openQ = s.chip.openQ := rfl
@[simp] theorem State.withDeck_tongsQ : (s.withDeck d k).chip.tongsQ = s.chip.tongsQ := rfl
@[simp] theorem State.withDeck_ehran : (s.withDeck d k).chip.ehran = s.chip.ehran := rfl
@[simp] theorem State.withDeck_spi : (s.withDeck d k).chip.spi = s.chip.spi := rfl
@[simp] theorem State.withDeck_i2c : (s.withDeck d k).chip.i2c = s.chip.i2c := rfl
@[simp] theorem State.withDeck_jtag : (s.withDeck d k).chip.jtag = s.chip.jtag := rfl
@[simp] theorem State.withDeck_sieve : (s.withDeck d k).chip.sieve = s.chip.sieve := rfl
@[simp] theorem State.withDeck_rotor : (s.withDeck d k).chip.rotor = s.chip.rotor := rfl
@[simp] theorem State.withDeck_ctxs : (s.withDeck d k).chip.ctxs = s.chip.ctxs := rfl
@[simp] theorem State.withDeck_decks : (s.withDeck d k).chip.decks = s.chip.decks.set d k := rfl
@[simp] theorem State.withDeck_freeUsed : (s.withDeck d k).chip.freeUsed = s.chip.freeUsed := rfl

end

end Sys2Proof.Machine
end

