-- ==== Sys2Proof/Laws/Ops.lean ====
section
/-! SUPPORT. What the shared operations of Machine/Ops.lean can do: one lemma for each, cited in place of its definition. -/

namespace Sys2Proof.Machine

/-! ### The fault log at the end of a command (R31) -/

@[simp] theorem FaultLog.append_pend (l : FaultLog) (e : LogEntry) : (l.append e).pend = l.pend := by
  simp only [FaultLog.append, FaultLog.placeMarker, FaultLog.slotCopy, FaultLog.keep]
  repeat' split
  all_goals rfl

theorem foldl_append_pend (es : List LogEntry) (l : FaultLog) : (es.foldl FaultLog.append l).pend = l.pend := by
  induction es generalizing l with
  | nil => rfl
  | cons e es ih => simp [ih]

/-- After every command nothing waits to be placed. -/
@[simp] theorem FaultLog.settle_pend (l : FaultLog) : l.settle.pend = [] := by simp [FaultLog.settle, foldl_append_pend]

/-- A command that appended nothing leaves the log as it is. -/
theorem FaultLog.settle_nil (l : FaultLog) (h : l.pend = []) : l.settle = l := by
  cases l; simp_all [FaultLog.settle]

/-- One append is placed as it stands. -/
theorem FaultLog.settle_one (l : FaultLog) (e : LogEntry) (h : l.pend = []) : FaultLog.settle { l with pend := l.pend ++ [e] } = l.append e := by
  cases l; simp_all [FaultLog.settle, placeEntry]

theorem Chip.settleLog_nil (ch : Chip) (h : ch.log.pend = []) : ch.settleLog = ch := by
  simp [Chip.settleLog, FaultLog.settle_nil _ h]

/-! ### A command whose effect is on the chip -/

/-- Every such command completes. -/
theorem State.onChip_next (s : State) (f : Chip → Chip) : s.onChip f = .next { s with chip := f s.chip } := rfl

theorem State.onChip_eq {s : State} {f : Chip → Chip} {c : Chip} (h : f s.chip = c) : s.onChip f = .next { s with chip := c } := by
  subst h; rfl

/-- An access of a management register acts while the management port answers (R5, R107). -/
theorem State.onRegister_reached {s : State} (h : s.Reached) (f : Chip → Chip) : s.onRegister f = .next { s with chip := f s.chip } := by
  simp [State.onRegister, State.onChip, h]

/-- While the port does not answer, nothing happens (R107). -/
theorem State.onRegister_unreached {s : State} (h : s.chip.i2cOn = false) (f : Chip → Chip) : s.onRegister f = .next s := by
  simp [State.onRegister, State.onChip, h]

/-- A chip that keeps time from its reference measures with it. -/
theorem onRef_of {s : State} (h : s.OnRef) : s.chip.timebase.onRef = true := by
  rcases h with h | h <;> simp [Timebase.onRef, h]

/-! ### Appending to Pass L (R30, R31, R523) -/

/-- Without a supply nothing is appended. -/
theorem Chip.report_off {ch : Chip} (h : ch.power.valid = false) (kind code : Byte) (unit : Nat) (object : W16) (ctx : Byte) (a0 a1 a2 : W32) :
    ch.report kind code unit object ctx a0 a1 a2 = ch := by simp [Chip.report, h]

/-- An append changes the waiting entries of the log, by one at their end, and the mirrors; nothing else. -/
theorem Chip.report_frame (ch : Chip) (kind code : Byte) (unit : Nat) (object : W16) (ctx : Byte) (a0 a1 a2 : W32) :
    ∃ es m, ch.report kind code unit object ctx a0 a1 a2
      = { ch with log := { ch.log with pend := ch.log.pend ++ es }, emergency := { ch.emergency with mirror := m } } ∧ es.length ≤ 1 := by
  unfold Chip.report
  split
  · dsimp only
    split
    · exact ⟨[_], _, rfl, by simp⟩
    · exact ⟨[_], ch.emergency.mirror, rfl, by simp⟩
  · exact ⟨[], ch.emergency.mirror, by simp, by simp⟩

/-! ### Events (R140 to R142, R501) -/

/-- Losing an event changes the queue's two loss fields alone. -/
theorem EvtQueue.lose_frame (q : EvtQueue) (code : Byte) : ∃ n k, q.lose code = { q with lost := n, lostClass := k } := ⟨_, _, rfl⟩

/-- Changing the EVT queue of some contexts changes the contexts alone. -/
theorem foldl_evt_frame {α : Type} (i : α → Ctx) (f : α → Context → EvtQueue) (ts : List α) (ch : Chip) :
    ∃ xs, ts.foldl (fun c t => c.modCtx (i t) (fun x => { x with evt := f t x })) ch = { ch with ctxs := xs } ∧
      ∀ j, ∃ q, xs.get j = { ch.ctxs.get j with evt := q } := by
  induction ts generalizing ch with
  | nil => exact ⟨ch.ctxs, rfl, fun j => ⟨(ch.ctxs.get j).evt, rfl⟩⟩
  | cons t ts ih =>
    obtain ⟨xs, h, hx⟩ := ih (ch.modCtx (i t) (fun x => { x with evt := f t x }))
    refine ⟨xs, by rw [List.foldl_cons, h]; rfl, fun j => ?_⟩
    obtain ⟨q, hq⟩ := hx j
    by_cases e : j = i t
    · subst e; exact ⟨q, by rw [hq]; simp [Chip.modCtx]⟩
    · exact ⟨q, by rw [hq]; simp [Chip.modCtx, vector_get_set_ne _ _ _ _ e]⟩

/-- An event that occurs changes the log's waiting entries, the mirrors, the event path's input, and of each context its EVT queue. -/
theorem Chip.postAt_frame (ch : Chip) (t : W64) (code : Byte) (sc : Scope) (unit : Nat) (object : W16) (arg : W32) :
    ∃ es m ev xs, ch.postAt t code sc unit object arg
      = { ch with
          log := { ch.log with pend := ch.log.pend ++ es }, emergency := { ch.emergency with mirror := m }, events := ev, ctxs := xs } ∧
      ∀ j, ∃ q, xs.get j = { ch.ctxs.get j with evt := q } := by
  unfold Chip.postAt
  dsimp only
  generalize hr : ch.report 1 code unit object _ arg 0 0 = c1
  obtain ⟨es, m, h, -⟩ := Chip.report_frame ch 1 code unit object _ arg 0 0
  rw [hr] at h
  split
  · exact ⟨es, m, ch.events, ch.ctxs, by rw [h], fun j => ⟨(ch.ctxs.get j).evt, rfl⟩⟩
  · split
    · exact ⟨es, m, _, ch.ctxs, by rw [h], fun j => ⟨(ch.ctxs.get j).evt, rfl⟩⟩
    · obtain ⟨xs, h2, hx⟩ := foldl_evt_frame (fun t : Ctx × W16 => t.1) (fun _ x => x.evt.lose code) (ch.targets sc object) c1
      refine ⟨es, m, ch.events, xs, by rw [h2, h], fun j => ?_⟩
      obtain ⟨q, hq⟩ := hx j
      exact ⟨q, by rw [hq, h]⟩

/-- Delivery changes, of each context, its EVT queue alone. -/
theorem Chip.deliver_frame (ch : Chip) (e : Event) :
    ∃ xs, ch.deliver e = { ch with ctxs := xs } ∧ ∀ j, ∃ q, xs.get j = { ch.ctxs.get j with evt := q } := by
  have hf : (fun (c1 : Chip) (t : Ctx × W16) => c1.modCtx t.1 (fun x =>
        if x.isOpen then { x with evt := x.evt.push (x.depth 2) e.code t.2 e.arg e.time } else x))
      = fun c1 t => c1.modCtx t.1 (fun x =>
        { x with evt := if x.isOpen then x.evt.push (x.depth 2) e.code t.2 e.arg e.time else x.evt }) := by
    funext c1 t
    congr 1
    funext x
    split <;> rfl
  unfold Chip.deliver
  rw [hf]
  exact foldl_evt_frame (fun t : Ctx × W16 => t.1) _ e.targets ch

/-! ### Locks, leases and completions (R163, R167, R125) -/

/-- A change of a deck's lock changes that lock, the log's waiting entries and the mirrors. -/
theorem Chip.setLock_frame (ch : Chip) (d : Deck) (l : DeckLock) :
    ∃ es m, ch.setLock d l
      = { (ch.modDeck d fun k => { k with lock := l }) with
          log := { ch.log with pend := ch.log.pend ++ es }, emergency := { ch.emergency with mirror := m } } := by
  unfold Chip.setLock
  dsimp only
  split
  · exact ⟨[], ch.emergency.mirror, by simp [Chip.modDeck]⟩
  · obtain ⟨es, m, h, -⟩ := Chip.report_frame (ch.modDeck d fun k => { k with lock := l }) 3 0x01 _ (deckObject d) 0xFF _ _ 0
    exact ⟨es, m, h⟩

/-- Restarting leases changes the locks of the decks alone. -/
theorem Chip.restartLeases_frame (ch : Chip) (i : Ctx) :
    ∃ ks, ch.restartLeases i = { ch with decks := ks } ∧ ∀ d : Deck, ∃ l, ks[d.val] = { ch.decks[d.val] with lock := l } := by
  refine ⟨_, rfl, fun d => ?_⟩
  simp only [Vector.getElem_map, Vector.getElem_zipIdx]
  split
  · exact ⟨_, rfl⟩
  · exact ⟨_, rfl⟩

/-- A context that is not OPEN takes no completion (Table 6-9). -/
theorem Chip.complete_closed {ch : Chip} {i : Ctx} (h : (ch.ctxs.get i).state ≠ .open) (tag : W16) (rcrc : Bool) (st : Stat) (payload : List Byte) :
    ch.complete i tag rcrc st payload = ch := by simp [Chip.complete, h]

/-- A completion goes to the tail of the RPL queue, and its command stops executing. -/
theorem Chip.complete_open {ch : Chip} {i : Ctx} (h : (ch.ctxs.get i).state = .open) (tag : W16) (rcrc : Bool) (st : Stat) (payload : List Byte) :
    ch.complete i tag rcrc st payload = (ch.restartLeases i).modCtx i (fun x =>
      { x with rpl := x.rpl ++ [ctxReply 0x80 i tag rcrc st payload ch.now], executing := dropTag tag x.executing }) := by
  simp [Chip.complete, h]

end Sys2Proof.Machine
end

