-- ==== Sys2Proof/Laws/Commands.lean ====
section
/-! SUPPORT. Taking a queued command (R176) and completing it at once (R125, R167). -/

namespace Sys2Proof.Machine

/-- A command at the head of its open context's queue, under its F-PORT grant, is taken. -/
theorem Chip.take_heads {s : State} {op : Op} {h : CmdHdr} {p : List Byte} {rest : List Cmd} (hs : s.Heads op h p rest) (ho : op ≠ .ctxOpen) :
    s.chip.take (cmdOf op h p) = some (s.took h rest).chip := by
  obtain ⟨h1, h2, h3, h4⟩ := hs
  have e : (cmdOf op h p).ctx = h.ctx := rfl
  have e2 : (cmdOf op h p).op = op := rfl
  unfold Chip.take
  simp only [e, e2, h1, h2, h3, ho, h4]
  simp [Chip.modCtx, Chip.modSite, State.took, State.unitUsed, h3]

/-- No lease runs afresh for a context that executes nothing. -/
theorem Chip.restartLeases_idle (ch : Chip) (i : Ctx) (h : (ch.ctxs.get i).executing = []) : ch.restartLeases i = ch := by
  unfold Chip.restartLeases
  have : (ch.decks.zipIdx.map fun k => if k.1.lock.state = .held i ∧ (ch.ctxs.get i).working (Fin.ofNat 4 k.2) then
      { k.1 with lock := { k.1.lock with leaseAt := ch.now, warned := false } } else k.1) = ch.decks := by
    ext j hj; simp [Context.working, h]
  rw [this]

/-- A command just taken that completes at once leaves the context's reply behind it and nothing else. -/
theorem Chip.answerCmd_took (s : State) (h : CmdHdr) (rest : List Cmd) (op : Op) (p : List Byte) (st : Stat) (payload : List Byte)
    (ho : (s.chip.ctxs.get h.ctx).state = .open) (he : (s.chip.ctxs.get h.ctx).executing = []) :
    (s.took h rest).chip.answerCmd (cmdOf op h p) st payload = (s.answered h rest st payload).chip := by
  have e : (cmdOf op h p).ctx = h.ctx := rfl
  have ho' : ((s.took h rest).chip.ctxs.get h.ctx).state = .open := by simp [State.took, ho]
  have he' : ((s.took h rest).chip.ctxs.get h.ctx).executing = [] := by simp [State.took, he]
  unfold Chip.answerCmd
  rw [e, Chip.complete_open ho', Chip.restartLeases_idle _ _ he']
  simp [State.took, State.answered, Chip.modCtx, he, dropTag, State.completion, ctxReply, cmdOf, Chip.now]

end Sys2Proof.Machine
end

