-- ==== Sys2Proof/Laws/Ladle.lean ====
section
/-! SUPPORT. What Ladle's operations can change: its lists, the buffer memory, the Cook's cache and the waiting log entries; and that nothing
but the lists changes when no word they concern is listed (09: R228–R233, R244; 11: R276). -/

namespace Sys2Proof.Machine

/-- From chip a to chip b only Ladle, the buffer memory, the cache and the fault log may change. -/
def Chip.BufferOnly (a b : Chip) : Prop := ∃ l m k g, b = { a with ladle := l, sram := m, cache := k, log := g }

theorem Chip.BufferOnly.refl (a : Chip) : a.BufferOnly a := ⟨a.ladle, a.sram, a.cache, a.log, rfl⟩

theorem Chip.BufferOnly.trans {a b c : Chip} (h : a.BufferOnly b) (g : b.BufferOnly c) : a.BufferOnly c := by
  obtain ⟨l, m, k, n, rfl⟩ := h
  obtain ⟨l', m', k', n', rfl⟩ := g
  exact ⟨l', m', k', n', rfl⟩

/-- A fold of steps that change only these. -/
theorem Chip.BufferOnly.foldl {α : Type} {f : Chip → α → Chip} (h : ∀ (c : Chip) (x : α), c.BufferOnly (f c x)) (xs : List α) (a : Chip) :
    a.BufferOnly (xs.foldl f a) := by
  induction xs generalizing a with
  | nil => exact .refl a
  | cons x xs ih => exact (h a x).trans (ih _)

theorem Chip.BufferOnly.relisted (a : Chip) (l : Ladle) : a.BufferOnly { a with ladle := l } := ⟨l, a.sram, a.cache, a.log, rfl⟩

theorem Chip.BufferOnly.recached (a : Chip) (k : Cache) : a.BufferOnly { a with cache := k } := ⟨a.ladle, a.sram, k, a.log, rfl⟩

/-- An entry about the memory as a whole changes the log alone. -/
theorem Chip.logFault_bufferOnly (a : Chip) (code : Byte) (unit : Nat) (x y z : W32) : a.BufferOnly (a.logFault code unit 0 x y z) := by
  unfold Chip.logFault Chip.report
  split
  · exact ⟨a.ladle, a.sram, a.cache, _, rfl⟩
  · exact .refl a

theorem Chip.logRead_bufferOnly (a : Chip) (i : Nat) (w : BitVec 18) (r : Decoded) : a.BufferOnly (a.logRead i w r) := by
  unfold Chip.logRead
  split <;> (try split) <;> first | exact .refl a | exact a.logFault_bufferOnly ..

theorem Chip.putSyms_bufferOnly (a : Chip) (w : BitVec 18) (syms : List Byte) : a.BufferOnly (a.putSyms w syms) := ⟨a.ladle, _, a.cache, a.log, rfl⟩

theorem Chip.modSram_bufferOnly (a : Chip) (f : Sram → Sram) : a.BufferOnly (a.modSram f) := ⟨a.ladle, _, a.cache, a.log, rfl⟩

theorem Chip.writeHead_bufferOnly (a : Chip) (w : BitVec 18) (r : Decoded) : a.BufferOnly (a.writeHead w r) := by
  unfold Chip.writeHead Chip.storeWord
  split
  · exact ((a.modSram_bufferOnly _).trans (Chip.logRead_bufferOnly _ _ _ _)).trans (Chip.putSyms_bufferOnly _ _ _)
  · exact a.putSyms_bufferOnly _ _

/-- New lists change the lists and what the memory holds of headers and links. -/
theorem Chip.setLadle_bufferOnly (a : Chip) (l : Ladle) : a.BufferOnly (a.setLadle l) := by
  unfold Chip.setLadle
  exact ((Chip.BufferOnly.relisted a l).trans (.foldl (fun c j => c.putSyms_bufferOnly _ _) _ _)).trans
    (.foldl (fun c w => c.writeHead_bufferOnly _ _) _ _)

theorem Chip.relist_bufferOnly (a : Chip) (f : Ladle → Ladle) : a.BufferOnly (a.relist f) := a.setLadle_bufferOnly _

theorem Chip.shrinkChain_bufferOnly (a : Chip) (address n : Nat) : a.BufferOnly (a.shrinkChain address n) := by
  unfold Chip.shrinkChain
  split
  · exact a.relist_bufferOnly _
  · exact .refl a

theorem Chip.writeLine_bufferOnly (a : Chip) (l : CacheLine) : a.BufferOnly (a.writeLine l) :=
  (a.putSyms_bufferOnly _ _).trans (Chip.putSyms_bufferOnly _ _ _)

theorem Chip.snoopWrite_bufferOnly (a : Chip) (w : BitVec 18) : a.BufferOnly (a.snoopWrite w) := by
  unfold Chip.snoopWrite
  dsimp only
  have h0 : a.BufferOnly { (a.cache.wb.filter fun l => l.line == lineOf w).foldl (fun c l => c.writeLine l) a with
      cache := { a.cache with wb := a.cache.wb.filter fun l => l.line != lineOf w } } :=
    (Chip.BufferOnly.foldl (fun c l => c.writeLine_bufferOnly l) _ a).trans (Chip.BufferOnly.recached _ _)
  split
  · exact h0
  · refine h0.trans (.trans ?_ (Chip.BufferOnly.recached _ _))
    split
    · exact Chip.writeLine_bufferOnly _ _
    · exact .refl _

theorem Chip.demandRead_bufferOnly (a : Chip) (i : Nat) (w : BitVec 18) (err : List Byte) : a.BufferOnly (a.demandRead i w err).1 := by
  unfold Chip.demandRead
  split
  · exact .refl a
  · dsimp only
    have h1 := (a.modSram_bufferOnly (fun m => m.count i w (a.decodeWord w err))).trans (Chip.logRead_bufferOnly _ i w (a.decodeWord w err))
    split
    · split
      · exact h1.trans (Chip.putSyms_bufferOnly _ _ _)
      · exact (h1.trans (Chip.snoopWrite_bufferOnly _ _)).trans (Chip.putSyms_bufferOnly _ _ _)
    · exact h1

theorem Chip.readEntry_bufferOnly (a : Chip) (i : Nat) (dm : Damage) (words : List (BitVec 18)) : a.BufferOnly (a.readEntry i dm words).1 := by
  suffices h : ∀ (p : Chip × Bool), p.1.BufferOnly (words.foldl (fun a w =>
      let r := a.1.demandRead i w (errOf dm w)
      (r.1, a.2 || r.2.poison)) p).1 from h (a, false)
  induction words with
  | nil => exact fun p => .refl p.1
  | cons w ws ih => exact fun p => (p.1.demandRead_bufferOnly i w _).trans (ih _)

theorem Chip.readHead_bufferOnly (a : Chip) (w : Nat) (ok : List Byte → Bool) : a.BufferOnly (a.readHead w ok).1 := by
  unfold Chip.readHead
  split
  · exact a.demandRead_bufferOnly ..
  · exact .refl a

theorem Chip.failing_bufferOnly (a : Chip) (word : Nat → Nat) (ok : Nat → List Byte → Bool) (is : List Nat) :
    a.BufferOnly (a.failing word ok is).1 := by
  induction is generalizing a with
  | nil => exact .refl a
  | cons i is ih => exact (a.readHead_bufferOnly _ _).trans (ih _)

theorem Chip.sweepCells_bufferOnly (a : Chip) (wanted : List Nat) : a.BufferOnly (a.sweepCells wanted) := by
  unfold Chip.sweepCells
  dsimp only
  split
  · exact a.failing_bufferOnly ..
  · exact (((a.failing_bufferOnly ..).trans (.foldl (fun c i => c.logFault_bufferOnly ..) _ _)).trans (Chip.failing_bufferOnly ..)).trans
      (Chip.relist_bufferOnly ..)

/-! ### Words of which nothing is listed -/

/-- A listed word has a listed byte. -/
theorem mem_listedWords {m : List (Nat × Byte)} {w : Nat} (h : w ∈ listedWords m) : ∃ x ∈ m, x.1 / 32 = w := by
  induction m with
  | nil => simp [listedWords] at h
  | cons x m ih =>
    obtain ⟨a, b⟩ := x
    unfold listedWords at h
    split at h
    · rename_i w' ws hw
      split at h
      · rw [← hw] at h
        obtain ⟨x, hx, e⟩ := ih h
        exact ⟨x, by simp [hx], e⟩
      · rcases List.mem_cons.mp h with h | h
        · exact ⟨(a, b), by simp, h.symm⟩
        · rw [← hw] at h
          obtain ⟨x, hx, e⟩ := ih h
          exact ⟨x, by simp [hx], e⟩
    · exact ⟨(a, b), by simp, (List.mem_singleton.mp h).symm⟩

/-- A header or link of which nothing is listed checks, and its reading changes nothing. -/
theorem Chip.readHead_plain {s : State} {w : Nat} (h : s.Plain w) (ok : List Byte → Bool) : s.chip.readHead w ok = (s.chip, true) := by
  have he : s.chip.sram.mem.any (fun x => x.1 / 32 == w) = false := by
    rw [List.any_eq_false]
    intro x hx
    simpa using h x hx
  simp [Chip.readHead, he]

theorem Chip.failing_plain {s : State} {word : Nat → Nat} {is : List Nat} (h : ∀ i ∈ is, s.Plain (word i)) (ok : Nat → List Byte → Bool) :
    s.chip.failing word ok is = (s.chip, []) := by
  induction is with
  | nil => rfl
  | cons i is ih => simp [Chip.failing, Chip.readHead_plain (h i (by simp)), ih (fun j hj => h j (by simp [hj]))]

/-- Lists that change no listed header or link, and unmark no block's first word, change nothing else. -/
theorem Chip.setLadle_plain {s : State} {l : Ladle} (hu : s.Unlisted l) (hk : ∀ j < 64, s.chip.ladle.marked j = true → l.marked j = true) :
    s.chip.setLadle l = { s.chip with ladle := l } := by
  have h1 : (List.range 64).filter (fun j => s.chip.ladle.marked j && !l.marked j) = [] := by
    rw [List.filter_eq_nil_iff]
    intro j hj
    simp only [List.mem_range, Bool.and_eq_true, Bool.not_eq_true'] at hj ⊢
    rintro ⟨h, g⟩
    simp [hk j hj h] at g
  have h2 : (listedWords s.chip.sram.mem).filter (fun w => !(l.inWord w).isEmpty && l.inWord w != s.chip.ladle.inWord w) = [] := by
    rw [List.filter_eq_nil_iff]
    intro w hw
    obtain ⟨x, hx, e⟩ := mem_listedWords hw
    simp [← e, hu x hx]
  simp [Chip.setLadle, h1, h2]

end Sys2Proof.Machine
end

