-- ==== Sys2Proof/Laws/Memory.lean ====
section
/-! SUPPORT. The buffer memory: every operation on it keeps the canonical form, and a read after a write answers what was written
there and what stood elsewhere (11: R267, R271). -/

namespace Sys2Proof.Machine

/-- A list sorted from `hi` on is sorted from any lower address on. -/
theorem memSorted_mono {lo hi : Nat} {m : List (Nat × Byte)} (h : lo ≤ hi) (hm : memSorted hi m = true) : memSorted lo m = true := by
  cases m with
  | nil => rfl
  | cons x m =>
    simp only [memSorted, Bool.and_eq_true, decide_eq_true_eq] at hm ⊢
    exact ⟨⟨by omega, hm.1.2⟩, hm.2⟩

/-- Writing one byte at or above `lo` keeps a list sorted from `lo` on. -/
theorem memSorted_memSet {m : List (Nat × Byte)} {lo a : Nat} {b : Byte} (h : lo ≤ a) (hm : memSorted lo m = true) :
    memSorted lo (memSet m a b) = true := by
  induction m generalizing lo with
  | nil => unfold memSet; split <;> simp_all [memSorted]
  | cons x m ih =>
    obtain ⟨k, c⟩ := x
    simp only [memSorted, Bool.and_eq_true, decide_eq_true_eq] at hm
    obtain ⟨⟨h1, h2⟩, h3⟩ := hm
    unfold memSet
    split
    · split
      · simp_all [memSorted]
      · simp_all [memSorted]
    · split
      · split
        · exact memSorted_mono (by omega) h3
        · subst a; simp_all [memSorted]
      · simp only [memSorted, Bool.and_eq_true, decide_eq_true_eq]
        exact ⟨⟨h1, h2⟩, ih (by omega) h3⟩

/-- Writing one byte keeps the canonical form. -/
theorem memWf_memSet {m : List (Nat × Byte)} {a : Nat} {b : Byte} (h : memWf m = true) : memWf (memSet m a b) = true :=
  memSorted_memSet (Nat.zero_le a) h

/-- Writing bytes in a row keeps the canonical form. -/
theorem memWf_memPut {m : List (Nat × Byte)} {a : Nat} {bs : List Byte} (h : memWf m = true) : memWf (memPut m a bs) = true := by
  induction bs generalizing m a with
  | nil => exact h
  | cons b bs ih => exact ih (memWf_memSet h)

/-- Storing a word keeps the canonical form. -/
@[simp] theorem memWf_memPutWord {m : List (Nat × Byte)} {w : BitVec 18} {syms : List Byte} (h : memWf m = true) :
    memWf (memPutWord m w syms) = true := memWf_memPut h

/-- Dropping bytes by their address keeps a list sorted. -/
theorem memSorted_filter {m : List (Nat × Byte)} {lo : Nat} {p : Nat × Byte → Bool} (h : memSorted lo m = true) :
    memSorted lo (m.filter p) = true := by
  induction m generalizing lo with
  | nil => rfl
  | cons x m ih =>
    simp only [memSorted, Bool.and_eq_true, decide_eq_true_eq] at h
    rw [List.filter_cons]
    split
    · simp only [memSorted, Bool.and_eq_true, decide_eq_true_eq]
      exact ⟨h.1, ih h.2⟩
    · exact memSorted_mono (by omega) (ih h.2)

/-- Forgetting some of the bytes keeps the canonical form. -/
@[simp] theorem memWf_filter {m : List (Nat × Byte)} {p : Nat × Byte → Bool} (h : memWf m = true) : memWf (m.filter p) = true :=
  memSorted_filter h

@[simp] theorem memWf_nil : memWf [] = true := rfl

/-- The memory at reset has the canonical form. -/
theorem memWf_reset : memWf State.reset.chip.sram.mem = true := rfl

/-- A byte below every listed one reads as what an unlisted one reads as. -/
theorem memGet_below {m : List (Nat × Byte)} {lo a : Nat} (h : a < lo) (hm : memSorted lo m = true) : memGet m a = sramBlank a := by
  induction m generalizing lo with
  | nil => rfl
  | cons x m ih =>
    simp only [memSorted, Bool.and_eq_true, decide_eq_true_eq] at hm
    have hne : x.1 ≠ a := by omega
    simp only [memGet, hne, if_false]
    exact ih (by omega) hm.2

/-- A read after a write of one byte. -/
theorem memGet_memSet {m : List (Nat × Byte)} {lo a x : Nat} {b : Byte} (hm : memSorted lo m = true) :
    memGet (memSet m a b) x = if x = a then b else memGet m x := by
  induction m generalizing lo with
  | nil =>
    by_cases hb : b = sramBlank a <;> by_cases hx : x = a
    · simp [memSet, hb, hx, memGet]
    · simp [memSet, hb, hx, memGet]
    · simp [memSet, hb, hx, memGet]
    · simp [memSet, hb, hx, memGet, Ne.symm hx]
  | cons y m ih =>
    obtain ⟨k, c⟩ := y
    simp only [memSorted, Bool.and_eq_true, decide_eq_true_eq] at hm
    obtain ⟨⟨h1, h2⟩, h3⟩ := hm
    by_cases hak : a < k
    · have hbelow : memGet ((k, c) :: m) a = sramBlank a :=
        memGet_below (lo := k) hak (by simp only [memSorted, Bool.and_eq_true, decide_eq_true_eq]; exact ⟨⟨Nat.le_refl k, h2⟩, h3⟩)
      by_cases hb : b = sramBlank a
      · rw [memSet, if_pos hak, if_pos hb]
        split
        · subst x; rw [hbelow, hb]
        · rfl
      · rw [memSet, if_pos hak, if_neg hb, memGet]
        by_cases hx : x = a
        · subst x; simp
        · simp [hx, Ne.symm hx]
    · by_cases he : a = k
      · subst he
        have htail : memGet m a = sramBlank a := memGet_below (Nat.lt_succ_self a) h3
        by_cases hb : b = sramBlank a
        · rw [memSet, if_neg hak, if_pos rfl, if_pos hb]
          by_cases hx : x = a
          · subst x; rw [htail, if_pos rfl, hb]
          · simp [memGet, hx, Ne.symm hx]
        · rw [memSet, if_neg hak, if_pos rfl, if_neg hb, memGet, memGet]
          by_cases hx : x = a
          · subst x; simp
          · simp [hx, Ne.symm hx]
      · rw [memSet, if_neg hak, if_neg he, memGet, memGet]
        by_cases hx : k = x
        · subst x; simp [Ne.symm he]
        · rw [if_neg hx, if_neg hx]
          exact ih h3

/-- A read after a write of bytes in a row. -/
theorem memGet_memPut {m : List (Nat × Byte)} {a x : Nat} {bs : List Byte} (hm : memWf m = true) :
    memGet (memPut m a bs) x = if a ≤ x ∧ x < a + bs.length then (bs[x - a]?).getD 0 else memGet m x := by
  induction bs generalizing m a with
  | nil => simp [memPut]
  | cons b bs ih =>
    rw [memPut, ih (memWf_memSet hm), memGet_memSet hm]
    by_cases hx : x = a
    · subst x; simp
    · by_cases hr : a + 1 ≤ x ∧ x < a + 1 + bs.length
      · have h1 : a ≤ x ∧ x < a + (bs.length + 1) := by omega
        have h2 : x - a = (x - (a + 1)) + 1 := by omega
        simp only [hr, List.length_cons, h1, and_self, if_true, h2, List.getElem?_cons_succ]
      · have h1 : ¬ (a ≤ x ∧ x < a + (bs.length + 1)) := by omega
        simp only [hr, List.length_cons, h1, if_false, hx]

/-- A read after the store of a word: its 19 symbols, and every other byte as before (R267). -/
theorem memGet_memPutWord {m : List (Nat × Byte)} {w : BitVec 18} {syms : List Byte} {x : Nat} (hm : memWf m = true) (hs : syms.length = 19) :
    memGet (memPutWord m w syms) x = if x / 32 = w.toNat ∧ x % 32 < 19 then (syms[x % 32]?).getD 0 else memGet m x := by
  have ht : syms.take 19 = syms := List.take_of_length_le (by omega)
  rw [memPutWord, ht, memGet_memPut hm, hs]
  by_cases h : x / 32 = w.toNat ∧ x % 32 < 19
  · have h1 : 32 * w.toNat ≤ x ∧ x < 32 * w.toNat + 19 := by omega
    have h2 : x - 32 * w.toNat = x % 32 := by omega
    rw [if_pos h, if_pos h1, h2]
  · have h1 : ¬ (32 * w.toNat ≤ x ∧ x < 32 * w.toNat + 19) := by omega
    rw [if_neg h, if_neg h1]

/-! ### The operations of the chip that write the memory -/

/-- Putting the symbols of a word keeps the canonical form. -/
theorem Chip.putSyms_wf {ch : Chip} (h : memWf ch.sram.mem = true) (w : BitVec 18) (syms : List Byte) :
    memWf (ch.putSyms w syms).sram.mem = true := by
  simp only [Chip.putSyms, memWf_memPutWord h]

/-- Storing a word keeps the canonical form. -/
theorem Chip.storeWord_wf {ch : Chip} (h : memWf ch.sram.mem = true) (w : BitVec 18) (data : List Byte) (poison : Bool) :
    memWf (ch.storeWord w data poison).sram.mem = true := ch.putSyms_wf h w _

/-- An encoder's register keeps its length, that of its generator, while data bytes are shifted through it. -/
theorem rsShift_length (g reg : List Byte) (d : Byte) (hr : reg.length = g.length) (hg : 0 < g.length) : (rsShift g reg d).length = g.length := by
  simp only [rsShift, List.length_zipWith, List.length_cons, List.length_dropLast]
  omega

theorem foldl_rsShift_length (g ds reg : List Byte) (hr : reg.length = g.length) (hg : 0 < g.length) :
    (ds.foldl (rsShift g) reg).length = g.length := by
  induction ds generalizing reg with
  | nil => exact hr
  | cons d ds ih => exact ih _ (rsShift_length g reg d hr hg)

/-- A stored word has its 3 check symbols and its 16 data bytes (R267, R271). -/
theorem sramEncode_length (w : BitVec 18) (data : List Byte) (h : data.length = 16) : (sramEncode w data).length = 19 := by
  have hc : (sramCheck w data).length = 3 := foldl_rsShift_length sramGenerator.dropLast _ _ (by simp) (by decide)
  simp [sramEncode, hc, h]

end Sys2Proof.Machine
end

