-- ==== Sys2Proof/WellFormed.lean ====
section
/-! DEFINITION. Well-formed commands: the operand shapes that the wires and the chip's structures admit. -/

namespace Sys2Proof

/-- Sixteen bytes: the data of one storage word (R267). -/
def word16 (data : List Byte) : Bool := data.length == 16

/-- A damage pattern names at most the 19 symbols of a word (R267). -/
def damage19 (err : List Byte) : Bool := decide (err.length ≤ 19)

/-- A damage pattern for each word of a list. -/
def damageOk (dm : Damage) : Bool := dm.all (fun x => damage19 x.2)

/-- A Ladle requester, owner or holder number (R224: 0 to 127). -/
def ladleNumber (n : Nat) : Bool := decide (n ≤ 127)

/-- Whether the operands of a command have a shape that can reach the chip. -/
def Instr.wellFormed : Instr → Bool
  | .ctxOpen _ p | .ctxClose _ p | .ctxReset _ p | .eventsFetch _ p | .statusPeek _ p | .queueConfig _ p | .quotaQuery _ p
  | .timeRead _ p | .deckLock _ p | .deckUnlock _ p | .deckAdopt _ p | .load _ p | .unload _ p | .home _ p | .deckStop _ p
  | .deckStatus _ p | .loopOpen _ p | .loopClose _ p | .loopWrite _ p | .loopRead _ p | .autotune _ p | .autotuneResult _ p
  | .tripClear _ p | .speedPolicy _ p | .writeRecord _ p | .writeData _ p | .writeFilemark _ p | .flush _ p
  | .readRecord _ p | .readMore _ p | .locate _ p | .space _ p | .rewind _ p | .positionRead _ p | .eraseFromHere _ p
  | .formatTape _ p | .verify _ p | .compressionSet _ p | .profileLoad _ p => decide (p.length ≤ 4096)
  | .wordRead _ _ err | .scrubRead err => damage19 err
  | .wordWrite _ _ data => word16 data
  | .readModifyWrite _ _ _ data err => word16 data && damage19 err
  | .mergeWrite _ _ _ _ data dm | .cookStore _ _ data dm => word16 data && damageOk dm
  | .compressRecord _ _ dm => damageOk dm
  | .replyStage _ _ dm => damageOk dm
  | .allocCells e r o _ _ | .allocBlock e r o _ => ladleNumber e && ladleNumber r && ladleNumber o
  | .extend e r _ _ _ | .release e r _ => ladleNumber e && ladleNumber r
  | .hand e r _ h _ => ladleNumber e && ladleNumber r && ladleNumber h
  | .tempSample rs _ => rs.length == 8
  | .kettleEvaluate ts => ts.length == 29
  | .queueEntryPlaced q => decide (q < 1024)
  | .tongsDescriptor _ _ _ _ dm => damageOk dm
  | .encoderEdge _ _ _ _ fine | .sampleInstant _ _ _ fine | .limitEdge _ _ _ fine _ _ _ | .indexEdge _ fine | .lateFrame _ fine
  | .pwmPeriodStart _ fine | .trip _ _ fine | .presenceChange _ _ _ fine | .tapeMarkerEdge _ _ fine | .tripInputRelease _ _ fine
  | .cellBoundary _ fine | .datasetStart _ fine => decide (fine.toNat < 1600)
  | .pieceJudge _ sd row copy _ => decide (sd < 10) && decide (row < 80) && decide (copy ≤ 8)
  | .datasetRead _ _ ps => ps.all (fun p => decide (p.track < 16))
  | .cookTrap cause _ _ => decide (1 ≤ cause) && decide (cause ≤ 4)
  | .cookDoubleFault cause _ => decide (1 ≤ cause) && decide (cause ≤ 2)
  | .overrun site => decide (site < 148)
  | .samplePreload p | .extest (some p) => p.length == 521
  | .bypass ir => !([0b00000, 0b00001, 0b00010, 0b10000, 0b10001].contains ir)
  | _ => true

end Sys2Proof
end

