-- ==== Sys2Proof/Tests/Slice0.lean ====
section
/-! SUPPORT. Tests of the model: an ill-formed command for each check of `Instr.wellFormed`, the spec's worked examples, and, for
every statement with hypotheses, a concrete state and operands that meet them. -/

set_option Elab.async false

namespace Sys2Proof.Tests

open Sys2Proof Sys2Proof.Machine

/-! ### The states that the witnesses are built from -/

/-- A transport profile in the ranges of Tables 8-8 and 8-9. -/
def wProfile : Profile :=
  { linePitch := 8000000, capLines := 1000, reelLines := 500, maxTracks := 16, maxWraps := 8, cellRateMax := 100, cellMin := 200
    cellMax := 20000, rwOffset := 1000, speedMin := 100000, speedMax := 4000000, accel := 2000000, wrapLength := 500000
    ewDistance := 5000, wrapPitch := 100000, homeSpeed := 10000, tensionSet := 8192, tensionTol := 2048
    currentLimit := [20000, 20000, 20000, 20000], loopPeriod := 500, backhitch := 1000, tThread := 1000, tTension := 1000
    tCalibrate := 1000, tHome := 1000, tUnload := 1000, pwmPeriod := 320000, deadTime := 800, minPulse := 1600 }

/-- A label of one partition of eight wraps, closed. -/
def wLabel : Label :=
  { tracks := 2, partitions := 1, cellLength := 1000, linePitch := 8000000, wraps := [8], partition := 0, stamp := 5, seq := 1
    isOpen := false, map := [] }

/-- A deck with a tape of this label at EOD, READY, homed, with a profile, held by context 0. -/
def wDeck : DeckAll :=
  { DeckAll.reset with
    seq := { DeckSeq.reset with state := .ready, base := .ready, wasLoaded := true }
    lock := { DeckLock.reset with state := .held 0, lease := 30, leaseAt := 0x123456789 }
    profile := some wProfile
    io := { MotionIo.reset with cart := true, door := true, home := { Homing.reset with homed := true } }
    loops := { Loops.reset with running := true, period := 500 }
    tape := { TapeInfo.reset with media := some .krf, label := some wLabel } }

/-- A chip in service: supply good, every domain on, LOCKED at 10 MHz, Ladle built, the Cook running, context 0 OPEN, deck 0 as above. -/
def up : State :=
  { pending := []
    chip := { Chip.reset with
      power := { Power.reset with
        valid := true, v3a := true, core := true, cookTook := true, decksOn := true, control := true, vin := 600, vinLow := 600
        vioe := true, viod := Vector.replicate 4 true, viom := true, armed := true }
      domains := { Domains.reset with on := List.replicate 148 true }
      timebase := { Timebase.reset with running := true, refState := .locked, trimsRead := true, time := 0x123456789 }
      kettle := { Kettle.reset with decks := Vector.replicate 4 { noLoad with loopPeriod := 500 }, ports := Vector.replicate 5 50 }
      cook := { Cook.reset with state := .running }
      ladle := { Ladle.reset with built := true }
      sram := { Sram.reset with initDone := true }
      i2c := { I2cPort.reset with ready := true }
      jtag := { Jtag.reset with ready := true }
      ehran := Vector.replicate 4 { EhranPort.reset with sel := true }
      ctxs := Chip.reset.ctxs.set 0 { Context.reset with state := .open }
      decks := (Vector.replicate 4 { DeckAll.reset with seq := { DeckSeq.reset with state := .empty, base := .empty } }).set 0 wDeck } }

/-- The header of a command of context 0 with tag 0x1234, no payload CRC, on port E0. -/
def wHdr : CmdHdr := { ctx := 0, tag := 0x1234, rcrc := false, port := 0 }

/-- Site n has granted input i a unit. -/
def granting (s : State) (n : Fin 18) (i : Nat) : State :=
  { s with chip.funnel.sites := s.chip.funnel.sites.set n { s.chip.funnel.sites.get n with granted := true, owner := i, burst := 4 } }

/-- The state with a command at the head of context 0's CMD queue, and its F-PORT grant. -/
def waits (s : State) (op : Op) (p : List Byte) : State :=
  { granting s 16 0 with chip.ctxs := s.chip.ctxs.set 0 { s.chip.ctxs.get 0 with cmd := [cmdOf op wHdr p] } }
/-- Ladle with a pool of 300 cells and six blocks, and one chain of context 0. -/
def wLadle : Ladle :=
  { Ladle.reset with
    built := true, cellBanks := 4, headBanks := 4, freeCells := (List.range 400).drop 100, freeBlocks := [20, 21, 22, 23, 24, 25]
    blocks := Vector.ofFn fun j : Fin 64 => if j.val < 16 then { state := .outside, owner := 127, holders := [] } else { state := .free, owner := 127, holders := [] }
    chains := [{ cells := [7, 9], owner := 0, holders := [0] }, { cells := [11], owner := 3, holders := [3, 0, 70] }, { cells := [50], owner := 70, holders := [70] }] }
def upL : State := { up with chip.ladle := wLadle, chip.ctxs := up.chip.ctxs.map fun x => { x with blockQuota := 3 } }

/-- A reply of context `n` with eight payload bytes. -/
def wReply (n : Nat) : Reply :=
  { type := 0x80, ctx := BitVec.ofNat 8 n, tag := 7, stat := 0, payload := [1, 2, 3, 4, 5, 6, 7], trailer := true, time := 3, fetch := none }
/-- Deck 0 changed. -/
def upDeck (f : DeckAll → DeckAll) : State := { up with chip.decks := up.chip.decks.set 0 (f wDeck) }
def upStreams : State := upDeck fun k => { k with seq.state := .streaming }
/-- The data that the word tests write. -/
def wData : List Byte := [1, 2, 3, 4, 5, 6, 7, 8, 9, 10, 11, 12, 13, 14, 15, 16]
def wEntry (w : Nat) : MergeEntry := { word := BitVec.ofNat 18 w, data := wData, mask := 0x00FF, ctx := some 0 }
/-- A data dataset of one whole raw record. -/
def wLabelDs : Dataset :=
  { kind := .data, number := 2, first := 5, gen := 0, partition := 0, wrap := 0, tracks := 2, entries := [.segment true true true false 5 1]
    user := [7] ++ leBytes 4 (crc32 [7]).toNat }
/-- A READ_RECORD that moves. -/
def wRead0 : DeckOp :=
  { op := .readRecord, ctx := 0, tag := 3, rcrc := false, payload := [0, 0, 0, 0, 0, 0, 0, 0], flushing := false, moving := true, delivered := 0
    rest := 0, objects := 0, c2 := 0, c2Data := 0, c3 := 0, rereads := 0, poisoned := 0, silent := false }
/-- An AUTOTUNE that runs. -/
def wTune : DeckOp := { wRead0 with op := .autotune, moving := false, payload := [0, 3, 8, 0, 100, 0, 10, 0] }
/-- Deck 0 with slot 3 tuning for eight cycles, `n` samples in. -/
def upTune (n : Nat) : State := upDeck fun k => { k with
  seq := { k.seq with op := some wTune }
  loops := { k.loops with slots := k.loops.slots.set 3 { k.loops.slots.get 3 with state := .tuning, tune := { Tune.reset with state := .running, cycles := 8, samples := n } } } }
/-- Deck 0 with its four axes in four modes. -/
def upAxes : State := upDeck fun k => { k with
  io := { k.io with axes := #v[{ AxisState.reset with nextMode := .drive, carryA := 30, tripCnt := 4, tripIn := true }, { AxisState.reset with nextMode := .brake },
                               { AxisState.reset with mode := .drive, nextMode := .off }, { AxisState.reset with mode := .tripped, trip := true }] } }
/-- Deck 0 in FAULT_STOP. -/
def upStop (rest : Bool) : State := upDeck fun k => { k with seq := { k.seq with state := .faultStop, rest := rest } }
/-- Deck 0 EMPTY without a cartridge. -/
def upEmpty : State := upDeck fun k => { k with seq := { k.seq with state := .empty, base := .empty }, io := { k.io with cart := false }, loops := Loops.reset, tape := TapeInfo.reset }
/-- Deck 0 DORMANT with valid lines. -/
def upDormant : State :=
  { upDeck (fun k => { k with seq := { k.seq with state := .dormant }, loops := Loops.reset }) with
    chip.timebase.decks := Vector.replicate 4 { Lines.reset with valid := true } }
/-- Deck 0 homing at step `n`, begun in state `b`. -/
def upHome (n : Nat) (b : DeckState) : State := upDeck fun k => { k with
  seq := { k.seq with state := .homing, base := b, op := some { wRead0 with op := .home, moving := false } }
  io := { k.io with home := { Homing.reset with step := n, latch1 := 30, latch2At := 0x55 } } }

/-! ### Witnesses: states and operands that meet the hypotheses of the statements -/

/-- The hypotheses of TimebaseRegisterCommands, clause by clause. -/
theorem witness_TimebaseRegisterCommands : up.Reached ∧ ¬ State.reset.Reached := by
  (repeat' apply And.intro) <;> decide +kernel

def upFree : State := { up with chip.timebase.refState := .freeRun }
def upLost : State := { up with chip.timebase.refState := .absent }
/-- A strobe has been stamped late in the running tick, which a trim of −10,000 ends early. -/
def upLateInTick : State := { up with chip.timebase.fine := 1599, chip.timebase.trim := BitVec.ofInt 16 (-10000), chip.timebase.trimAcc := 5 }

/-- The hypotheses of HourglassTick, clause by clause. -/
theorem witness_HourglassTick :
  up.chip.timebase.running = true ∧ up.OnRef ∧ up.chip.timebase.fine.toNat ≤ 1600 ∧
  upLateInTick.chip.timebase.running = true ∧ upLateInTick.OnRef ∧ upLateInTick.chip.timebase.trim.toInt = -10000 ∧
  ¬ upFree.OnRef ∧ upFree.chip.timebase.running = true ∧ upFree.chip.timebase.fine.toNat < 1600 := by
  (repeat' apply And.intro) <;> decide +kernel

def upDeckCal : State := { up with chip.timebase.decks := up.chip.timebase.decks.set 2 { up.chip.timebase.decks.get 2 with shadowBusy := true } }
def upCal : State := { up with chip.timebase.central.shadowBusy := true, chip.timebase.refState := .acquiring }
def upStep : State := { up with chip.kettle.settling := true, chip.domains.on := up.chip.domains.on.set 45 false }
def upStepFree : State := { upStep with chip.timebase.refState := .freeRun }

/-- The hypotheses of Calibrations, clause by clause. -/
theorem witness_Calibrations :
  up.OnRef ∧ up.Reached ∧ upLost.chip.timebase.trimsRead = true ∧ upLost.chip.timebase.refState = .absent ∧ upFree.chip.timebase.refState = .freeRun ∧
  upCal.OnRef ∧ upCal.chip.kettle.recal = false ∧ upCal.chip.kettle.due = none ∧ upCal.chip.timebase.central.shadowBusy = true ∧
  upCal.chip.timebase.wasFree = false ∧ upDeckCal.OnRef ∧ upDeckCal.chip.kettle.recal = false ∧ upDeckCal.chip.kettle.due = none ∧
  (upDeckCal.chip.timebase.decks.get 2).shadowBusy = true ∧
  upStep.chip.kettle.settling = true ∧ upStep.OnRef ∧ upStepFree.chip.kettle.settling = true ∧ ¬ upStepFree.OnRef := by
  (repeat' apply And.intro) <;> decide +kernel

/-- One slot time per monitored site. -/
def wTimes (n : Nat) : List (BitVec 24) := List.replicate 29 (BitVec.ofNat 24 n)
def upK (v calm : Nat) (hold : Bool) : State := { up with chip.kettle.vcore := BitVec.ofNat 7 v, chip.kettle.calm := calm, chip.kettle.hold := hold }
def upKBusy (v calm : Nat) : State := { upK v calm false with chip.kettle.settling := true }

abbrev kStarts (s : State) : Prop :=
  s.chip.power.core = true ∧ s.chip.timebase.refState = .locked ∧ s.chip.power.warning = false ∧ s.chip.kettle.raising = []
abbrev kSteps (s : State) : Prop := s.chip.power.control ∧ s.chip.kettle.hold = false ∧ s.chip.kettle.settling = false ∧ s.chip.timebase.central.shadowBusy = false ∧
      ∀ d : Deck, (s.chip.timebase.decks.get d).shadowBusy = false

/-- The hypotheses of KettleEvaluation, clause by clause. -/
theorem witness_KettleEvaluation :
  (∀ s ∈ [upK 35 0 true, upK 0 3 false, upK 30 2 false, upK 80 2 false, upKBusy 30 9, upK 30 9 true], kStarts s) ∧ kSteps (upK 35 0 false) ∧
  ¬ kSteps (upK 35 0 true) ∧ ¬ kSteps (upKBusy 35 0) ∧ (upK 80 0 false).chip.kettle.vlow 1 ≤ (upK 80 0 false).chip.kettle.vhigh 1 ∧ (upK 80 2 false).chip.kettle.vhigh 1 < 80 := by
  (repeat' apply And.intro) <;> decide +kernel

def wLoad : DeckLoad := { noLoad with loopPeriod := 500 }
def wLoad2 : DeckLoad := { noLoad with loopPeriod := 40, tracks := 4, cellRate := 100 }
def upRaise (xs : List Raise) : State := { up with chip.kettle.raising := xs }
def wPortRaise : Raise := { decl := .port (1 : EPort).castSucc 40, cmd := none }
def upOver (v : Nat) (at_ : Option W64) : State := { up with chip.kettle.vcore := BitVec.ofNat 7 v, chip.kettle.raisedAt := at_ }

/-- The hypotheses of DeclarationsAndOverruns, clause by clause. -/
theorem witness_DeclarationsAndOverruns :
  up.chip.power.core = true ∧ up.chip.kettle.raising = [] ∧ up.chip.kettle.isRaise (.deck 1 noLoad) = false ∧
  (0 : BitVec 6).toNat ≤ (up.chip.kettle.ports.get 2).toNat ∧ up.chip.kettle.isRaise (.deck 0 wLoad2) = true ∧ up.chip.temp.limited = false ∧
  (upRaise [wPortRaise]).chip.kettle.raising = wPortRaise :: [] ∧ (upRaise [wPortRaise]).chip.power.core = true ∧
  (0 : BitVec 6).toNat ≤ ((upRaise [wPortRaise]).chip.kettle.ports.get (1 : EPort).castSucc).toNat ∧
  (upOver 30 none).chip.power.valid = true ∧ (upOver 30 none).chip.timebase.refState ≠ .freeRun ∧ (upOver 30 none).chip.power.warning = false ∧
  (upOver 30 none).chip.kettle.raisedAt = none ∧ (30 : Nat) < (upOver 30 none).chip.kettle.vhigh 1 ∧
  (upOver 30 (some up.chip.now)).chip.kettle.raisedAt = some up.chip.now := by
  (repeat' apply And.intro) <;> decide +kernel

/-- The hypotheses of LadleAllocates, clause by clause. -/
theorem witness_LadleAllocates :
  upL.chip.power.core = true ∧ upL.chip.ladle.built = true ∧ upL.chip.ownerValid 0 = true ∧ upL.chip.lawful 70 70 none = true ∧
  2 + 256 ≤ upL.chip.ladle.cellsFree ∧ 2 ≤ upL.chip.ladle.openCells.length ∧ (∀ i ∈ upL.chip.ladle.openCells.take 2, upL.Plain (16 * i)) ∧
  upL.chip.ladle.cellsHeld 0 + 2 ≤ (upL.chip.ctxs.get 0).cellLimit ∧ upL.chip.ladle.sharesUsed < 1008 ∧
  (∀ l, upL.Unlisted l) ∧ upL.chip.ladle.freeBlocks = 20 :: [21, 22, 23, 24, 25] ∧ upL.chip.ladle.linked 20 = true ∧ upL.Plain (4096 * 20) ∧
  upL.Canonical ∧ upL.chip.ladle.blocksHeld 0 + 1 ≤ (upL.chip.ctxs.get 0).blockLimit ∧
  upL.chip.nameUnit (256 * 50) true false = (upL.chip, .inl (.chain { cells := [50], owner := 70, holders := [70] })) ∧
  upL.chip.ownerValid 70 = true ∧ upL.chip.lawful 70 70 (some (256 * 50)) = true ∧ upL.chip.lawful 70 5 none = false ∧ upL.chip.power.valid = true := by
  refine ⟨by decide +kernel, by decide +kernel, by decide +kernel, by decide +kernel, by decide +kernel, by decide +kernel, by decide +kernel,
    by decide +kernel, by decide +kernel, fun l => by simp [State.Unlisted, upL, up, Sram.reset], by decide +kernel, by decide +kernel, by decide +kernel, by decide +kernel,
    by decide +kernel, ?_⟩
  (repeat' apply And.intro) <;> decide +kernel

/-- The hypotheses of LadleHandsAndReleases, clause by clause. -/
theorem witness_LadleHandsAndReleases :
  upL.chip.power.core = true ∧ upL.chip.ladle.built = true ∧ upL.chip.power.valid = true ∧ upL.chip.ladle.leaving = none ∧
  upL.chip.nameUnit (256 * 50) false false = (upL.chip, .inl (.chain { cells := [50], owner := 70, holders := [70] })) ∧
  upL.chip.nameUnit (256 * 50) false true = (upL.chip, .inl (.chain { cells := [50], owner := 70, holders := [70] })) ∧
  upL.chip.nameUnit (256 * 11) false true = (upL.chip, .inl (.chain { cells := [11], owner := 3, holders := [3, 0, 70] })) ∧
  upL.chip.lawful 70 70 (some (256 * 50)) = true ∧ upL.chip.lawful 70 70 (some (256 * 11)) = true ∧
  upL.chip.ownerValid 0 = true ∧ upL.chip.ladle.sharesUsed < 1008 ∧ (∀ i ∈ [50], cellRetired upL.chip.retireList i = false) ∧
  upL.chip.domains.sramPend = 0 ∧ (([3, 0, 70] : List Nat).filter (fun h => h ≠ 70)).getLast? = some 0 ∧ 5 ∉ [70] ∧ upL.chip.sram.mem = [] := by
  (repeat' apply And.intro) <;> decide +kernel

def upUnbuilt : State := { up with chip.ladle := Ladle.reset }
def upWaits : State := { upL with chip.ladle := { wLadle with waiting := [{ requester := 70, owner := 70, n := 0, address := none }] } }
def upLeaving : State :=
  { upL with
    chip.ladle := { wLadle with cellBanks := 5, headBanks := 5, leaving := some 4, retired := [4100, 5], chains := [] }
    chip.passQ.active.cellBanks := 4 }

/-- The hypotheses of LadlePools, clause by clause. -/
theorem witness_LadlePools :
  upUnbuilt.chip.power.core = true ∧ upUnbuilt.chip.sram.initDone = true ∧ upUnbuilt.chip.ladle.built = false ∧
  upUnbuilt.chip.passQ.active.cellBanks.toNat = 4 ∧ (∀ e ∈ upUnbuilt.chip.retireList, e.kind = 0) ∧ upUnbuilt.chip.sram.mem = [] ∧
  upUnbuilt.chip.domains.sramPend = 0 ∧
  upWaits.chip.ladle.waiting = { requester := 70, owner := 70, n := 0, address := none } :: [] ∧ upWaits.chip.ownerValid 70 = true ∧
  upWaits.chip.ladle.built = true ∧ upWaits.chip.ladle.freeBlocks = 20 :: [21, 22, 23, 24, 25] ∧ upWaits.chip.ladle.linked 20 = true ∧
  upWaits.Plain (4096 * 20) ∧ upWaits.Canonical ∧ upWaits.chip.sram.mem = [] ∧
  upLeaving.chip.ladle.built = true ∧ upLeaving.chip.ladle.leaving = some 4 ∧ upLeaving.chip.ladle.bankIdle 4 = true ∧
  4 < upLeaving.chip.ladle.cellBanks ∧ upLeaving.chip.passQ.active.cellBanks.toNat = 4 ∧ (∀ e ∈ upLeaving.chip.retireList, e.kind = 0) ∧
  upLeaving.chip.sram.mem = [] ∧ upL.Reached := by
  (repeat' apply And.intro) <;> decide +kernel

def upPassQ (n : Nat) : State := { up with chip.passQ.staged.cellBanks := BitVec.ofNat 5 n, chip.passQ.staged.cellQuota := Vector.replicate 64 60 }

/-- The hypotheses of PassQCommits, clause by clause. -/
theorem witness_PassQCommits :
  (upPassQ 16).Reached ∧ (upPassQ 16).chip.power.valid = true ∧ (upPassQ 16).chip.passQ.staged.cellBanks.toNat = 16 ∧
  (upPassQ 17).chip.passQ.staged.cellBanks.toNat = 17 := by
  (repeat' apply And.intro) <;> decide +kernel

/-- Input 2 holds the grant of the bank of word 100000. -/
def upBank : State := granting up (bankSite 100000) 2

/-- The hypotheses of WordAccesses, clause by clause. -/
theorem witness_WordAccesses :
  upBank.Canonical ∧ upBank.chip.mayAccess 2 100000 = true ∧ upBank.Uncached 100000 ∧
  (∀ b ∈ ownBuffers 2, ∀ e ∈ upBank.chip.merge.get b, e.word ≠ 100000) ∧ wData.length = 16 ∧ (upBank.chip.decodeWord 100000 []).result = .clean ∧
  (upBank.chip.decodeWord 100000 [1]).result = .corrected ∧ (upBank.chip.decodeWord 100000 [1]).pos = some 0 ∧
  (upBank.chip.decodeWord 100000 [1, 2]).result = .uncorrectable ∧ upBank.chip.power.valid = true := by
  (repeat' apply And.intro) <;> decide +kernel

def upMerge : State := { up with chip.merge := up.chip.merge.set 6 [wEntry 40, wEntry 50, wEntry 60] }
def wLine (n : Nat) (d : Bool) : CacheLine := { line := BitVec.ofNat 17 n, lo := { data := wData, poison := false }, hi := { data := List.replicate 16 7, poison := true }, dirty := d }
def upCache : State := { up with chip.cache := { sets := up.chip.cache.sets.set 3 [wLine 35 false, wLine 67 true, wLine 99 false], wb := [wLine 200 true, wLine 5 true] } }

/-- The hypotheses of MergeBuffersAndCache, clause by clause. -/
theorem witness_MergeBuffersAndCache :
  up.Canonical ∧ up.chip.mergeOn 6 = true ∧ up.chip.bankServes 100 = true ∧ (up.chip.merge.get 6) = [] ∧ up.Uncached 100 ∧
  upMerge.Canonical ∧ upMerge.chip.mergeOn 6 = true ∧ (∀ e ∈ (upMerge.chip.merge.get 6).head?, upMerge.chip.bankServes e.word = true) ∧
  (∀ e ∈ upMerge.chip.merge.get 6, e.mask ≠ 0xFFFF) ∧ upMerge.chip.merge.get 6 = [wEntry 40] ++ wEntry 50 :: [wEntry 60] ∧
  (wEntry 50).word = 50 ∧ (wEntry 50).mask ||| 0x0F00 ≠ 0xFFFF ∧ (∀ e ∈ [wEntry 40, wEntry 60], e.word ≠ 50) ∧
  upCache.Canonical ∧ upCache.chip.domOn 10 = true ∧ (∀ l ∈ upCache.chip.cache.wb.head?, upCache.chip.servesLine l = true) ∧
  upCache.chip.cache.sets.get (setOf (lineOf 134)) = [wLine 35 false] ++ wLine 67 true :: [wLine 99 false] ∧ (wLine 67 true).line = lineOf 134 ∧
  (∀ l ∈ [wLine 35 false, wLine 99 false], l.line ≠ lineOf 134) ∧
  upCache.chip.cache.wb = wLine 200 true :: [wLine 5 true] ∧ (wLine 200 true).lo.data.length = 16 ∧ (wLine 200 true).hi.data.length = 16 := by
  (repeat' apply And.intro) <;> decide +kernel

def upUninit : State := { up with chip.sram := { Sram.reset with scrubEn := false } }
def upScrub : State := { granting up (bankSite 20) 0 with chip.sram.scrubbing := true, chip.sram.pos := 20 }
def upScrubOff : State := { up with chip.sram.scrubEn := false }

/-- The hypotheses of ColanderCommands, clause by clause. -/
theorem witness_ColanderCommands :
  upUninit.Canonical ∧ upUninit.chip.domOn 4 = true ∧ upUninit.chip.sram.initDone = false ∧
  up.Canonical ∧ up.chip.domOn 4 = true ∧ up.chip.sram.initDone = true ∧ up.chip.sram.scrubbing = false ∧ up.Reached ∧
  up.chip.sram.scrubEn = true ∧ upScrubOff.chip.sram.initDone = true ∧ upScrubOff.chip.sram.scrubEn = false ∧
  upScrub.Canonical ∧ upScrub.chip.domOn 4 = true ∧ upScrub.chip.sram.scrubbing = true ∧ upScrub.chip.mayAccess 0 20 = true ∧
  upScrub.chip.sram.passLate = false ∧ upScrub.chip.scrubFrom upScrub.chip.sram.pos.toNat = some 20 ∧ upScrub.Uncached 20 ∧
  (upScrub.chip.decodeWord 20 []).result = .clean ∧ (upScrub.chip.decodeWord 20 [0, 0, 9]).result = .corrected ∧
  (upScrub.chip.decodeWord 20 [0, 0, 9]).pos = some 2 ∧ ((upScrub.chip.sram.passHits[2]?).getD 0) + 1 < upScrub.chip.sram.threshold.toNat := by
  (repeat' apply And.intro) <;> decide +kernel

def upI2c (pec : Bool) : State := { up with chip.i2c.pecEn := pec, chip.i2c.pecOn := pec }
def upTime : State := waits up .timeRead []

/-- The hypotheses of TimeReadsAreCoherent, clause by clause. -/
theorem witness_TimeReadsAreCoherent :
  (upI2c false).Reached ∧ (upI2c false).chip.i2c.pecOn = false ∧ (upI2c false).chip.i2c.pecEn = false ∧
  upTime.Heads .timeRead wHdr [] [] ∧ (upTime.chip.ctxs.get 0).executing = [] := by
  (repeat' apply And.intro) <;> decide +kernel

/-- The hypotheses of I2cTransactions, clause by clause. -/
theorem witness_I2cTransactions :
  (upI2c false).Reached ∧ (upI2c false).chip.i2c.pecOn = (upI2c false).chip.i2c.pecEn ∧ (upI2c false).chip.i2c.pecOn = false ∧
  (upI2c true).Reached ∧ (upI2c true).chip.i2c.pecOn = (upI2c true).chip.i2c.pecEn ∧ (upI2c true).chip.i2c.pecOn = true ∧
  (0x11 : BitVec 7) ≠ (upI2c true).chip.i2c.addr := by
  (repeat' apply And.intro) <;> decide +kernel

def upSpi : State := { up with chip.spi.out := { ReplyOut.reset with staged := [wReply 0, wReply 1] }, chip.spi.cfgPending := true }

/-- The hypotheses of PortSTransactions, clause by clause. -/
theorem witness_PortSTransactions :
  upSpi.chip.spi.cs = none ∧ upSpi.chip.spiOn = true ∧ (0x5B : Byte) ≠ 0x5A ∧ (0x5B : Byte) ≠ 0xA5 ∧ upSpi.chip.spi.out.wire = [] ∧
  upSpi.chip.spi.out.staged = wReply 0 :: [wReply 1] ∧ upSpi.chip.spi.out.cur = none ∧
  (replyBytes (wReply 0) (upSpi.chip.nibbleFor (wReply 0).ctx)).length ≤ 20 ∧ upSpi.chip.power.core = true ∧ upSpi.chip.spi.cfgPending = true ∧
  upSpi.chip.kettle.raising = [] ∧
  ((upSpi.chip.passQ.active.ports.get 4).rate (if (upSpi.chip.passQ.active.ports.get 4).wide then 25 else 7)).toNat ≤ (upSpi.chip.kettle.ports.get 4).toNat := by
  (repeat' apply And.intro) <;> decide +kernel

def upPort (toHost : Bool) (f : EhranPort → EhranPort) : State :=
  { up with chip.ehran := up.chip.ehran.set 2 (f { up.chip.ehran.get 2 with dir := toHost, dirPin := toHost, armed := true }) }

/-- The hypotheses of EhranPinEvents, clause by clause. -/
theorem witness_EhranPinEvents :
  (upPort false id).Selected 2 ∧ ((upPort false id).chip.ehran.get 2).rxOpen = false ∧ ((upPort false id).chip.ehran.get 2).dir = false ∧
  ((upPort false id).chip.ehran.get 2).armed = true ∧ ((upPort false id).chip.ehran.get 2).width16 = true ∧
  ((upPort false id).chip.ehran.get 2).rxHeld < 2 ∧ 2 ≤ ((upPort false fun e => { e with rxHeld := 2 }).chip.ehran.get 2).rxHeld ∧
  ((upPort false fun e => { e with armed := false }).chip.ehran.get 2).armed = false ∧
  (upPort true id).Selected 2 ∧ ((upPort true id).chip.ehran.get 2).dir = true ∧ (upPort true id).chip.ehranOn 2 = true := by
  (repeat' apply And.intro) <;> decide +kernel

def upStage (p : Port) : State :=
  { up with chip.ctxs := up.chip.ctxs.set 7 { Context.reset with state := .open, port := p, rpl := [wReply 7, wReply 8], rdata := up.chip.ctxs[7].rdata }, chip.rotor := Vector.replicate 5 6 }
def upReply (toHost : Bool) (f : EhranPort → EhranPort) : State := upPort toHost fun e => f { e with out := { ReplyOut.reset with staged := [wReply 0, wReply 5] } }
def upAdopts (enabled : Bool) : State := upPort true fun e => { e with cfgPending := true, enabled := enabled, dir := false }

/-- The same with the RPL queue of context 7 in cell 60, and an entry of it in words 962 and 963. -/
def upStageStored : State := { upStage 2 with
  chip.ladle := { wLadle with chains := [{ cells := [60], owner := 64, holders := [64] }] }
  chip.ctxs := (upStage 2).chip.ctxs.set 7 { (upStage 2).chip.ctxs.get 7 with storage := [(1, 15360), (2, 15360)] } }
/-- Five symbols of word 962 read wrong: more than the code corrects. -/
def wHurt : Damage := [(962, [1, 2, 3, 4, 5] ++ List.replicate 14 0)]

/-- The hypotheses of RepliesAndPortSettings, clause by clause. -/
theorem witness_RepliesAndPortSettings :
  upStageStored.chip.placeWords 7 1 2 = [962, 963] ∧ (upStageStored.chip.readEntry 1 wHurt [962, 963]).2 = true ∧
  (upStageStored.chip.readEntry 1 [] [962, 963]).2 = false ∧ upStageStored.chip.portsUp 2 = true ∧ upStageStored.chip.portEnabled 2 = true ∧
  upStageStored.chip.nextStaged 2 = some 7 ∧ (upStageStored.chip.ctxs.get 7).oldest = some (0, wReply 7) ∧
  ([962, 963] : List (BitVec 18)).all upStageStored.chip.bankServes = true ∧
  ([962, 963] : List (BitVec 18)).all ({ upStageStored with chip.funnel.sites := upStageStored.chip.funnel.sites.map fun x => { x with frozen := true } } : State).chip.bankServes = false ∧
  (∀ p ∈ [(2 : Port), 4], (upStage p).chip.portsUp p = true ∧ (upStage p).chip.portEnabled p = true ∧
    ((upStage p).chip.replyOut p).staged.length < 2 ∧ (upStage p).chip.nextStaged p = some 7 ∧ ((upStage p).chip.ctxs.get 7).oldest = some (0, wReply 7) ∧
    ((upStage p).chip.ctxs.get 7).rpl = wReply 7 :: [wReply 8] ∧ (wReply 7).fetch = none) ∧
  (upReply true id).Selected 2 ∧ ((upReply true id).chip.ehran.get 2).dir = true ∧ ((upReply true id).chip.ehran.get 2).out.wire = [] ∧
  ((upReply true id).chip.ehran.get 2).out.staged = wReply 0 :: [wReply 5] ∧ ((upReply true id).chip.ehran.get 2).out.cur = none ∧
  (∀ b ∈ [true, false], (upAdopts b).chip.power.core = true ∧ ((upAdopts b).chip.ehran.get 2).rxOpen = false ∧ (upAdopts b).chip.kettle.raising = [] ∧
    ((upAdopts b).chip.passQ.active.ports.get 2).enable = true ∧ ((upAdopts b).chip.ehran.get 2).cfgPending = true ∧
    ((upAdopts b).chip.ehran.get 2).out.cur = none ∧ ((upAdopts b).chip.ehran.get 2).enabled = b ∧ (upAdopts b).chip.portsUp 2 = true ∧
    (((upAdopts b).chip.passQ.active.ports.get 2).rate 50).toNat ≤ ((upAdopts b).chip.kettle.ports.get 2).toNat) ∧
  (({ up with chip.passQ.active.ports := up.chip.passQ.active.ports.set 2 { enable := false, wide := true, declRate := 0 } } : State).chip.passQ.active.ports.get 2).enable = false := by
  (repeat' apply And.intro) <;> decide +kernel

/-- A STATUS_PEEK of context 0, tag 0x1234, as bytes and as 16-bit transfers: its header's CRC-8 is the last byte. -/
def wPacket : List Byte := [0x05, 0x00, 0x34, 0x12, 0x00, 0x00, 0x00]
def wBytes : List Byte := wPacket ++ [crc8 wPacket]
def wWords : List W16 := [0x0005, 0x1234, 0x0000, crc8 wPacket ++ 0x00#8]
def wCmd (p : Port) : Cmd := { op := .statusPeek, ctx := 0, tag := 0x1234, rcrc := false, port := p, payload := [] }
def upS : State := { up with chip.ctxs := up.chip.ctxs.set 0 { Context.reset with state := .open, port := 4 } }
def upE : State := { up with chip.ehran := up.chip.ehran.set 0 { up.chip.ehran.get 0 with armed := true } }

/-- The hypotheses of PacketsAreAdmitted, clause by clause. -/
theorem witness_PacketsAreAdmitted :
  (upE.chip.ctxs.get 0).isOpen = true ∧ Op.statusPeek ≠ Op.ctxReset ∧ upE.Selected 0 ∧ (upE.chip.ehran.get 0).dir = false ∧ (upE.chip.ehran.get 0).rxOpen = false ∧
  (upE.chip.ehran.get 0).armed = true ∧ (upE.chip.ehran.get 0).rxHeld < 2 ∧ (upE.chip.ehran.get 0).rx = [] ∧ (upE.chip.ehran.get 0).rxLong = false ∧
  upE.chip.merge.get 0 = [] ∧ wWords.flatMap (upE.chip.ehran.get 0).bytesOf = wBytes ∧
  8 ≤ wBytes.length ∧ hdrLength wBytes ≤ 4096 ∧ wBytes.length = (upE.chip.ehran.get 0).wireLength (packetExpected wBytes) ∧
  upE.chip.check 0 (wBytes.take (packetExpected wBytes)) = .inr (wCmd 0) ∧
  upS.chip.spiOn = true ∧ upS.chip.spi.cs = none ∧ upS.chip.spi.rxHeld < 2 ∧ upS.chip.merge.get 4 = [] ∧ wBytes.length = packetExpected wBytes ∧
  upS.chip.check 4 wBytes = .inr (wCmd 4) := by
  (repeat' apply And.intro) <;> decide +kernel

def upSpare (p : List Byte) : State :=
  { waits up .queueConfig p with chip.ctxs := up.chip.ctxs.set 0 { up.chip.ctxs.get 0 with spare := some 5, cmd := [cmdOf .queueConfig wHdr p] } }
def upDepth : State := waits up .queueConfig [0, 0, 5, 0]
def upAttach : State := waits up .queueConfig [3, 1, 15, 0]
def upDetach : State := waits up .queueConfig [200, 2, 0, 0]

/-- The hypotheses of SessionQueries, clause by clause. -/
theorem witness_SessionQueries :
  (waits up .statusPeek []).Heads .statusPeek wHdr [] [] ∧ ((waits up .statusPeek []).chip.ctxs.get 0).executing = [] ∧
  (waits up .quotaQuery []).Heads .quotaQuery wHdr [] [] ∧ ((waits up .quotaQuery []).chip.ctxs.get 0).executing = [] ∧
  (waits up .eventsFetch [3, 0]).Heads .eventsFetch wHdr [3, 0] [] ∧
  upDepth.Heads .queueConfig wHdr [0, 0, 5, 0] [] ∧ queueCells 5 ≤ queueCells ((upDepth.chip.ctxs.get 0).ownDepth 0) ∧
  (upDepth.took wHdr []).chip.mustFit 0 0 ≤ 5 + (upDepth.chip.ctxs.get 0).spareOn 0 ∧
  upAttach.Heads .queueConfig wHdr [3, 1, 15, 0] [] ∧ (upAttach.chip.ctxs.get 0).spare = none ∧
  queueCells 15 = queueCells (upAttach.chip.ctxs.get 0).spareDepth ∧
  (upSpare [5, 2, 0, 0]).Heads .queueConfig wHdr [5, 2, 0, 0] [] ∧ ((upSpare [5, 2, 0, 0]).chip.ctxs.get 0).spare = some 5 ∧
  ((upSpare [5, 2, 0, 0]).chip.ctxs.get 0).spareDepth ≠ 0 ∧
  ((upSpare [5, 2, 0, 0]).took wHdr []).chip.mustFit 0 5 ≤ ((upSpare [5, 2, 0, 0]).chip.ctxs.get 0).ownDepth 5 ∧
  upDetach.Heads .queueConfig wHdr [200, 2, 0, 0] [] ∧ (upDetach.chip.ctxs.get 0).spare = none := by
  (repeat' apply And.intro) <;> decide +kernel

def wHdr9 : CmdHdr := { ctx := 9, tag := 0x55, rcrc := true, port := 2 }
def upOpens (p : List Byte) : State := { up with chip.ladle := wLadle, chip.openQ := [cmdOf .ctxOpen wHdr9 p, cmdOf .ctxOpen wHdr9 p] }
def upCloses : State := { waits up .ctxClose [] with chip.decks := up.chip.decks.set 0 { wDeck with lock := DeckLock.reset } }
def upClosing : State := { up with chip.ctxs := up.chip.ctxs.set 4 { Context.reset with state := .closing } }
def upResets : State := { up with chip.ctxs := up.chip.ctxs.set 0 { Context.reset with state := .resetting, cmd := [cmdOf .ctxReset wHdr []] } }

/-- The hypotheses of ContextsOpenCloseReset, clause by clause. -/
theorem witness_ContextsOpenCloseReset :
  (upOpens [0, 0, 0, 0]).chip.cookCan = true ∧ ((upOpens [0, 0, 0, 0]).chip.ctxs.get 9).state = .closed ∧
  (upOpens [0, 0, 0, 0]).chip.islandOff 9 = false ∧ (upOpens [0, 0, 0, 0]).chip.domOn (islandUnit 9) = true ∧
  (upOpens [0, 0, 0, 0]).chip.openQ.head? = some (cmdOf .ctxOpen wHdr9 [0, 0, 0, 0]) ∧ wLadle.built = true ∧
  276 ≤ wLadle.cellsFree ∧ 20 ≤ wLadle.openCells.length ∧ (∀ i ∈ wLadle.openCells.take 20, (upOpens [0, 0, 0, 0]).Plain (16 * i)) ∧
  upCloses.chip.cookCan = true ∧ upCloses.Heads .ctxClose wHdr [] [] ∧ (upCloses.chip.ctxs.get 0).executing = [] ∧
  (∀ d, (upCloses.chip.decks.get d).lock.holder ≠ some 0) ∧ (∀ k ∈ upCloses.chip.ladle.chains, 0 ∉ k.holders) ∧
  (∀ b ∈ upCloses.chip.ladle.blocks, 0 ∉ b.holders) ∧
  (upClosing.chip.ctxs.get 4).state = .closing ∧ (upClosing.chip.ctxs.get 4).rpl = [] ∧ (upClosing.chip.ctxs.get 4).waitingOpen = [] ∧
  upResets.chip.cookCan = true ∧ (upResets.chip.ctxs.get 0).state = .resetting ∧ cmdOf .ctxReset wHdr [] ∈ (upResets.chip.ctxs.get 0).cmd := by
  (repeat' apply And.intro) <;> decide +kernel

def upLock (st : LockState) (op : Op) (p : List Byte) : State :=
  let s := { up with chip.decks := up.chip.decks.set 0 { wDeck with lock := { DeckLock.reset with state := st, lease := 30, leaseAt := up.chip.now } } }
  waits s op p
def pLock : List Byte := [0, 1, 50, 0, 0, 0, 0, 0]

/-- The hypotheses of DeckLocks, clause by clause. -/
theorem witness_DeckLocks :
  (∀ st ∈ [LockState.free, .held 0, .held 5], (upLock st .deckLock pLock).chip.power.valid = true ∧
    (upLock st .deckLock pLock).chip.events.length < 64 ∧ ((upLock st .deckLock pLock).chip.ctxs.get 0).executing = [] ∧
    (upLock st .deckLock pLock).chip.deckHeld 0 = false ∧ (upLock st .deckLock pLock).chip.leaseOver 0 = false ∧
    (upLock st .deckLock pLock).Heads .deckLock wHdr pLock []) ∧
  (upLock (.window 0) .deckAdopt [0, 0, 0, 0]).Heads .deckAdopt wHdr [0, 0, 0, 0] [] ∧ ((upLock (.window 0) .deckAdopt [0, 0, 0, 0]).chip.ctxs.get 0).executing = [] ∧
  (upLock (.window 0) .deckAdopt [0, 0, 0, 0]).chip.leaseOver 0 = false ∧
  (upLock (.held 0) .deckUnlock [0, 0, 0, 0]).Heads .deckUnlock wHdr [0, 0, 0, 0] [] ∧ (upLock (.held 0) .deckUnlock [0, 0, 0, 0]).Still 0 ∧
  (upLock (.held 0) .deckUnlock [0, 0, 0, 0]).chip.domains.holdPend.getLsbD 0 = false ∧ (upLock (.held 0) .deckUnlock [0, 0, 0, 0]).chip.leaseOver 0 = false ∧
  (upLock (.held 0) .deckStatus [0, 0, 0, 0]).Heads .deckStatus wHdr [0, 0, 0, 0] [] := by
  (repeat' apply And.intro) <;> decide +kernel

def upLease (st : LockState) : State := { up with chip.decks := up.chip.decks.set 0 { wDeck with lock := { DeckLock.reset with state := st, lease := 3000 } } }

/-- The hypotheses of LeasesAndOrphans, clause by clause. -/
theorem witness_LeasesAndOrphans :
  (upLease (.held 0)).chip.power.valid = true ∧ (upLease (.held 0)).chip.events.length < 63 ∧
  ((upLease (.held 0)).chip.ctxs.get 0).isOpen = true ∧ (upLease (.held 0)).Hears 0 0 ∧ ((upLease (.held 0)).chip.decks.get 0).lock.lease ≠ 0 ∧
  ((upLease (.held 0)).chip.ctxs.get 0).working 0 = false ∧ ((upLease (.held 0)).chip.decks.get 0).lock.warned = false ∧ (upLease (.held 0)).Still 0 ∧
  (upLease (.draining 0)).chip.drained 0 = true ∧ (upLease (.window 0)).Still 0 ∧ (upLease (.window 0)).chip.domains.holdPend.getLsbD 0 = false := by
  (repeat' apply And.intro) <;> decide +kernel

def wEv (n : Nat) : Event := { code := BitVec.ofNat 8 n, arg := 8, time := 9, targets := [(0, 0x4000)] }
def wEvRec (n : Nat) : EventRec := { code := BitVec.ofNat 8 n, count := 255, object := 0x4000, arg := 1, time := 2 }
def upEvents (n : Nat) (recs : List EventRec) (depth : Nat) : State :=
  { up with
    chip.events := [wEv n, wEv 9]
    chip.ctxs := up.chip.ctxs.set 0 { up.chip.ctxs.get 0 with evt := { EvtQueue.reset with recs := recs, depth := depth } } }
def upHeld : State := { up with chip.held := [(12 * 0 + 7 + 2, .rdata (wReply 0))] }
def wNotice : Notice := { ctx := 0, tag := 5, rcrc := false, stat := 0, payload := [1] }
def upNotice (w : CookWork) : State :=
  { up with
    chip.decks := up.chip.decks.set 0 { wDeck with cookQ := [w, w], seq := { wDeck.seq with state := .streaming } }
    chip.ctxs := up.chip.ctxs.set 0 { up.chip.ctxs.get 0 with executing := [{ op := .rewind, tag := 5, rcrc := false, deck := some 0 }] } }
def upWork (st : DeckState) (q : List Motion) : State :=
  { up with chip.decks := up.chip.decks.set 0 { wDeck with workQ := q, seq := { wDeck.seq with state := st } } }

/-- The hypotheses of QueueDeliveries, clause by clause. -/
theorem witness_QueueDeliveries :
  (∀ n ∈ ([(4, 8), (4, 3), (0xC4, 3), (4, 2)] : List (Nat × Nat)),
    (upEvents n.1 [wEvRec 1, wEvRec 2] n.2).chip.events = wEv n.1 :: [wEv 9] ∧
    (wEv n.1).targets = [(0, 0x4000)] ∧ ((upEvents n.1 [wEvRec 1, wEvRec 2] n.2).chip.ctxs.get 0).isOpen = true ∧
    ∀ r ∈ ((upEvents n.1 [wEvRec 1, wEvRec 2] n.2).chip.ctxs.get 0).evt.recs, ¬ (r.code = (wEv n.1).code ∧ r.object = 0x4000)) ∧
  (∃ r ∈ ((upEvents 2 [wEvRec 1, wEvRec 2] 8).chip.ctxs.get 0).evt.recs, r.code = (wEv 2).code ∧ r.object = 0x4000) ∧
  upHeld.chip.held = (12 * 0 + 7 + 2, .rdata (wReply 0)) :: [] ∧
  ((upHeld.chip.ctxs.get 0).rdata.get 2).length < (upHeld.chip.ctxs.get 0).depth 9 ∧
  (∀ w ∈ [CookWork.ended wNotice, .endedMove (some wNotice)], ((upNotice w).chip.decks.get 0).cookQ = w :: [w] ∧ (upNotice w).chip.cookCan = true ∧
    ((upNotice w).chip.ctxs.get 0).state = .open ∧ ((upNotice w).chip.ctxs.get 0).executing = [{ op := .rewind, tag := 5, rcrc := false, deck := some 0 }] ∧
    ((upNotice w).chip.decks.get 0).seq.op = none ∧ ((upNotice w).chip.decks.get 0).seq.state = .streaming) ∧
  ((upWork .streaming [.speed 70000, .stop]).chip.decks.get 0).workQ = .speed 70000 :: [.stop] ∧ (upWork .streaming [.speed 70000, .stop]).chip.servoOn 0 = true ∧
  ((upWork .streaming [.speed 70000, .stop]).chip.decks.get 0).seq.state = .streaming ∧
  ((upWork .dormant [.stop]).chip.decks.get 0).workQ = .stop :: [] ∧ ((upWork .dormant [.stop]).chip.decks.get 0).seq.state = .dormant := by
  (repeat' apply And.intro) <;> decide +kernel

/-- Deck 0 with slot 3 changed. -/
def upSlot (f : Slot → Slot) : State := { up with chip.decks := up.chip.decks.set 0 { wDeck with loops.slots := wDeck.loops.slots.set 3 (f (wDeck.loops.slots.get 3)) } }
def slotOpen : State := upSlot fun t => { t with state := .open, tune.state := .done }
def pEntries : List Byte := [0, 3, 1, 0, 0x0C, 0, 0, 0, 20, 0, 0, 0]
def pSafe : List Byte := [0, 3, 1, 0, 0x84, 0, 0, 0, 20, 0, 0, 0]

/-- The hypotheses of LoopSlotCommands, clause by clause. -/
theorem witness_LoopSlotCommands :
  (∀ s ∈ [upSlot id, slotOpen], s.Locked wHdr 0 ∧ (s.chip.decks.get 0).seq.state ≠ .dormant) ∧
  ((upSlot id).chip.decks.get 0).loops.slots[3].state = .closed ∧ (slotOpen.chip.decks.get 0).loops.slots[3].state = .open ∧
  (slotOpen.chip.decks.get 0).loops.slots[3].tune.state = .done ∧ (slotOpen.chip.decks.get 0).seq.state = .ready ∧
  (waits slotOpen .loopOpen [0, 3, 0, 0]).Heads .loopOpen wHdr [0, 3, 0, 0] [] ∧ (waits slotOpen .loopClose [0, 3, 0, 0]).Heads .loopClose wHdr [0, 3, 0, 0] [] ∧
  (waits slotOpen .loopWrite pEntries).Heads .loopWrite wHdr pEntries [] ∧ (slotOpen.chip.decks.get 0).loops.slots[3].accepts [(0x0C, 20)] = true ∧
  (slotOpen.chip.decks.get 0).loops.slots[3].accepts [(0x84, 20)] = true ∧
  (waits slotOpen .loopRead [0, 3, 2, 0, 0, 0, 4, 0]).Heads .loopRead wHdr [0, 3, 2, 0, 0, 0, 4, 0] [] ∧
  (∀ o ∈ ([0, 4] : List Nat), ((slotOpen.chip.decks.get 0).loops.readSlot 3 o).isSome = true) ∧
  (waits slotOpen .autotuneResult [0, 3, 0, 0]).Heads .autotuneResult wHdr [0, 3, 0, 0] [] ∧
  (waits slotOpen .autotuneResult [0, 3, 1, 0]).Heads .autotuneResult wHdr [0, 3, 1, 0] [] := by
  (repeat' apply And.intro) <;> decide +kernel

/-- Deck 0 with axis 1 tripped, its input as given. -/
def upTrip (tripped input : Bool) : State :=
  { up with chip.decks := up.chip.decks.set 0 { wDeck with io.axes := wDeck.io.axes.set 1 { AxisState.reset with trip := tripped, tripIn := input, mode := .tripped } } }
/-- The bytes 0 to 123 of a profile image (Tables 8-8 and 8-9), in four parts. -/
def wFieldsA : List Byte :=
  [0x53, 0x5A, 0x50, 0x31, 1, 0, 128, 0] ++ leBytes 4 8000000 ++ leBytes 2 1000 ++ leBytes 2 500 ++ [16, 8] ++ leBytes 2 100 ++ leBytes 4 200
    ++ leBytes 4 20000 ++ leBytes 4 1000
def wFieldsB : List Byte :=
  leBytes 4 100000 ++ leBytes 4 4000000 ++ leBytes 4 2000000 ++ leBytes 4 500000 ++ leBytes 4 5000 ++ leBytes 4 100000 ++ leBytes 4 10000
def wFieldsC : List Byte :=
  leBytes 2 8192 ++ leBytes 2 2048 ++ leBytes 2 20000 ++ leBytes 2 20000 ++ leBytes 2 20000 ++ leBytes 2 20000 ++ leBytes 2 500 ++ leBytes 2 1000
    ++ leBytes 2 1000 ++ leBytes 2 1000 ++ leBytes 2 1000 ++ leBytes 2 1000 ++ leBytes 2 1000 ++ [0, 0]
def wFieldsD : List Byte := leBytes 4 320000 ++ leBytes 2 800 ++ leBytes 2 1600 ++ List.replicate 28 0
def wFields : List Byte := wFieldsA ++ wFieldsB ++ wFieldsC ++ wFieldsD
/-- The image: the fields and their CRC-32. -/
def wImage : List Byte := wFields ++ leBytes 4 215081630

theorem wFields_crc : crc32 wFields = 215081630 := by
  have hA : wFieldsA.foldl (fun c b => crc32Steps 8 (c ^^^ b.zeroExtend 32)) 0xFFFFFFFF#32 = 3543059100#32 := by decide +kernel
  have hB : wFieldsB.foldl (fun c b => crc32Steps 8 (c ^^^ b.zeroExtend 32)) 3543059100#32 = 2181844330#32 := by decide +kernel
  have hC : wFieldsC.foldl (fun c b => crc32Steps 8 (c ^^^ b.zeroExtend 32)) 2181844330#32 = 3149967701#32 := by decide +kernel
  have hD : wFieldsD.foldl (fun c b => crc32Steps 8 (c ^^^ b.zeroExtend 32)) 3149967701#32 = 4079885665#32 := by decide +kernel
  simp only [crc32, wFields, List.foldl_append, hA, hB, hC, hD]
  decide

/-- PROFILE_LOAD takes the image (R220). -/
theorem wImage_ok : profileOk wImage = true := by
  have h : wImage.take 124 = wFields := by decide +kernel
  simp only [profileOk, h, wFields_crc]
  decide +kernel

/-- The image spells the profile that the witnesses use. -/
theorem test_parse_profile : parseProfile wImage = wProfile := by decide +kernel

/-- Deck 0 STREAMING with a write declared and the compress engine outside the declaration. -/
def upRaises : State :=
  { upDeck (fun k => { k with seq.state := .streaming, compress := false }) with
    chip.kettle.decks := up.chip.kettle.decks.set 0 { noLoad with loopPeriod := 500, tracks := 2, cellRate := 100 } }

/-- The hypotheses of DeckSettings, clause by clause. -/
theorem witness_DeckSettings :
  (∀ s ∈ [upTrip true false, upTrip false false, upTrip true true, up, upDeck fun k => { k with compress := false }, upDeck fun k => { k with seq.state := .present }],
    s.Locked wHdr 0) ∧
  (waits up .tripClear [0, 2, 0, 0]).Heads .tripClear wHdr [0, 2, 0, 0] [] ∧
  ((upTrip true false).chip.decks.get 0).io.axes[1].tripIn = false ∧ ((upTrip true false).chip.decks.get 0).io.axes[1].trip = true ∧
  ((upTrip false false).chip.decks.get 0).io.axes[1].trip = false ∧ ((upTrip true true).chip.decks.get 0).io.axes[1].tripIn = true ∧
  (waits up .speedPolicy [0, 1, 0, 0, 0, 0, 0, 0, 0x88, 0x13, 0, 0]).Heads .speedPolicy wHdr [0, 1, 0, 0, 0, 0, 0, 0, 0x88, 0x13, 0, 0] [] ∧
  wProfile.sMin ≤ 5000 ∧ (up.chip.decks.get 0).profile = some wProfile ∧
  (waits up .compressionSet [0, 0, 0, 0]).Heads .compressionSet wHdr [0, 0, 0, 0] [] ∧ (up.chip.decks.get 0).seq.state ≠ .streaming ∧
  (waits upRaises .compressionSet [0, 1, 0, 0]).Heads .compressionSet wHdr [0, 1, 0, 0] [] ∧ upRaises.Locked wHdr 0 ∧ (upRaises.chip.decks.get 0).seq.state = .streaming ∧
  loadWrites (upRaises.chip.kettle.decks.get 0) = true ∧
  upRaises.chip.kettle.isRaise (.deck 0 { upRaises.chip.kettle.decks.get 0 with compress := true }) = true ∧ upRaises.chip.kettle.raising = [] ∧
  upRaises.chip.temp.limited = false ∧
  (waits up .profileLoad ([0, 0, 0, 0] ++ wImage)).Heads .profileLoad wHdr ([0, 0, 0, 0] ++ wImage) [] ∧
  ((upDeck fun k => { k with seq.state := .present }).chip.decks.get 0).seq.op = none ∧ ((upDeck fun k => { k with seq.state := .present }).chip.decks.get 0).cookQ = [] ∧ (upDeck fun k => { k with seq.state := .present }).chip.kettle.raising = [] ∧
  (waits up .positionRead [0, 0, 0, 0]).Heads .positionRead wHdr [0, 0, 0, 0] [] ∧ (up.chip.decks.get 0).seq.state = .ready ∧ (up.chip.decks.get 0).tape.media.isSome = true ∧ (up.chip.decks.get 0).profile.isSome = true := by
  (repeat' apply And.intro) <;> decide +kernel


/-- Deck 0 with a read (write) declaration in force and this tape. -/
def upDecl (reading : Bool) (f : TapeInfo → TapeInfo) : State :=
  { upDeck (fun k => { k with tape := f { k.tape with declared := some (!reading) }, matcher.hi := 10000 }) with
    chip.kettle.decks := up.chip.kettle.decks.set 0 { noLoad with loopPeriod := 500, tracks := 2, reading := reading, cellRate := 100 } }
def wReadRec : ReadRec := { object := 5, length := 5, raw := true, marked := false, bytes := [1, 2, 3, 4, 5], whole := false, ds := 2 }
/-- At object 5 of 20, in dataset 2 of 10. -/
def atMid : State := upDecl true fun t => { t with eodObj := Vector.replicate 4 20, eodDs := Vector.replicate 4 10, object := 5, dataset := 2, wrap := 1 }
def inRec : State := upDecl true fun t =>
  { t with eodObj := Vector.replicate 4 20, eodDs := Vector.replicate 4 10, object := 5, dataset := 2, mid := true, current := some wReadRec }
/-- A tape of two partitions, the position in the second. -/
def inSecond : State := upDecl true fun t =>
  { t with label := some { wLabel with partitions := 2, wraps := [4, 4] }, eodObj := Vector.replicate 4 20, eodDs := Vector.replicate 4 10, object := 5
           dataset := 2, partition := 1, wrap := 5 }
def atEnd : State := upDecl true fun t => { t with eodObj := Vector.replicate 4 20, eodDs := Vector.replicate 4 10, object := 20, dataset := 10 }
def pRead : List Byte := [0, 0, 0, 0, 9, 0, 0, 0]
def pVerify : List Byte := [0, 0, 3, 0, 0, 0, 0, 0]
def pLocate : List Byte := [0, 0, 0, 0, 0, 0, 0, 0, 7, 0, 0, 0, 0, 0, 0, 0]
def pSpace : List Byte := [0, 1, 0, 0, 0xFE, 0xFF, 0xFF, 0xFF]

/-- The hypotheses of ReadingOperationsStart, clause by clause. -/
theorem witness_ReadingOperationsStart :
  (∀ s ∈ [atMid, inRec, inSecond, atEnd, upDecl true id], s.Locked wHdr 0 ∧ s.Loaded 0 ∧ s.Still 0 ∧ s.Hears 0 0 ∧
    (s.chip.decks.get 0).tape.declared = some false ∧ (s.chip.decks.get 0).tape.ds = none ∧ (s.chip.decks.get 0).tape.ahead = .unknown) ∧
  (∀ s ∈ [atMid, inRec, inSecond], (s.chip.decks.get 0).tape.object.toNat < (s.chip.decks.get 0).tape.eodObject.toNat) ∧
  (atMid.chip.decks.get 0).tape.mid = false ∧ (atMid.chip.decks.get 0).tape.current = none ∧
  (inRec.chip.decks.get 0).tape.mid = true ∧ (inRec.chip.decks.get 0).tape.current = some wReadRec ∧
  (atEnd.chip.decks.get 0).tape.atEod = true ∧ (atEnd.chip.decks.get 0).tape.incompleteHere = false ∧
  (inSecond.chip.decks.get 0).tape.label = some { wLabel with partitions := 2, wraps := [4, 4] } ∧ (atMid.chip.decks.get 0).tape.label = some wLabel ∧
  ¬ ((atMid.chip.decks.get 0).tape.atBop = true ∧ (atMid.chip.decks.get 0).tape.partition = 0) ∧
  ((upDecl true id).chip.decks.get 0).tape.atBop = true ∧ ((upDecl true id).chip.decks.get 0).tape.partition = 0 ∧
  (waits atMid .readRecord pRead).Heads .readRecord wHdr pRead [] ∧ (waits inRec .readMore pRead).Heads .readMore wHdr pRead [] ∧
  (waits atMid .verify pVerify).Heads .verify wHdr pVerify [] ∧ (waits atMid .locate pLocate).Heads .locate wHdr pLocate [] ∧
  (waits atMid .space pSpace).Heads .space wHdr pSpace [] ∧ (waits atMid .rewind [0, 0, 0, 0]).Heads .rewind wHdr [0, 0, 0, 0] [] := by
  (repeat' apply And.intro) <;> decide +kernel

def wTicketRec : Rec :=
  { object := 0, length := 600, parts := [], raw := false, durable := false, tag := 3, rcrc := false, poisoned := false, silent := false, chain := [] }
def wTicket : Ticket := { deck := 0, number := 4, reserved := 0, record := wTicketRec }
def upWrite : State := { upDecl false id with chip.ladle := wLadle }
/-- A write from inside the tape. -/
def upInside : State := upDecl false fun t => { t with eodObj := Vector.replicate 4 20, eodDs := Vector.replicate 4 10, object := 5, dataset := 2 }
def withTicket (s : State) (t : Ticket) : State := { s with chip.ctxs := s.chip.ctxs.set 0 { s.chip.ctxs.get 0 with ticket := some t } }
def upTicket : State := withTicket upWrite wTicket
/-- A ticket whose record has 300 bytes in cells 7 and 9. -/
def wTicket2 : Ticket := { wTicket with record := { wTicketRec with parts := [300], chain := [7, 9] }, reserved := 3 }
def upTicket2 : State := withTicket upWrite wTicket2
def wPart : List Byte := (List.range 300).map (fun i => BitVec.ofNat 8 i)
def wWhole : List Byte := (List.range 600).map (fun i => BitVec.ofNat 8 i)
def upStaged : State := upDeck fun k => { k with staged := [.marks 0 0 2 false 1 false], tape := { k.tape with object := 2 } }
/-- The same with the Roller's domain off. -/
def noRoller (s : State) : State := { s with chip.domains.on := s.chip.domains.on.set 50 false }
def pRecord : List Byte := [0, 2, 0, 0, 12, 0, 0, 0]
def pAbandon : List Byte := [0, 4, 0, 0, 0, 0, 0, 0]

/-- The hypotheses of WRITE_DATA's clause, for this ticket and payload of three (two) cells. -/
def dataReady (s : State) (tk : Ticket) (p : List Byte) : Prop :=
  let head := tk.record.chain
  let n := ceilDiv p.length 248
  let cells := wLadle.openCells.take n
  (waits s .writeData p).Heads .writeData wHdr p [] ∧ s.Locked wHdr 0 ∧ s.Loaded 0 ∧ (s.chip.ctxs.get 0).ticket = some tk ∧ tk.deck = 0 ∧ p ≠ [] ∧
  tk.record.received + p.length ≤ tk.record.length ∧ s.chip.canStore 0 p.length = true ∧ s.chip.merge.get (portBuffer 0) = [] ∧ s.Canonical ∧
  wLadle.cellsHeld 0 + n ≤ (s.chip.ctxs.get 0).cellLimit ∧ n + (n + bit head.isEmpty) + 256 ≤ wLadle.cellsFree ∧
  n + (n + bit head.isEmpty) ≤ wLadle.openCells.length ∧ (∀ i ∈ wLadle.openCells.take (n + (n + bit head.isEmpty)), s.Plain (16 * i)) ∧
  (∀ i ∈ cells, ∀ y ∈ s.chip.sram.mem, y.1 / 512 ≠ i) ∧ (∀ i ∈ cells, ∀ j < 16, s.Uncached (BitVec.ofNat 18 (16 * i + j)))

theorem data_first : dataReady upTicket wTicket wWhole := by unfold dataReady; (repeat' apply And.intro) <;> decide +kernel
theorem data_more : dataReady upTicket2 wTicket2 wPart := by unfold dataReady; (repeat' apply And.intro) <;> decide +kernel

/-- The remaining hypotheses of WritingCommands, clause by clause. -/
theorem witness_WritingCommands :
  (∀ s ∈ [upWrite, upInside], s.Locked wHdr 0 ∧ s.Loaded 0 ∧ s.Still 0 ∧ (s.chip.decks.get 0).tape.declared = some true ∧
    (s.chip.decks.get 0).tape.mid = false ∧ s.chip.partitionFull 0 16 = false ∧ s.chip.partitionFull 0 0 = false) ∧
  lagCells wProfile.rwOffset wLabel.cellLength ≤ 2232 ∧
  (upWrite.chip.decks.get 0).tape.atEod = true ∧ (upInside.chip.decks.get 0).tape.atEod = false ∧
  (waits upWrite .writeRecord pRecord).Heads .writeRecord wHdr pRecord [] ∧
  (waits upTicket .writeRecord pAbandon).Heads .writeRecord wHdr pAbandon [] ∧ (upWrite.chip.ctxs.get 0).ticket = none ∧ wLadle.leaving = none ∧
  wTicketRec.received + wPart.length < wTicketRec.length ∧ wTicket2.record.received + wPart.length = wTicketRec.length ∧
  wTicketRec.durable = false ∧ upTicket.chip.held = [] ∧ ((upTicket.chip.ctxs.get 0).wdata.get 0).length < (upTicket.chip.ctxs.get 0).depth 3 ∧
  wLadle.chains.find? (fun c => c.cells.head? == some 7) = some { cells := [7, 9], owner := 0, holders := [0] } ∧ upTicket2.Plain (16 * 7) ∧
  (∀ i ∈ [7, 9], cellRetired upTicket2.chip.retireList i = false) ∧
  (waits upWrite .writeFilemark [0, 2, 3, 0]).Heads .writeFilemark wHdr [0, 2, 3, 0] [] ∧ (noRoller upWrite).chip.domOn 50 = false ∧
  (waits upStaged .flush [0, 0, 0, 0]).Heads .flush wHdr [0, 0, 0, 0] [] ∧ upStaged.Locked wHdr 0 ∧ upStaged.Loaded 0 ∧
  0 < upStaged.chip.stagedObjects 0 ∧ upWrite.chip.stagedObjects 0 = 0 := by
  (repeat' apply And.intro) <;> decide +kernel

def p4 : List Byte := [0, 0, 0, 0]
/-- Deck 0 PRESENT, its loops running or not, with the load given. -/
def upPresent (running : Bool) (period : BitVec 12) : State :=
  { upDeck (fun k => { k with seq := { k.seq with state := .present, base := .present }, tape := TapeInfo.reset, loops.running := running }) with
    chip.kettle.decks := up.chip.kettle.decks.set 0 { noLoad with loopPeriod := period } }
/-- A FORMAT_TAPE request: two tracks, one partition of eight wraps, cells of 1000 crumbs. -/
def pFormat : List Byte := [0, 2, 1, 0] ++ leBytes 4 1000 ++ [8, 0, 0, 0]
def pTune : List Byte := [0, 3, 8, 0, 100, 0, 10, 0]
def upOpenLabel : State := upDecl false fun t => { t with label := some { wLabel with isOpen := true } }

/-- The hypotheses of DeckOperationsBegin, clause by clause. -/
theorem witness_DeckOperationsBegin :
  (∀ s ∈ [upPresent true 0, upPresent false 500, upPresent false 0, up, upOpenLabel, upDecl false id, upInside], s.Locked wHdr 0 ∧ s.Still 0 ∧
    s.chip.timebase.refState = .locked ∧ s.chip.log.held = [] ∧ (∀ a, ((s.chip.decks.get 0).io.axes.get a).trip = false) ∧
    (s.chip.decks.get 0).profile = some wProfile ∧ (s.chip.decks.get 0).io.cart = true ∧ (s.chip.decks.get 0).io.door = true) ∧
  ((upPresent false 500).chip.kettle.decks.get 0).loopPeriod = BitVec.ofNat 12 wProfile.loopPeriod ∧
  (upPresent false 0).chip.kettle.isRaise (.deck 0 { (upPresent false 0).chip.kettle.decks.get 0 with loopPeriod := 500 }) = true ∧
  (upPresent false 0).chip.temp.limited = false ∧ ((upPresent true 0).chip.decks.get 0).seq.state = .present ∧
  (waits up .load p4).Heads .load wHdr p4 [] ∧ (waits up .home p4).Heads .home wHdr p4 [] ∧ (waits up .unload p4).Heads .unload wHdr p4 [] ∧
  (waits up .deckStop p4).Heads .deckStop wHdr p4 [] ∧ (waits up .autotune pTune).Heads .autotune wHdr pTune [] ∧
  (waits up .eraseFromHere p4).Heads .eraseFromHere wHdr p4 [] ∧ (waits up .formatTape pFormat).Heads .formatTape wHdr pFormat [] ∧
  (up.chip.decks.get 0).seq.state = .ready ∧ (up.chip.decks.get 0).tape.label = some wLabel ∧
  (∀ s ∈ [upDecl false id, upInside], s.Loaded 0 ∧ (s.chip.decks.get 0).tape.declared = some true ∧ (s.chip.decks.get 0).tape.mid = false) ∧
  lagCells wProfile.rwOffset wLabel.cellLength ≤ 2232 ∧ ((upDecl false id).chip.decks.get 0).tape.atEod = true ∧
  (upInside.chip.decks.get 0).tape.atEod = false ∧
  pFormat.head? = some 0 ∧ fieldZero pFormat 3 1 = true ∧ formatOk (some wProfile) pFormat = true := by
  (repeat' apply And.intro) <;> decide +kernel

/-- Deck 0 with a motion request, in this state, under this operation. -/
def upMotion (m : Motion) (st : DeckState) (o : Option DeckOp) (running : Bool) : State := upDeck fun k => { k with
  seq := { k.seq with state := st, op := o }, workQ := [m, .stop], loops.running := running
  roller.buffers := [DsBuf.fresh wLabelDs [] 0] }
def wOpOf (op : Op) (moving : Bool) : Option DeckOp := some (runningOp op wHdr p4 0 moving)

/-- The hypotheses of StopsAndMotionRequests, clause by clause. -/
theorem witness_StopsAndMotionRequests :
  (∀ s ∈ [upStreams, upStop true, upStop false], s.Locked wHdr 0 ∧ s.chip.kettle.raising = [] ∧ (s.chip.decks.get 0).seq.op = none ∧
    (s.chip.decks.get 0).seq.waiters = [] ∧ (s.chip.decks.get 0).endReading = s.chip.decks.get 0 ∧ (s.chip.decks.get 0).failTune = s.chip.decks.get 0 ∧
    (waits s .deckStop p4).Heads .deckStop wHdr p4 []) ∧
  (upStreams.chip.decks.get 0).roller.open_ = none ∧ (upStreams.chip.decks.get 0).roller.buffers = [] ∧
  (upStreams.chip.decks.get 0).roller.gate = false ∧ Motion.stop ∉ (upStreams.chip.decks.get 0).workQ ∧
  (∀ s ∈ [upMotion .stop .streaming none true, upMotion (.move 70000) .ready (wOpOf .verify true) true, upMotion .start .ready none true,
      upMotion .unload .ready (wOpOf .unload false) true, upMotion (.load false) .present (wOpOf .load false) false,
      upMotion .home .empty (wOpOf .home false) false], s.chip.servoOn 0 = true ∧ s.Hears 0 0 ∧ s.chip.domains.holdPend.getLsbD 0 = false ∧
    (s.chip.decks.get 0).profile = some wProfile ∧ (s.chip.decks.get 0).strainer.pass = 0 ∧
    (∀ a, ((s.chip.decks.get 0).io.axes.get a).tripIn = false)) := by
  (repeat' apply And.intro) <;> decide +kernel

def upJtag (f : Jtag → Jtag) : State := { up with chip.jtag := f up.chip.jtag }
/-- Every deck is held already. -/
def upAllHeld (f : Jtag → Jtag) : State := { upJtag f with chip.emergency.hold := 0xF }
/-- Macro 5 is isolated, and erased. -/
def upIso : State := { upJtag fun j => { j with isoOn := true, isoMacro := 5 } with chip.sram.isolated := some 5, chip.sram.erased := some 5 }

/-- The hypotheses of JtagInstructions, clause by clause. -/
theorem witness_JtagInstructions :
  (∀ s ∈ [up, upIso, upAllHeld id], s.chip.jtag.ready = true ∧ s.chip.power.viom = true ∧ s.chip.power.valid = true ∧ s.chip.jtag.extest = false ∧
    s.chip.declaredErasure = none) ∧
  (5 : BitVec 5) ∉ [0b00000, 0b00001, 0b00010, 0b10000, 0b10001] ∧ up.chip.jtag.isoOn = false ∧ up.chip.sram.isolated = none ∧ up.chip.sram.erased = none ∧
  (∀ d, (upAllHeld id).chip.deckHeld d = true) ∧ (upAllHeld id).chip.emergency.jtag = 0 ∧
  upIso.chip.jtag.isoOn = true ∧ upIso.chip.sram.erased = some 5 ∧ upIso.chip.jtag.isoMacro ≠ BitVec.ofNat 5 7 ∧
  (upJtag fun j => { j with extest := true }).chip.jtag.extest = true ∧
  ({ upAxes with chip.jtag.extest := true, chip.jtag.boundary := List.replicate 521 true } : State).chip.extestPads.isSome = true ∧
  ((upAxes.chip.decks.get 0).io.axes.get 0).tripIn = true := by
  (repeat' apply And.intro) <;> decide +kernel

def upDom (f : Domains → Domains) : State := { up with chip.domains := f up.chip.domains }
/-- Island 4's domain is off, and a CTX_OPEN for its context 17 waits. -/
def upIdle (waiting : List Cmd) : State :=
  { upDom (fun x => { x with on := x.on.set 20 false }) with chip.kettle.decks := Vector.replicate 4 noLoad, chip.openQ := waiting }
def wOpen17 : Cmd := cmdOf .ctxOpen { wHdr with ctx := 17 } [0, 0, 0, 0]
def upDeckOff : State :=
  upDom fun x => { x with deckOff := 4, deckHold := 4, holdPend := 4, on := (deckDomains 2).foldl (fun l n => l.set n false) x.on, mirror := [(53, 0x2400, 7), (9, 1, 2)] }
def upSramOff : State := upDom fun x => { x with sramActive := 2, sramOff := 2, sramPend := 2, on := (groupDomains 1).foldl (fun l n => l.set n false) x.on }
/-- Banks 4 to 7 are retired. -/
def upRetired : State :=
  { up with chip.passQ.active.retire := (List.range 4).foldl (fun v (j : Nat) =>
      v.setIfInBounds j { kind := 3, index := 4 + BitVec.ofNat _ j }) up.chip.passQ.active.retire }

/-- The hypotheses of DomainControl, clause by clause. -/
theorem witness_DomainControl :
  (up.chip.switchable 30 = true ∧ (up.chip.domains.on[30]?).getD false = true ∧ up.chip.domains.acts 30 ≠ 0 ∧ up.chip.domIdle 30 = true) ∧
  ¬ (up.chip.switchable 3 = true) ∧ up.Reached ∧
  (∀ s ∈ [upIdle [], upIdle [wOpen17]], ¬ ((s.chip.domains.on[20]?).getD false = true) ∧ s.chip.power.warning = false ∧ s.chip.power.core = true ∧
    s.chip.domains.policy[20]? = some 1 ∧ 20 ∉ s.chip.log.held ∧ 20 ∉ s.chip.domains.recovering) ∧
  (∃ c ∈ (upIdle [wOpen17]).chip.openQ, c.ctx.val / 4 = 20 - 16) ∧
  up.chip.domains.deckOff = 0 ∧ (up.chip.decks.get 0).lock.state ≠ .free ∧ (up.chip.decks.get 1).lock.state = .free ∧
  (up.chip.decks.get 1).seq.state = .empty ∧
  upDeckOff.chip.domains.deckOff = BitVec.ofNat 4 (2 ^ 2) ∧ upDeckOff.chip.power.decksOn = true ∧ upDeckOff.chip.log.held = [] ∧
  upDeckOff.chip.domains.recovering = [] ∧ upDeckOff.chip.domains.on.length = 148 ∧ upDeckOff.OnRef ∧ upDeckOff.Reached ∧
  up.chip.domains.sramActive = 0 ∧ (∀ j, j < 64 → retEntry up.chip.retireList 3 j = false) ∧
  (∀ j < 4, retEntry upRetired.chip.retireList 3 (4 + j) = true ∧ upRetired.chip.ladle.bankHeld (4 + j) = false) ∧
  upSramOff.chip.domains.sramActive = BitVec.ofNat 4 (2 ^ 1) ∧ upSramOff.chip.power.core = true ∧ upSramOff.Reached := by
  (repeat' apply And.intro) <;> decide +kernel

def dark (f : Power → Power) : State := { State.reset with chip.power := f Power.reset }
def lit (f : Power → Power) : State := dark fun p => f { p with valid := true, vin := 600, vinLow := 600 }
def litOff (v : BitVec 4) : State := { lit id with chip.domains.deckOff := v }
def upBoot (f : Cook → Cook) : State := { up with chip.cook := f Cook.reset }
def upNoDecks : State := { up with chip.power.decksOn := false, chip.power.control := false, chip.domains.on := List.replicate 148 false }

/-- The hypotheses of PowerUpTimeline, clause by clause. -/
theorem witness_PowerUpTimeline :
  (dark id).chip.power.valid = false ∧ (lit id).chip.power.valid = true ∧ (lit id).chip.timebase.trimsRead = false ∧
  (∀ n, ((lit id).chip.funnel.sites.get n).requests = []) ∧
  (lit id).chip.power.core = false ∧ (lit id).chip.power.warning = false ∧ (lit id).chip.power.waiting = false ∧ (3 : BitVec 2).getLsbD 1 = true ∧
  (1 : BitVec 2).getLsbD 1 = false ∧ (litOff 0xF).chip.domains.deckOff = 0xF ∧
  (∀ d, ((lit id).chip.decks.get d).seq.state = .dormant ∧ ((lit id).chip.decks.get d).lock.state = .free) ∧
  (lit id).chip.domains.deckOff = 0 ∧
  (∀ low ∈ [true, false], (lit fun p => { p with v3a := true, resetLow := low }).chip.power.v3a = true ∧
    (lit fun p => { p with v3a := true, resetLow := low }).chip.power.resetLow = low) ∧
  (∀ hold ∈ [true, false], (upBoot fun k => { k with bootHold := hold }).chip.power.core = true ∧
    (upBoot fun k => { k with bootHold := hold }).chip.power.warning = false ∧ (upBoot fun k => { k with bootHold := hold }).chip.ladle.built = true ∧
    (upBoot fun k => { k with bootHold := hold }).chip.cook = { Cook.reset with bootHold := hold } ∧
    (upBoot fun k => { k with bootHold := hold }).chip.passQ.active.patchCfg.getLsbD 0 = false) ∧
  upNoDecks.chip.power.core = true ∧ upNoDecks.chip.power.warning = false ∧ upNoDecks.chip.power.decksOn = false ∧
  upNoDecks.chip.domains.deckOff = 0 ∧ upNoDecks.chip.log.held = [] ∧ upNoDecks.chip.domains.recovering = [] ∧ upNoDecks.chip.domains.on.length = 148 ∧
  upNoDecks.OnRef ∧ up.chip.power.core = true ∧ up.chip.power.decksOn = true ∧ up.chip.power.warning = false := by
  (repeat' apply And.intro) <;> decide +kernel

def upReset : State := { up with chip.power := { up.chip.power with core := false, waiting := true, inReset := true, resetLow := true } }
def upSealed : State := { up with chip.power := { up.chip.power with core := false, warning := true, sealed := true, armed := false } }

/-- The hypotheses of ResetsAndPowerFailure, clause by clause. -/
theorem witness_ResetsAndPowerFailure :
  up.chip.power.valid = true ∧ up.chip.power.core = true ∧ up.chip.power.warning = false ∧ up.chip.jtag.isoOn = false ∧ up.chip.power.armed = true ∧ up.Reached ∧
  (299 : BitVec 10).toNat < max 300 (min 450 up.chip.power.pfw.toNat) ∧ max 300 (min 450 up.chip.power.pfw.toNat) + 10 ≤ (460 : BitVec 10).toNat ∧
  up.chip.cookCan = true ∧ (up.chip.ctxs.get 0).state = .open ∧ (up.chip.decks.get 0).loops.running = true ∧ (up.chip.decks.get 0).seq.state ≠ .safe ∧
  (up.chip.decks.get 0).seq.state ≠ .faultStop ∧ (lit id).chip.power.valid = true ∧ (∀ q : EPort, ((lit id).chip.ehran.get q).sel = false) ∧
  upReset.chip.power.valid = true ∧ upReset.chip.power.waiting = true ∧ upReset.chip.power.inReset = true ∧ upReset.chip.power.warning = false ∧
  upReset.chip.power.core = false ∧ upSealed.chip.power.valid = true ∧ upSealed.chip.power.sealed = true ∧ upSealed.chip.power.resetLow = false := by
  (repeat' apply And.intro) <;> decide +kernel

def upHold (v : BitVec 4) : State := { upStreams with chip.emergency.hold := v }

/-- The hypotheses of StopsFromOutside, clause by clause. -/
theorem witness_StopsFromOutside :
  upStreams.chip.power.valid = true ∧ upStreams.OnRef ∧ upStreams.Reached ∧ (upStreams.chip.decks.get 0).loops.running = true ∧
  (upStreams.chip.decks.get 0).seq.state ≠ .safe ∧ (upStreams.chip.decks.get 0).seq.state ≠ .faultStop ∧ (upStreams.chip.decks.get 1).loops.running = false ∧
  upStreams.chip.deckHeld 0 = false ∧ (∀ d : Deck, (1 : BitVec 4).getLsbD d.val = true → (upHold 1).chip.deckHeld d = true) := by
  (repeat' apply And.intro) <;> decide +kernel

def wReadings (xs : List Nat) : List (BitVec 12) := xs.map (BitVec.ofNat 12)
def wCool : Vector (BitVec 12) 8 := #v[400, 410, 420, 420, 0xF00, 300, 300, 300]
def wHot : Vector (BitVec 12) 8 := #v[400, 410, 420, 880, 0xF00, 900, 900, 300]

/-- The hypotheses of TemperatureReadings, clause by clause. -/
theorem witness_TemperatureReadings :
  up.chip.power.valid = true ∧ up.Reached ∧ (∀ j, (wCool.get j).toInt ≤ 420) ∧ (∀ j < 2, (wCool.get j).toInt < 420) ∧
  (420 : Int) < 8 * up.chip.temp.warn.toNat - 40 ∧ up.chip.emergency.thermal = 0 ∧ (∀ j, (wHot.get j).toInt ≤ 900) ∧ (∀ j < 5, (wHot.get j).toInt < 900) ∧
  (880 : Int) ≤ 900 := by
  (repeat' apply And.intro) <;> decide +kernel

def wEnt (n : Nat) : LogEntry :=
  { kind := 2, code := 0x40, unit := 9, flags := 1, seq := BitVec.ofNat 32 n, time := 77, object := 5, ctx := 6, arg0 := 7, arg1 := 8, arg2 := 9 }
def upLog (slotSel : Bool) (store : List LogEntry) (slots : List (Nat × LogEntry)) : State :=
  { up with chip.log := { FaultLog.reset with sel := if slotSel then 0x309 else 0x009, store := store, slots := slots, held := [33] } }

/-- The hypotheses of LogWindowLatchesTheEntry, clause by clause. -/
theorem witness_LogWindowLatchesTheEntry :
  (upLog false [] []).Reached ∧ (upLog false [] []).chip.log.settle.sel.getLsbD 9 = false ∧
  (upLog false [wEnt 3, wEnt 4] []).chip.log.settle.store = wEnt 3 :: [wEnt 4] ∧
  (upLog true [] []).chip.log.settle.sel.getLsbD 9 = true ∧ (upLog true [wEnt 3] [(18, wEnt 5)]).Reached ∧
  (∀ x ∈ (upLog true [wEnt 3] [(18, wEnt 5)]).chip.log.settle.slots, x.1 ≠ 2 * ((upLog true [] []).chip.log.sel.extractLsb' 0 8).toNat + 1) ∧
  (upLog true [wEnt 3] [(18, wEnt 5), (19, wEnt 6)]).chip.log.settle.slots =
    [(18, wEnt 5)] ++ (2 * ((upLog true [] []).chip.log.sel.extractLsb' 0 8).toNat + 1, wEnt 6) :: [] := by
  (repeat' apply And.intro) <;> decide +kernel

/-- The hypotheses of LogAndPatchCommands, clause by clause. -/
theorem witness_LogAndPatchCommands :
  (upLog false [wEnt 3, wEnt 4] []).Reached ∧ (upLog false [wEnt 3, wEnt 4] []).chip.power.valid = true ∧
  (upLog false [wEnt 3, wEnt 4] []).chip.log.settle.store = wEnt 3 :: [wEnt 4] ∧ (upLog false [wEnt 3, wEnt 4] []).chip.log.settle.sel.getLsbD 9 = false ∧
  (∀ e ∈ (upLog false [wEnt 3, wEnt 4] []).chip.log.settle.store.head?, e.seq ≠ 9) ∧ (32 : Byte).toNat ∉ (upLog false [] []).chip.log.held ∧
  33 ∈ (upLog false [] []).chip.log.held ∧ (upLog false [] []).chip.power.core = true := by
  (repeat' apply And.intro) <;> decide +kernel

/-- The hypotheses of RegisterWrites, clause by clause. -/
theorem witness_RegisterWrites :
  up.Reached ∧ ¬ State.reset.Reached ∧ ((0x2600 : W16).toNat % 4 ≠ 0 ∨ 0x2600 ≤ (0x2600 : W16).toNat) ∧ ((0x0105 : W16).toNat % 4 ≠ 0) := by
  (repeat' apply And.intro) <;> decide +kernel

def upCook (f : Cook → Cook) : State := { up with chip.cook := f { Cook.reset with state := .running } }
def wExec : Executing := { op := .locate, tag := 9, rcrc := true, deck := some 0 }
def upJob : State := { up with chip.ctxs := up.chip.ctxs.set 0 { up.chip.ctxs.get 0 with executing := [wExec] } }

/-- The hypotheses of CookStates, clause by clause. -/
theorem witness_CookStates :
  (∀ st ∈ [CookState.held, .off, .running, .handler, .halted], (upCook fun k => { k with state := st }).Reached ∧ (upCook fun k => { k with state := st }).chip.power.valid = true ∧
    (upCook fun k => { k with state := st }).chip.cache.wb = [] ∧ (∀ q, ∀ l ∈ (upCook fun k => { k with state := st }).chip.cache.sets.get q, l.dirty = false) ∧
    (upCook fun k => { k with state := st }).chip.cook.state = st ∧ (upCook fun k => { k with state := st }).chip.cook.safe = false) ∧
  upJob.chip.power.valid = true ∧ upJob.chip.cook.state = .running ∧ (upJob.chip.ctxs.get 0).state = .open ∧ (upJob.chip.ctxs.get 0).executing = [wExec] ∧
  (waits up .flush []).chip.cookHasWork = true ∧ up.chip.cookHasWork = false ∧
  (upCook fun k => { k with state := .handler, safe := true }).chip.cook.safe = true ∧ up.chip.servoOn 0 = true := by
  (repeat' apply And.intro) <;> decide +kernel

def upFault (on : List Nat) (rec : List Nat) (held : List Nat) : State :=
  { up with chip.domains.on := (List.range 148).map (fun n => !on.contains n), chip.domains.recovering := rec, chip.log.held := held }
def upSite (n : Fin 18) (f : Site → Site) : State := { up with chip.funnel.sites := up.chip.funnel.sites.set n (f { up.chip.funnel.sites.get n with ofs := up.chip.passQ.active.offsets (siteKind n) }) }
/-- Channel 9 holds an F-MOVE grant whose unit is to be used. -/
def upTongs : State := { upSite 17 fun x => { x with granted := true, inUse := false, owner := 9 } with chip.merge := up.chip.merge.set 6 [wEntry 40] }
def upTongs0 : State := { upTongs with chip.merge := up.chip.merge }

/-- The hypotheses of UnitFaultsAndTongs, clause by clause. -/
theorem witness_UnitFaultsAndTongs :
  upTongs.chip.power.valid = true ∧ upTongs.chip.domOn 33 = true ∧ 33 ∉ upTongs.chip.log.held ∧ 33 ∉ upTongs.chip.domains.recovering ∧
  33 ∉ (upFault [33] [33] []).chip.log.held ∧ 33 ∈ (upFault [33] [33] []).chip.domains.recovering ∧
  (33 ∈ (upFault [33] [] [33]).chip.log.held) ∧ (upFault [40] [] []).chip.domOn 40 = false ∧ 40 ∉ (upFault [40] [] []).chip.domains.recovering ∧
  up.chip.domOn 51 = true ∧ (up.chip.decks.get 0).loops.running = true ∧ (up.chip.decks.get 0).seq.state ≠ .faultStop ∧ (up.chip.decks.get 0).seq.state ≠ .safe ∧
  up.chip.grantFor 17 9 = false ∧ upTongs0.chip.grantFor 17 9 = true ∧ upTongs0.chip.domOn 33 = true ∧
  upTongs0.chip.cook.safe = false ∧ upTongs0.chip.bankServes 100 = true ∧ upTongs0.chip.bankServes 200000 = true ∧ upTongs0.chip.merge.get 6 = [] ∧
  upTongs0.Uncached 100 ∧ upTongs0.Uncached 200000 ∧ (upTongs0.chip.decodeWord 100 []).result = .clean ∧
  (upTongs0.chip.decodeWord 200000 []).result = .clean ∧ upTongs0.Canonical := by
  (repeat' apply And.intro) <;> decide +kernel

def fPortCmd (i : Ctx) : Cmd := { op := .statusPeek, ctx := i, tag := 1, rcrc := false, port := 0, payload := [] }
def fPortCtx (i : Ctx) (ts : List W64) : Context := { Context.reset with state := .open, cmd := ts.map fun _ => fPortCmd i, cmdAt := ts }
def upFPort (a b : Ctx) (ta tb : List W64) (f : Site → Site) : State :=
  { upSite 16 f with chip.ctxs := ((Vector.replicate 64 Context.reset).set a (fPortCtx a ta)).set b (fPortCtx b tb) }
/-- F-BANK instance 0, FIXED and a window that has room. -/
def upSite0 (f : Site → Site) : State := upSite 0 f
def upMove : State := upSite 17 id
def upPorts : State := upFPort 5 40 [0x123400000] [0x123450000] id

/-- The hypotheses of FunnelRounds, clause by clause. -/
theorem witness_FunnelRounds :
  (∀ x ∈ [(upSite0 id).chip.funnel.sites.get 0, upMove.chip.funnel.sites.get 17, upPorts.chip.funnel.sites.get 16],
    x.frozen = false ∧ x.granted = false ∧ x.parked = false ∧ x.requests = []) ∧ up.chip.power.core = true ∧
  ((upSite0 id).chip.funnel.sites.get 0).cfg = (upSite0 id).chip.passQ.active.sites.get (siteKind 0) ∧
  ((upSite0 id).chip.funnel.sites.get 0).ofs = (upSite0 id).chip.passQ.active.offsets (siteKind 0) ∧ ([1, 3] : List Nat).Nodup ∧
  (∀ r ∈ ([1, 3] : List Nat), (upSite0 id).chip.mayRequest (siteKind 0) r = true ∧ (upSite0 id).chip.presenting (siteKind 0) r [0, 2] ≠ [] ∧
    r < ((upSite0 id).chip.funnel.sites.get 0).cfg.threshold.toNat) ∧
  ((upSite0 id).chip.funnel.sites.get 0).cfg.deadline = false ∧
  ((upSite0 id).chip.funnel.sites.get 0).used + 1 < ((upSite0 id).chip.funnel.sites.get 0).cfg.windowSize ∧
  (upMove.chip.funnel.sites.get 17).cfg = upMove.chip.passQ.active.sites.get (siteKind 17) ∧
  (upMove.chip.funnel.sites.get 17).ofs = upMove.chip.passQ.active.offsets (siteKind 17) ∧
  (upMove.chip.funnel.sites.get 17).cfg.deadline = true ∧ upMove.chip.mayRequest (siteKind 17) 4 = true ∧
  upMove.chip.mayRequest (siteKind 17) 9 = true ∧ upMove.chip.presenting (siteKind 17) 4 [0] ≠ [] ∧ upMove.chip.presenting (siteKind 17) 9 [0] ≠ [] ∧
  (upMove.chip.funnel.sites.get 17).ofs[4]? = (upMove.chip.funnel.sites.get 17).ofs[9]? ∧
  (upPorts.chip.funnel.sites.get 16).cfg = upPorts.chip.passQ.active.sites.get 1 ∧
  (upPorts.chip.funnel.sites.get 16).ofs = upPorts.chip.passQ.active.offsets 1 ∧
  (∀ i : Ctx, (upFPort 5 40 [] [] id).chip.ctxs.get i |>.cmd.isEmpty) ∧
  (∀ i : Ctx, upPorts.chip.mayRequest 1 i.val = true ↔ i = 5 ∨ i = 40) ∧
  (upPorts.chip.ctxs.get 5).cmdAt.head? = some 0x123400000 ∧ (upPorts.chip.ctxs.get 40).cmdAt.head? = some 0x123450000 ∧
  (upPorts.chip.funnel.sites.get 16).cfg.deadline = true ∧
  (raiseRequest (upPorts.chip.funnel.sites.get 16).ofs 40 [0] 0x123450000).lateness 0x48D159 <
    (raiseRequest (upPorts.chip.funnel.sites.get 16).ofs 5 [0] 0x123400000).lateness 0x48D159 := by
  (repeat' apply And.intro) <;> decide +kernel

def upBurst (units : Nat) : State := upSite 17 fun x => { x with granted := true, burst := 2, owner := 4, units := units }
def upParked : State := upSite0 fun x => { x with parked := true, owner := 1, turns := [(1, 3)] }
def upOwns (burst : Nat) (ts : List W64) : State := upFPort 5 40 ts [] fun x => { x with granted := true, burst := burst, owner := 5 }

/-- The hypotheses of FunnelUnitsAndRegisters, clause by clause. -/
theorem witness_FunnelUnitsAndRegisters :
  up.Reached ∧ up.chip.power.core = true ∧ (up.chip.funnel.sites.get 0).granted = false ∧ (up.chip.funnel.sites.get 0).parked = false ∧
  (∀ u ∈ [0, 1], ((upBurst u).chip.funnel.sites.get 17).granted = true) ∧ ((upBurst 0).chip.funnel.sites.get 17).units + 1 < 2 ∧
  2 ≤ ((upBurst 1).chip.funnel.sites.get 17).units + 1 ∧
  ((upBurst 0).chip.mayRequest (siteKind 17) 4 = true ∧ (upBurst 0).chip.presenting (siteKind 17) 4 [0] ≠ []) ∧
  ¬ ((upBurst 0).chip.mayRequest (siteKind 17) 4 = true ∧ (upBurst 0).chip.presenting (siteKind 17) 4 [] ≠ []) ∧
  (upParked.chip.funnel.sites.get 0).parked = true ∧ (upParked.chip.funnel.sites.get 0).frozen = false ∧
  (upParked.chip.funnel.sites.get 0).granted = false ∧ (upParked.chip.funnel.sites.get 0).requests = [] ∧
  1 < (upParked.chip.funnel.sites.get 0).cfg.threshold.toNat ∧
  (upParked.chip.funnel.sites.get 0).used + 1 < (upParked.chip.funnel.sites.get 0).cfg.windowSize ∧
  upParked.chip.mayRequest (siteKind 0) 1 = true ∧ upParked.chip.presenting (siteKind 0) 1 [2] ≠ [] ∧
  ((((upParked.chip.funnel.sites.get 0).turns.find? (fun y => y.1 == 1)).map (fun y => y.2)).getD 4 < bankBlocksOf 1) ∧
  (∃ b ∈ [0, 2], b < bankBlocksOf 1) ∧
  (upOwns 2 [7, 9]).chip.mayRequest 1 5 = true ∧ ((upOwns 2 [7, 9]).chip.funnel.sites.get 16).units + 1 < 2 ∧
  (∀ j : Ctx, j ≠ 5 → (upOwns 1 [7, 9]).chip.mayRequest 1 j.val = false) ∧ ((upOwns 1 [7, 9]).chip.ctxs.get 5).cmdAt.head? = some 7 ∧
  1 ≤ ((upOwns 1 [7, 9]).chip.funnel.sites.get 16).units + 1 ∧ (upOwns 1 []).chip.mayRequest 1 5 = false := by
  (repeat' apply And.intro) <;> decide +kernel

def upStr (f : Strainer → Strainer) : State := upDeck fun k => { k with strainer := f k.strainer }

/-- The hypotheses of ReadChannelRegisters, clause by clause. -/
theorem witness_ReadChannelRegisters :
  (∀ b ∈ [true, false], ((upStr fun x => { x with aligned := b }).chip.decks.get 0).strainer.aligned = b) ∧
  (-2048 ≤ (0xF800 : W16).toInt ∧ (0xF800 : W16).toInt ≤ 2048) ∧ 2048 < (0x0801 : W16).toInt ∧ (0xF7FF : W16).toInt < -2048 ∧
  up.Reached ∧ up.chip.domOn (50 + 6 * (0 : Deck).val) = true ∧ (noRoller up).chip.domOn (50 + 6 * (0 : Deck).val) = false := by
  (repeat' apply And.intro) <;> decide +kernel

/-- A LOCATE for object 7 that moves. -/
def wLocate : DeckOp := runningOp .locate wHdr ([0, 0, 0, 0, 0, 0, 0, 0] ++ leBytes 8 7) 0 true
def upReads (q : ReadOrder) (f : Strainer → Strainer) : State :=
  upDeck fun k => { k with
    seq := { k.seq with state := .streaming, op := some wLocate }
    tape := { k.tape with eodObj := Vector.replicate 4 20, eodDs := Vector.replicate 4 10, object := 5, dataset := 2 }
    readQ := [q], strainer := f k.strainer }
/-- Pass 3 has been asked for and the head stands at its offset. -/
def upRereads (n : Nat) : State :=
  upDeck fun k => { k with
    seq := { k.seq with state := .streaming, op := some wLocate, offset := n }
    strainer := { k.strainer with reading := true, pass := 2 } }

/-- The hypotheses of ReadPasses, clause by clause. -/
theorem witness_ReadPasses :
  (∀ s ∈ [upReads (.read 2) id, upReads .scan id, upReads (.read 2) fun x => { x with reading := true, dataset := 2 }],
    let k := s.chip.decks.get 0
    k.seq.op = some wLocate ∧ k.tape.label = some wLabel ∧ k.readQ.length = 1 ∧ k.rereadDue = false ∧ k.seq.state = .streaming ∧
      k.strainer.stalled = false ∧ (k.strainer.reading = true → k.strainer.dataset = (2 : W64).setWidth 32)) ∧
  wLocate.moving = true ∧ wLocate.op = .locate ∧ wLocate.silent = false ∧ up.chip.domOn (51 + 6 * (0 : Deck).val) = true ∧
  (upRereads 3).Hears 0 0 ∧ ((upRereads 3).chip.decks.get 0).seq.op = some wLocate ∧ ((upRereads 3).chip.decks.get 0).tape.label = some wLabel ∧
  ((upRereads 3).chip.decks.get 0).strainer.reading = true ∧ ((upRereads 3).chip.decks.get 0).strainer.pass.toNat < 6 ∧
  ((upRereads 3).chip.decks.get 0).seq.offset = ((upRereads 3).chip.decks.get 0).strainer.pass.toNat + 1 ∧
  ((upRereads 2).chip.decks.get 0).seq.offset ≠ ((upRereads 2).chip.decks.get 0).strainer.pass.toNat + 1 := by
  (repeat' apply And.intro) <;> decide +kernel

def wRec0 : Rec := { object := 4, length := 3, parts := [3], raw := false, durable := true, tag := 3, rcrc := false, poisoned := false, silent := false, chain := [7] }
def upStores : State :=
  { up with
    chip.ladle := wLadle
    chip.ctxs := up.chip.ctxs.set 0 { up.chip.ctxs.get 0 with wdata := (Vector.replicate 4 []).set 0 [wRec0, wRec0] }
    chip.decks := up.chip.decks.set 0 { wDeck with roller.buffers := List.replicate 3 (DsBuf.fresh wLabelDs [] 0) } }
/-- The same with the domain of Whisk compress off. -/
def upStoresOff : State := { upStores with chip.domains.on := upStores.chip.domains.on.set 48 false }
/-- A raw record of one byte in stored form: the byte and its CRC-32. -/
def wStoredRaw : List Byte := [7] ++ leBytes 4 (crc32 [7]).toNat
def wExtract : Extract := { object := 5, raw := true, recLen := 1, first := true, last := true, marked := false, ds := 2, bytes := wStoredRaw }
def upExpands : State :=
  upDeck fun k => { k with
    seq := { k.seq with state := .streaming, op := some wRead0 }
    tape := { k.tape with eodObj := Vector.replicate 4 20, eodDs := Vector.replicate 4 10, object := 5, dataset := 2 }
    toExpand := [wExtract] }

/-- One record alone, the entry of which stands in words 962 and 963. -/
def upStoresOne : State := { upStores with
  chip.ladle := { wLadle with chains := { cells := [60], owner := 64, holders := [64] } :: wLadle.chains }
  chip.ctxs := up.chip.ctxs.set 0 { up.chip.ctxs.get 0 with wdata := (Vector.replicate 4 []).set 0 [wRec0], storage := [(3, 15360)], ticket := none }
  chip.decks := upStores.chip.decks.set 0 { upStores.chip.decks.get 0 with tape.object := wRec0.object + 1 } }

/-- The hypotheses of WhiskEngines, clause by clause. -/
theorem witness_WhiskEngines :
  (upStoresOne.chip.decks.get 0).lock.owner = some 0 ∧ (upStoresOne.chip.ctxs.get 0).wdata.get 0 = [wRec0] ∧ upStoresOne.chip.domOn 48 = true ∧
  upStoresOne.chip.cook.safe = false ∧ upStoresOne.chip.cellsServed (wRec0.chain ++ upStoresOne.chip.outputCells wRec0) = true ∧
  upStoresOne.chip.placeWords 0 3 2 = [962, 963] ∧ ([962, 963] : List (BitVec 18)).all upStoresOne.chip.bankServes = true ∧
  upStoresOne.chip.ladle.sharesUsed < 1008 ∧ (upStoresOne.chip.readEntry 4 wHurt [962, 963]).2 = true ∧ upStoresOne.chip.held = [] ∧
  (upStoresOne.chip.ctxs.get 0).ticket = none ∧ (upStoresOne.chip.decks.get 0).tape.object.toNat = wRec0.object.toNat + 1 ∧
  ((upStoresOne.chip.decks.get 0).staged = [] ∧ (upStoresOne.chip.decks.get 0).orders = [] ∧ (upStoresOne.chip.decks.get 0).seq.op = none ∧
    (upStoresOne.chip.decks.get 0).seq.waiters = [] ∧ (upStoresOne.chip.decks.get 0).roller.open_ = none ∧
    (upStoresOne.chip.decks.get 0).roller.buffers.length = 3) ∧
  (up.chip.decks.get 1).lock.state = .free ∧ (up.chip.decks.get 0).lock.owner = some 0 ∧ (up.chip.ctxs.get 0).wdata.get 0 = [] ∧
  (upStores.chip.decks.get 0).lock.owner = some 0 ∧ (upStores.chip.ctxs.get 0).wdata.get 0 = wRec0 :: [wRec0] ∧ upStores.chip.domOn 48 = true ∧
  (upStoresOff.chip.decks.get 0).lock.owner = some 0 ∧ (upStoresOff.chip.ctxs.get 0).wdata.get 0 = wRec0 :: [wRec0] ∧ upStoresOff.chip.domOn 48 = false ∧
  upStores.chip.cook.safe = false ∧ upStores.chip.cellsServed (wRec0.chain ++ upStores.chip.outputCells wRec0) = true ∧ upStores.chip.ladle.sharesUsed < 1008 ∧
  (upStores.chip.decks.get 0).staged = [] ∧ (upStores.chip.decks.get 0).orders = [] ∧ (upStores.chip.decks.get 0).seq.op = none ∧
  (upStores.chip.decks.get 0).seq.waiters = [] ∧ (upStores.chip.decks.get 0).roller.open_ = none ∧ (upStores.chip.decks.get 0).roller.buffers.length = 3 ∧
  (up.chip.decks.get 0).seq.op = none ∧
  (upExpands.chip.decks.get 0).toExpand = [wExtract] ∧ (upExpands.chip.decks.get 0).tape.current = none ∧ (upExpands.chip.decks.get 0).tape.mid = false ∧
  (upExpands.chip.decks.get 0).strainer.stalled = false ∧ wExtract.first = true ∧ wExtract.last = true ∧ wExtract.bytes.length = wExtract.recLen + 4 ∧
  (upExpands.chip.decks.get 0).seq.op = some wRead0 ∧ wRead0.op = .readRecord ∧ wRead0.moving = true ∧ wRead0.delivered = 0 ∧ wRead0.silent = false ∧
  wRead0.rereads = 0 ∧ wRead0.c3 = 0 ∧ wRead0.c2Data = 0 ∧ leAt wRead0.payload 4 4 = 0 ∧ upExpands.chip.held = [] ∧ upExpands.chip.domOn 49 = true ∧
  upExpands.chip.cook.safe = false ∧ wExtract.marked = false ∧
  whiskExpand true false true (inWords []) 1 wStoredRaw = ⟨[7], 1, .good, none⟩ ∧
  ((upExpands.chip.ctxs.get 0).rdata.get 0).length < (upExpands.chip.ctxs.get 0).depth (Fin.ofNat 11 7) := by
  (repeat' apply And.intro) <;> decide +kernel

def upMatch (f : Matcher → Matcher) : State := upDeck fun k => { k with matcher := f { k.matcher with lo := 500, hi := 9000, target := 5000 } }
def wBuf (started : Bool) : DsBuf := { DsBuf.fresh wLabelDs [] 0 with started := started }
def upBrake (m : Option Nat) : State := upDeck fun k => { k with
  matcher := { k.matcher with lo := 500, hi := 9000, target := 9000, runOut := m }, roller := { k.roller with buffers := [wBuf true], gate := true }, pos := 1000000000 }
/-- Deck 0 has written its last closed dataset. -/
def upUnder (tail : Option DsBuf) : State := upDeck fun k => { k with roller := { k.roller with gate := true, tail := tail }, seq.state := .streaming }

/-- The hypotheses of SpeedMatcherTargets, clause by clause. -/
theorem witness_SpeedMatcherTargets :
  (up.chip.decks.get 0).matcher.fills = [] ∧ up.chip.domOn 50 = true ∧
  ((upMatch fun m => { m with fills := [700, 300] }).chip.decks.get 0).matcher.fills = 700 :: [300] ∧
  ((upMatch fun m => { m with fills := [700, 300] }).chip.decks.get 0).profile = some wProfile ∧
  ((upMatch fun m => { m with fills := [700, 300] }).chip.decks.get 0).matcher.lo ≤ ((upMatch fun m => { m with fills := [700, 300] }).chip.decks.get 0).matcher.hi ∧
  (upMatch fun m => { m with fills := [700, 300] }).Hears 0 0 ∧ ((upMatch fun m => { m with fills := [700, 300] }).chip.decks.get 0).matcher.lastEvent = none ∧
  ((upBrake none).chip.decks.get 0).profile = some wProfile ∧ ((upBrake none).chip.decks.get 0).tape.label = some wLabel ∧
  ((upBrake none).chip.decks.get 0).roller.buffers = [wBuf true] ∧ (wBuf true).started = true ∧ runOutSpeed wProfile < 9000 * wProfile.speedMax / 10000 ∧
  ((upBrake none).chip.decks.get 0).toPostamble (wBuf true) wLabel (upBrake none).chip.now * (wProfile.linePitch * 2 * wProfile.accel : Nat) ≤
    (((9000 * wProfile.speedMax / 10000) * (9000 * wProfile.speedMax / 10000) - runOutSpeed wProfile * runOutSpeed wProfile) * 4096000000 : Nat) ∧
  ((upBrake (some 4)).chip.decks.get 0).matcher.runOut.isSome = true ∧
  (∀ t ∈ [none, some (wBuf true)], let k := (upUnder t).chip.decks.get 0
    k.profile = some wProfile ∧ k.roller.gate = true ∧ k.roller.buffers = [] ∧ k.roller.stopAt = none ∧ k.matcher.underrun = false ∧
      k.seq.state = .streaming ∧ k.seq.op = none ∧ k.roller.tail = t ∧ k.tape.label = some wLabel) ∧
  (up.chip.decks.get 0).roller.gate = false := by
  (repeat' apply And.intro) <;> decide +kernel

def upStall (o : Option Dataset) : State := upDeck fun k => { k with matcher.stallOn := true, roller := { k.roller with open_ := o, openBlocks := [30] } }
def upRest (started : Bool) (ev : Option Nat) : State := upDeck fun k => { k with
  matcher := { k.matcher with lo := 500, hi := 9000, target := 100, lastEvent := ev, stored := 4000, restAt := some 5, underrun := true }
  roller := { k.roller with buffers := [wBuf started] } }
def upBufs (e : List Extract) : State := upDeck fun k => { k with seq := { k.seq with state := .streaming, op := some wRead0, capSpeed := 500000 }, toExpand := e }

/-- The hypotheses of StallsAndRestarts, clause by clause. -/
theorem witness_StallsAndRestarts :
  (up.chip.decks.get 0).matcher.stallOn = false ∧ up.chip.domOn 50 = true ∧ (upStall (some wLabelDs)).Hears 0 0 ∧
  ((upStall (some wLabelDs)).chip.decks.get 0).matcher.stallOn = true ∧ ((upStall (some wLabelDs)).chip.decks.get 0).roller.open_ = some wLabelDs ∧
  wLabelDs.entries ≠ [] ∧ ((upStall (some wLabelDs)).chip.decks.get 0).staged = [] ∧ ((upStall (some wLabelDs)).chip.decks.get 0).orders = [] ∧
  ((upStall (some wLabelDs)).chip.decks.get 0).matcher.runOut = none ∧
  (∀ b ∈ [true, false], ((upRest b (some 500)).chip.decks.get 0).profile = some wProfile ∧
    ((upRest b (some 500)).chip.decks.get 0).tape.label = some wLabel ∧ ((upRest b (some 500)).chip.decks.get 0).roller.buffers = wBuf b :: [] ∧ (wBuf b).started = b) ∧
  ((upRest false (some 500)).chip.decks.get 0).roller.open_ = none ∧ ((upRest false (some 500)).chip.decks.get 0).seq.state = .ready ∧
  ((upRest false (some 500)).chip.decks.get 0).roller.eodFailed = false ∧ .start ∉ ((upRest false (some 500)).chip.decks.get 0).workQ ∧
  restartLaw 500 9000 wProfile wLabel.tracks wLabel.cellLength 4000 (up.chip.now - 5).toNat = 500 ∧
  ((upRest false (some 500)).chip.decks.get 0).matcher.policy.fixed = false ∧
  (∀ e ∈ [[], [wExtract]], let k := (upBufs e).chip.decks.get 0
    k.seq.op = some wRead0 ∧ wRead0.moving = true ∧ k.seq.state = .streaming ∧ k.toExpand = e ∧ k.strainer.stalled = false) := by
  (repeat' apply And.intro) <;> decide +kernel

/-- Deck 0 streaming with interpolation, one dataset waiting. -/
def upOut (started : Bool) (f : Roller → Roller) : State := upDeck fun k => { k with
  seq := { k.seq with state := .streaming }
  io := { k.io with encs := k.io.encs.set 0 { Encoder.reset with edges := [500, 400, 300, 200, 100], fwd := true } }
  roller := f { k.roller with buffers := [wBuf started] } }
def wLabelBuf : DsBuf := DsBuf.fresh (labelDataset wLabel 0) [] 0
/-- The same with a write under way at boundary `m`. -/
def upCells (m : Nat) (stop : Option Nat) : State := upOut true fun r => { r with gate := true, boundary := m, stopAt := stop }
/-- A write whose position is not interpolated any more. -/
def upBlind : State := { upCells 700 none with chip.decks := (upCells 700 none).chip.decks.set 0 { (upCells 700 none).chip.decks.get 0 with io := wDeck.io } }
/-- A dataset waits behind a splice that the position has passed. -/
def upSplice (e : Int) : State := upOut false fun r => { r with eraseFrom := some e }

/-- The hypotheses of DatasetsStartAndCellsGoOut, clause by clause. -/
theorem witness_DatasetsStartAndCellsGoOut :
  (∀ s ∈ [upOut false id, upOut false fun r => { r with buffers := [wLabelBuf] }],
    let k := s.chip.decks.get 0
    k.profile = some wProfile ∧ k.tape.label = some wLabel ∧ k.seq.state = .streaming ∧ k.roller.eodFailed = false ∧ k.roller.stopAt = none ∧
      k.matcher.next = none ∧ s.chip.stamp 0 = s.chip) ∧
  up.chip.domOn 50 = true ∧ ((upOut false id).chip.decks.get 0).roller.buffers = wBuf false :: [] ∧ (wBuf false).ds.kind = .data ∧
  (wBuf false).ds.partition = ((upOut false id).chip.decks.get 0).tape.partition ∧
  ((upOut false id).chip.decks.get 0).onCourse (((upOut false id).chip.decks.get 0).wrapFor wLabelDs) = true ∧
  wLabelDs.fits wProfile wLabel (((upOut false id).chip.decks.get 0).wrapFor wLabelDs) (((upOut false id).chip.decks.get 0).startOf wProfile wLabel (wBuf false) up.chip.now) = true ∧
  ((upOut false id).chip.decks.get 0).pastEw wProfile wLabel = false ∧ wLabelBuf.started = false ∧ wLabelBuf.ds.kind = .label ∧
  ((upOut false id).chip.decks.get 0).onCourse (((upOut false id).chip.decks.get 0).wrapFor wLabelBuf.ds) = true ∧
  ((upOut false id).chip.decks.get 0).roller.gate = false ∧ ((upOut false id).chip.decks.get 0).gateDue up.chip.now = false ∧
  ((upSplice (-10)).chip.decks.get 0).gateDue up.chip.now = true ∧
  (upBlind.chip.decks.get 0).roller.gate = true ∧ (upBlind.chip.decks.get 0).interpolated = false ∧ (upBlind.chip.decks.get 0).roller.stopAt = none ∧
  (∀ m ∈ [5, 700], let k := (upCells m none).chip.decks.get 0
    k.roller.gate = true ∧ k.interpolated = true ∧ k.roller.buffers = wBuf true :: [] ∧ k.roller.tail = none ∧ k.roller.boundary = m ∧ k.roller.stopAt = none) ∧
  (wBuf true).settled.length < 800 ∧ ((wBuf true).spoils 700).length = 2 ∧ (∀ x ∈ (wBuf true).spoils 700, x ∈ (wBuf true).waiting) ∧
  ((upCells 700 (some 2592)).chip.decks.get 0).roller.boundary + 1 < 2592 ∧ 2592 ≤ ((upCells 2591 (some 2592)).chip.decks.get 0).roller.boundary + 1 := by
  (repeat' apply And.intro) <;> decide +kernel

def wWaiting : List ((Nat × Nat) × Nat) := [((0, 1), 0), ((2, 3), 0), ((4, 5), 0)]
def upJudge (f : DsBuf → DsBuf) (al : Bool) : State := upDeck fun k => { k with
  roller := { k.roller with buffers := [f { wBuf true with waiting := wWaiting }] }, strainer := { k.strainer with aligned := al } }
/-- The track and the body slot of piece (2, 3) on two tracks. -/
def wPlace : Nat × Nat := piecePlace 2 2 3
/-- The frames of a lane that carries piece (2, 3) of the dataset, every cell with full reliability. -/
def wFrames : List W16 :=
  (List.replicate 16 false ++ pieceCells (pieceHeader 2 2 0 3 wPlace.1) (pieceBytes wLabelDs.payload 2 3) ++ List.replicate 16 false).map fun c =>
    BitVec.ofNat 16 ((if c then 15 else 14) * 16 ^ (wPlace.1 % 4))

/-- The hypotheses of PiecesAreJudgedAndRewritten, clause by clause. -/
theorem witness_PiecesAreJudgedAndRewritten :
  (up.chip.decks.get 0).roller.buffers = [] ∧ (up.chip.decks.get 0).roller.tail = none ∧
  ((upJudge id true).chip.decks.get 0).roller.buffers = { wBuf true with waiting := wWaiting } :: [] ∧ ((upJudge id true).chip.decks.get 0).roller.tail = none ∧
  (upJudge id true).chip.domOn 52 = true ∧ ({ wBuf true with waiting := wWaiting } : DsBuf).copyPlace (9, 9) 0 = none ∧
  ({ wBuf true with waiting := wWaiting } : DsBuf).copyPlace (2, 3) 0 = some (wPlace.1, some wPlace.2) ∧
  (2, 3) ∉ (wBuf true).settled ∧ (wBuf true).settled.length < 799 ∧ (2, 3) ∉ (wBuf true).everBad ∧ (∀ y ∈ wWaiting.filter (· ≠ ((2, 3), 0)), y.1 ≠ (2, 3)) ∧
  (wBuf true).ds.kind = .data ∧ ((upJudge id true).chip.decks.get 0).roller.stopAt = none ∧ ((upJudge id true).chip.decks.get 0).seq.op = none ∧
  ([(0, 1), (2, 3)] : List (Nat × Nat)) = (eachOnce ((wBuf true).bad ++ (wWaiting.map (·.1)).filter (· ∉ (wBuf true).settled))).take (wBuf true).ds.tracks ∧
  (∀ y ∈ [(0, 1), (2, 3)], (wBuf true).copies.flatten.count y < 8) ∧ (wBuf true).trailer + 2 ≤ 64 ∧
  (upJudge (fun b => { b with trailer := 63 }) true).Hears 0 0 ∧ ((upJudge (fun b => { b with trailer := 63 }) true).chip.decks.get 0).tape.label = some wLabel ∧
  (wBuf true).skips < 3 ∧ 64 < 63 + ([(0, 1), (2, 3)] : List (Nat × Nat)).length := by
  (repeat' apply And.intro) <;> decide +kernel

/-- Deck 0 with other loops. -/
def upLoops (f : Loops → Loops) : State := upDeck fun k => { k with loops := f k.loops }
/-- Deck 0 in THREAD, its loops just started. -/
def upAnchor : State := upDeck fun k => { k with io.anchor := true, seq.state := .thread, io.home.offset := 9 }

/-- The hypotheses of SimmerSamplesAndPwm, clause by clause. -/
theorem witness_SimmerSamplesAndPwm :
  ((upLoops fun l => { l with running := false }).chip.decks.get 0).loops.running = false ∧ up.chip.power.viod.get 0 = true ∧
  (up.chip.decks.get 0).loops.running = true ∧ invalidCount (up.chip.timebase.time) 0 = 0 ∧ (up.chip.decks.get 0).io.anchor = false ∧
  (upAnchor.chip.decks.get 0).loops.running = true ∧ (upAnchor.chip.decks.get 0).io.anchor = true ∧ (upAnchor.chip.decks.get 0).seq.state = .thread ∧
  (∀ j, ((upAnchor.chip.decks.get 0).loops.slots.get j).state ≠ .tuning ∧ ((upAnchor.chip.decks.get 0).loops.slots.get j).feSamples = 0 ∧ ((upAnchor.chip.decks.get 0).loops.slots.get j).feFault = false) ∧
  (up.chip.decks.get 0).signedSource 0 0 up.chip.now ((up.chip.decks.get 0).loops.slots.get 11).effSrc ≠ none ∧
  (∀ j, ((up.chip.decks.get 0).loops.slots.get j).state ≠ .tuning ∧ ((up.chip.decks.get 0).loops.slots.get j).feSamples = 0 ∧ ((up.chip.decks.get 0).loops.slots.get j).feFault = false) ∧
  (∀ a, ((up.chip.decks.get 0).loops.groups.get a).safe = false) ∧ ((up.chip.decks.get 0).loops.slots.get 2).enable = true ∧
  ((up.chip.decks.get 0).loops.slots.get 11).enable = false ∧ ((up.chip.decks.get 0).loops.slots.get 2).state = .closed ∧
  (up.chip.decks.get 0).signedSource 0 0 up.chip.now ((up.chip.decks.get 0).loops.slots.get 2).effSrc ≠ none ∧ up.Hears 0 0 ∧
  (∀ n ∈ ([5, 32768] : List Nat), ((upTune n).chip.decks.get 0).loops.slots[3].state = .tuning ∧ ((upTune n).chip.decks.get 0).seq.op = some wTune ∧
    wTune.silent = false ∧ ((upTune n).chip.ctxs.get 0).state = .open ∧ ((upTune n).chip.decks.get 0).loops.slots[3].tune.cycles = 8 ∧
    ((upTune n).chip.decks.get 0).loops.slots[3].tune.samples = n) ∧
  (up.chip.decks.get 0).profile = some wProfile := by
  (repeat' apply And.intro) <;> decide +kernel

/-- Deck 0 in a state, with this operation and motion I/O. -/
def upIn (st : DeckState) (o : Option DeckOp) (f : MotionIo → MotionIo) : State := upDeck fun k => { k with seq := { k.seq with state := st, op := o }, io := f k.io }
def wEdge (n : Nat) (act raw : Bool) (io : MotionIo) : MotionIo := io.setLimit true { raw := raw, active := act, window := some (n, 77) }

/-- The hypotheses of FaultsStopTheDeck, clause by clause. -/
theorem witness_FaultsStopTheDeck :
  (∀ st ∈ [DeckState.streaming, .calibrate, .tensionUp, .thread, .homing], (upIn st (some wRead0) id).chip.power.valid = true ∧
    ((upIn st (some wRead0) id).chip.decks.get 0).loops.running = true ∧ ((upIn st (some wRead0) id).chip.decks.get 0).seq.state = st ∧
    ((upIn st (some wRead0) id).chip.decks.get 0).seq.waiters = [] ∧ ((upIn st (some wRead0) id).chip.decks.get 0).seq.op = some wRead0 ∧ wRead0.silent = false ∧
    ((upIn st (some wRead0) id).chip.ctxs.get 0).state = .open) ∧
  up.chip.servoOn 0 = true ∧ up.chip.power.viod.get 0 = true ∧ ((up.chip.decks.get 0).io.axes.get 1).trip = false ∧
  16 ≤ ((upIn .streaming none fun io => { io with invalid := 16 }).chip.decks.get 0).io.invalid ∧
  16 < (((upIn .streaming none fun io => { io with encs := io.encs.set 1 { Encoder.reset with illegal := List.replicate 17 9 } }).chip.decks.get 0).io.encs.get 1).illegal.length ∧
  (((upIn .streaming none (wEdge 5 false true)).chip.decks.get 0).io.limit true).window = some (5, 77) ∧
  (((upIn .streaming none (wEdge 4 false true)).chip.decks.get 0).io.limit true).active = false ∧
  (((upIn .streaming none (wEdge 4 false true)).chip.decks.get 0).io.limit true).raw = true ∧
  ((upIn .homing (some wRead0) fun io => { io with home.step := 1 }).chip.decks.get 0).io.home.step = 1 ∧ travelLimit wProfile < (Int.ofNat 4000000000 - 0).natAbs ∧
  ({ up with chip.domains.on := List.replicate 148 false } : State).chip.servoOn 0 = false ∧ (up.chip.decks.get 0).io.invalid < 16 ∧
  ((up.chip.decks.get 0).io.encs.get 1).illegal.length ≤ 16 ∧ (up.chip.decks.get 0).seq.state ∈ [.dormant, .empty, .present, .ready, .streaming] ∧
  (∀ b ∈ [true, false], ((upStop b).chip.decks.get 0).seq.state = .faultStop ∧ ((upStop b).chip.decks.get 0).seq.rest = b ∧ ((upStop b).chip.decks.get 0).seq.cartOut = false ∧
    ((upStop b).chip.decks.get 0).seq.stopWaiters = [] ∧ ((upStop b).chip.decks.get 0).roller.stopAt = none) := by
  (repeat' apply And.intro) <;> decide +kernel

/-- Every domain off. -/
def dead : State := { up with chip.domains.on := List.replicate 148 false }
def upPast : State := upIn .present none fun io => { io with encs := Vector.replicate 3 { Encoder.reset with count := 40, indexAt := some 7, edges := [900, 800], lastA := 900, lastOnB := true } }
/-- Deck 0's I/O supply bad. -/
def upDark : State := { upPast with chip.power.viod := Vector.replicate 4 false }

/-- The hypotheses of InputsOfADeck, clause by clause. -/
theorem witness_InputsOfADeck :
  dead.chip.servoOn 0 = false ∧ upDark.chip.power.viod.get 0 = false ∧ upPast.Reached ∧ upPast.chip.power.viod.get 0 = true ∧
  upPast.chip.servoOn 0 = true ∧ measuring (upPast.chip.decks.get 0).seq.state = false ∧
  (let e := (upPast.chip.decks.get 0).io.encs.get 0; ((true ≠ e.a) ≠ (false ≠ e.b)) ∧ 400 ≤ (upPast.chip.now - e.lastA).toNat ∧ true ≠ e.a ∧ true ≠ e.b) ∧
  ((upIn .empty none (wEdge 3 false true)).chip.decks.get 0).io.posHi.window = some (3, 77) ∧ ((upPast.chip.decks.get 0).io.limit true).window = none ∧
  ((upDeck fun k => { k with loops.running := false }).chip.decks.get 0).loops.running = false ∧ true ≠ (upPast.chip.decks.get 0).io.tapemk ∧
  (upPast.chip.decks.get 0).seq.state ≠ .scan ∧ ((upIn .calibrate none id).chip.decks.get 0).seq.state = .calibrate ∧
  false ≠ (((upIn .calibrate none fun io => { io with tapemk := true, encs := io.encs.map fun e => { e with fwd := true } }).chip.decks.get 0).io.encs.get 0).fwd ∧
  (upEmpty.chip.decks.get 0).io.cart = false ∧ (upEmpty.chip.decks.get 0).loops.running = false ∧ (upEmpty.chip.decks.get 0).seq.state = .empty ∧
  upEmpty.chip.domains.holdPend = 0 ∧ (upPast.chip.decks.get 0).seq.state ≠ .dormant ∧
  (upDormant.chip.decks.get 0).seq.state = .dormant ∧ upDormant.chip.power.control = true ∧ upDormant.chip.power.viod.get 0 = true ∧
  upDormant.chip.timebase.refState = .locked ∧ (upDormant.chip.timebase.decks.get 0).valid = true ∧ upDormant.chip.domains.holdPend = 0 ∧
  (((upIn .ready none (wEdge 3 true false)).chip.decks.get 0).io.limit true).active = true ∧ (((upIn .ready none (wEdge 3 true false)).chip.decks.get 0).io.limit true).raw = false ∧
  ((upIn .ready none (wEdge 3 true true)).chip.decks.get 0).io.posHold = none ∧ ((upIn .ready none (wEdge 3 true true)).chip.decks.get 0).seq.state ≠ .homing := by
  (repeat' apply And.intro) <;> decide +kernel

def upLoad (st : DeckState) (op : Op) (f : DeckSeq → DeckSeq) : State :=
  upDeck fun k => { k with seq := f { k.seq with state := st, op := some { wRead0 with op := op, moving := false } }, tape := TapeInfo.reset }
/-- What a scan finds on a tape without a signal. -/
def wBlank : ScanFound := { labelA := none, labelB := none, signal := false, parts := [] }
/-- A CALIBRATE that has all it needs. -/
def upCaled : State := upLoad .calibrate .load fun q => { q with zeroed := true, rhoSup := some 5, rhoTku := some 6 }
/-- Homing for a LOAD. -/
def upLoadHome : State := upDeck fun k => { k with
  seq := { k.seq with state := .homing, op := some { wRead0 with op := .load, moving := false } }, io.home := { Homing.reset with step := 7 } }

/-- The hypotheses of LoadAndHomeSteps, clause by clause. -/
theorem witness_LoadAndHomeSteps :
  up.Hears 0 0 ∧ up.chip.domains.holdPend.getLsbD 0 = false ∧ (up.chip.decks.get 0).profile = some wProfile ∧ (up.chip.decks.get 0).seq.op = none ∧
  (∀ st ∈ [DeckState.thread, .tensionUp, .calibrate, .scan], let s := upLoad st .load id
    let k := s.chip.decks.get 0
    s.Hears 0 0 ∧ k.profile = some wProfile ∧ k.seq.op = some { wRead0 with op := .load, moving := false } ∧ k.seq.state = st ∧
      k.seq.rhoSup = none ∧ k.seq.zeroed = false ∧ k.seq.unloadAfter = false ∧ k.io.posLo.active = false) ∧
  ((upDeck fun k => { k with io.posLo := { Limit.reset with active := true } }).chip.decks.get 0).io.posLo.active = true ∧
  (upCaled.chip.decks.get 0).seq.rhoSup.isSome ∧ (upCaled.chip.decks.get 0).seq.zeroed = true ∧
  (upCaled.chip.decks.get 0).seq.rhoTku.isSome ∧ ((upLoad .scan .load id).chip.ctxs.get 0).state = .open ∧
  (∀ n ∈ ([1, 4, 7] : List Nat), let s := upHome n .present
    let k := s.chip.decks.get 0
    s.Hears 0 0 ∧ k.profile = some wProfile ∧ k.seq.state = .homing ∧ k.io.home.step = n ∧ k.io.posLo.active = false ∧
      k.seq.op = some { wRead0 with op := .home, moving := false } ∧ k.seq.stopWaiters = [] ∧ k.seq.base = .present ∧ (0 - k.io.home.fromPos).natAbs ≤ travelLimit wProfile) ∧
  (upLoadHome.chip.decks.get 0).seq.state = .homing ∧ (upLoadHome.chip.decks.get 0).io.home.step = 7 := by
  (repeat' apply And.intro) <;> decide +kernel

def wRewind : DeckOp := { wRead0 with op := .rewind, payload := [0, 0, 0, 0] }
def wLong : DeckOp := { wRead0 with op := .eraseFromHere, payload := [0, 1, 0, 0] }
def upMoving (st : DeckState) (o : Option DeckOp) (f : DeckAll → DeckAll) : State := upDeck fun k => f { k with
  seq := { k.seq with state := st, op := o }, tape := { k.tape with eodObj := Vector.replicate 4 20, object := 5, dataset := 2 } }
def wUnload : DeckOp := { wRead0 with op := .unload, moving := false, payload := [0, 0, 0, 0] }
def unloadAt (n : Nat) : State := upMoving .unloading (some wUnload) fun k => { k with seq.stage := n }
/-- On the last wrap of partition 0. -/
def upLast (o : Option DeckOp) : State := upMoving .streaming o fun k => { k with tape := { k.tape with wrap := 7, eodWrap := Vector.replicate 4 2 } }
def upUnderrun : State := upMoving .stopping none fun k => { k with matcher := { k.matcher with underrun := true } }
def upStarved : State := upMoving .streaming (some wRead0) fun k => { k with strainer := { k.strainer with stalled := true }, seq.capSpeed := 0 }

/-- The hypotheses of StopsTurnsAndUnload, clause by clause. -/
theorem witness_StopsTurnsAndUnload :
  (up.chip.decks.get 0).seq.state = .ready ∧
  (∀ s ∈ [up, upMoving .stopping none id, upUnderrun, upMoving .streaming (some wRewind) id, upStarved, upLast none, upLast (some wLong), unloadAt 1],
    s.Hears 0 0 ∧ s.chip.domains.holdPend.getLsbD 0 = false ∧ (s.chip.decks.get 0).profile = some wProfile ∧ (s.chip.decks.get 0).seq.stopWaiters = []) ∧
  (∀ s ∈ [upMoving .stopping none id, upUnderrun], let k := s.chip.decks.get 0
    k.seq.state = .stopping ∧ k.seq.op = none ∧ k.roller.stopAt = none ∧ s.chip.events.length < 63) ∧
  ((upMoving .stopping none id).chip.decks.get 0).matcher.underrun = false ∧ (upUnderrun.chip.decks.get 0).matcher.underrun = true ∧
  ((upMoving .streaming (some wRewind) id).chip.decks.get 0).seq.op = some wRewind ∧
  wRewind.op = .rewind ∧ wRewind.moving = true ∧ wRewind.silent = false ∧ ((upMoving .streaming (some wRewind) id).chip.ctxs.get 0).state = .open ∧
  (upStarved.chip.decks.get 0).strainer.stalled = true ∧ (upStarved.chip.decks.get 0).seq.capSpeed = 0 ∧ (upStarved.chip.decks.get 0).seq.state = .streaming ∧
  ((upMoving .scan none id).chip.decks.get 0).seq.state ∈ [.thread, .tensionUp, .calibrate, .scan] ∧
  ((upMoving .streaming (some wRewind) id).chip.decks.get 0).tape.label = some wLabel ∧ wLabel.lastWrap 0 0 = false ∧ wLabel.lastWrap 0 7 = true ∧
  ((upLast none).chip.decks.get 0).longErase = false ∧ ((upLast (some wLong)).chip.decks.get 0).longErase = true ∧ (upLast (some wLong)).chip.writeIdle 0 = true ∧
  wRead0.op ≠ .eraseFromHere ∧ wRead0.op ≠ .formatTape ∧
  (∀ n ∈ ([1, 2, 3, 4, 5] : List Nat), ((unloadAt n).chip.decks.get 0).seq.stage = n ∧ ((unloadAt n).chip.decks.get 0).seq.op = some wUnload) ∧
  wUnload.op = .unload ∧ wUnload.silent = false := by
  (repeat' apply And.intro) <;> decide +kernel

/-! ### Well-formedness: each check refuses an ill-formed command -/

theorem test_wf_payload : (Instr.timeRead wHdr (List.replicate 4097 0)).wellFormed = false ∧ (Instr.timeRead wHdr [0, 0]).wellFormed = true := by
  decide +kernel
theorem test_wf_damage : (Instr.scrubRead (List.replicate 20 1)).wellFormed = false ∧ (Instr.wordRead 0 5 (List.replicate 20 1)).wellFormed = false := by
  decide +kernel
theorem test_wf_word : (Instr.wordWrite 0 5 [1, 2, 3]).wellFormed = false ∧ (Instr.mergeWrite 0 none 5 0xFFFF [] []).wellFormed = false ∧
    (Instr.cookStore 5 1 [] []).wellFormed = false ∧ (Instr.cookStore 5 1 wData [(5, List.replicate 20 1)]).wellFormed = false ∧
    (Instr.compressRecord 0 none [(5, List.replicate 20 1)]).wellFormed = false := by decide +kernel
theorem test_wf_modify : (Instr.readModifyWrite 0 5 1 [1] []).wellFormed = false ∧
    (Instr.readModifyWrite 0 5 1 (List.replicate 16 0) (List.replicate 20 1)).wellFormed = false := by decide +kernel
theorem test_wf_ladle : (Instr.allocCells 128 0 0 1 false).wellFormed = false ∧ (Instr.allocBlock 0 0 128 false).wellFormed = false ∧
    (Instr.extend 0 128 0 1 false).wellFormed = false ∧ (Instr.hand 0 0 0 128 false).wellFormed = false ∧ (Instr.release 128 0 0).wellFormed = false ∧
    (Instr.release 127 127 0).wellFormed = true := by decide +kernel
theorem test_wf_temps : (Instr.tempSample [1, 2] 0).wellFormed = false ∧ (Instr.kettleEvaluate [1]).wellFormed = false := by decide +kernel
theorem test_wf_queue : (Instr.queueEntryPlaced 1024).wellFormed = false ∧ (Instr.queueEntryPlaced 1023).wellFormed = true := by decide +kernel
theorem test_wf_tongs : (Instr.tongsDescriptor 0 none 0 [] [(0, List.replicate 20 0)]).wellFormed = false ∧
    (Instr.tongsDescriptor 0 none 0 [] [(0, [1])]).wellFormed = true := by decide +kernel
theorem test_wf_fine : (Instr.encoderEdge 0 0 true true 1600).wellFormed = false ∧ (Instr.sampleInstant 0 0 0 1600).wellFormed = false ∧
    (Instr.limitEdge 0 true true 1600 0 0 0).wellFormed = false ∧ (Instr.sampleInstant 0 0 0 1599).wellFormed = true := by decide +kernel
theorem test_wf_piece : (Instr.pieceJudge 0 10 0 0 []).wellFormed = false ∧ (Instr.pieceJudge 0 0 80 0 []).wellFormed = false ∧
    (Instr.pieceJudge 0 0 0 9 []).wellFormed = false ∧ (Instr.pieceJudge 0 9 79 8 []).wellFormed = true := by decide +kernel
theorem test_wf_read : (Instr.datasetRead 0 2 [{ track := 16, slot := none, frames := [] }]).wellFormed = false := by decide +kernel
theorem test_wf_stage : (Instr.replyStage 0 [2] [(5, List.replicate 20 1)]).wellFormed = false ∧ (Instr.replyStage 0 [2] wHurt).wellFormed = true := by
  decide +kernel
theorem test_wf_cook : (Instr.cookTrap 0 0 none).wellFormed = false ∧ (Instr.cookTrap 5 0 none).wellFormed = false ∧
    (Instr.cookDoubleFault 0 0).wellFormed = false ∧ (Instr.cookDoubleFault 3 0).wellFormed = false := by decide +kernel
theorem test_wf_site : (Instr.overrun 148).wellFormed = false ∧ (Instr.overrun 147).wellFormed = true := by decide +kernel
theorem test_wf_scan : (Instr.extest (some [])).wellFormed = false ∧ (Instr.extest none).wellFormed = true ∧ (Instr.samplePreload [true]).wellFormed = false ∧
    (Instr.bypass 0b00010).wellFormed = false ∧ (Instr.bypass 0b11111).wellFormed = true := by decide +kernel

/-! ### The spec's worked examples -/

/-- Table 5-10: the CRC-8 of the header of STATUS_PEEK. -/
theorem test_header_crc : crc8 [0x05, 0x03, 0x02, 0x01, 0x00, 0x00, 0x00] = 0x03 := by decide +kernel
/-- Table 4-8: the PEC of a read of KETTLE_STATUS. -/
theorem test_pec : crc8 [0x60, 0x08, 0x01, 0x01, 0x61, 0x1E, 0x01, 0x00, 0x00] = 0x7F := by decide +kernel
/-- File 04, reading KETTLE_STATUS with PEC: at its reset voltage vcore_code is 30 and mode_eff 1. -/
theorem test_kettle_status : State.reset.chip.kettle.vcore.toNat = 30 ∧ State.reset.chip.kettle.mode = 1 := by decide +kernel
/-- File 11, one word through the decoder: the fold of W = 0x00106 and 0x00107. -/
theorem test_fold : sramFold 0x106 = 0x01 ∧ sramFold 0x107 = 0x00 := by decide +kernel
/-- File 11: the check symbols of the zeroed word 0x00106. -/
theorem test_check_symbols : sramCheck 0x106 (List.replicate 16 0) = [0xCB, 0xCE, 0x04] := by decide +kernel
/-- File 11: a symbol error in M7 is CORRECTED. -/
theorem test_corrected : sramDecode none 0x106 ([0xCB, 0xCE, 0x04, 0, 0, 0, 0, 0x5A] ++ List.replicate 11 0) =
    ⟨.corrected, [0xCB, 0xCE, 0x04] ++ List.replicate 16 0, some 7⟩ := by decide +kernel
/-- File 11: word 0x00107 delivered for word 0x00106 is ADDRESS. -/
theorem test_misaddress : (sramDecode none 0x106 (List.replicate 19 0)).result = .address := by decide +kernel
/-- File 11: the poisoned word with M7 in error is POISONED, M7 corrected; with M7 erased it is repaired, with no place located. -/
theorem test_poisoned : sramDecode none 0x106 ([0xC9, 0xCD, 0x05, 0, 0, 0, 0, 0x5A] ++ List.replicate 11 0) =
      ⟨.poisoned, [0xC9, 0xCD, 0x05] ++ List.replicate 16 0, some 7⟩ ∧
    sramDecode (some 7) 0x106 ([0xC9, 0xCD, 0x05, 0, 0, 0, 0, 0x5A] ++ List.replicate 11 0) =
      ⟨.poisoned, [0xC9, 0xCD, 0x05] ++ List.replicate 16 0, none⟩ := by decide +kernel
/-- Table 12-5: the hashes of "RUN", "PE " and "E R". -/
theorem test_hash : whiskHash 0x52 0x55 0x4E = 0x43A ∧ whiskHash 0x50 0x45 0x20 = 0x434 ∧ whiskHash 0x45 0x20 0x52 = 0x482 := by decide +kernel
/-- File 12: the record "RUN RUN RUN TAPE RUN TAPE". -/
def wRun : List Byte := [0x52, 0x55, 0x4E, 0x20, 0x52, 0x55, 0x4E, 0x20, 0x52, 0x55, 0x4E, 0x20, 0x54, 0x41, 0x50, 0x45, 0x20, 0x52, 0x55, 0x4E, 0x20, 0x54, 0x41, 0x50, 0x45]
/-- File 12: its body. -/
theorem test_compress : whiskBody wRun = [0x10, 0x52, 0x55, 0x4E, 0x20, 0x03, 0xC0, 0x02, 0x54, 0x41, 0x50, 0x02, 0x45, 0x08, 0xC0, 0x03] := by decide +kernel
/-- Files 12 and 13: the CRC-32 of "123456789", and its raw stored form. -/
theorem test_crc32 : crc32 [0x31, 0x32, 0x33, 0x34, 0x35, 0x36, 0x37, 0x38, 0x39] = 0xCBF43926 := by decide +kernel
/-- File 13: the place of piece (0, 11) on 16 tracks, and its header. -/
theorem test_piece : piecePlace 16 0 11 = (11, 9) ∧ pieceHeader 0 0 0 11 11 = [0x00, 0x00, 0x00, 0x0B, 0x0B, 0xA6] := by decide +kernel
/-- Table 13-13: the 8/9 words of 0x00, 0x0B and 0xA6, and the sync mark. -/
theorem test_cells : encode89 0x00 = 0b001000010 ∧ encode89 0x0B = 0b001001110 ∧ encode89 0xA6 = 0b100001100 ∧
    syncMark = [true, false, false, false, false, false, true, false, false, false, false, false, true, false, true, false, true, true] := by decide +kernel
/-- File 13: SD8 and SD9 of 0x31 alone in SD0. -/
theorem test_c3 : gfMul 0x31 0xE2 = 0x75 ∧ gfMul 0x31 0xE3 = 0x44 := by decide +kernel
/-- File 14, a trailer on the hobby deck: the cells of dataset 7, and the piece of slot 199 of track 0. -/
theorem test_trailer : datasetCells 4 5 = 451404 ∧ piecePlace 4 3 47 = (2, 111) ∧ slotPiece 4 0 199 = (9, 79) := by decide +kernel
/-- File 15, a host stalls: the targets 980 and 961 (R380), and the restart at 535 (R389). -/
theorem test_speed_law : retargetLaw 500 10000 1000 214 = 980 ∧ retargetLaw 500 10000 980 0 = 961 ∧
    restartLaw 500 10000 { wProfile with speedMax := 16000000 } 16 256 131072 1048576000 = 535 := by decide +kernel
/-- Table 15-2's v_b of the archive deck, named in file 19: 2,236,067 µm/s. -/
theorem test_run_out : runOutSpeed { wProfile with accel := 2500000000 } = 2236067 := by decide +kernel
/-- File 16: r_target and ramp_rate of the archive deck (R399). -/
theorem test_scaling : capTarget 8000000 1600000 = 209715 ∧ capRamp 8000000 2500000000 200 = 6554 := by decide +kernel
/-- The slot of Table 16-6. -/
def wSlot : Slot :=
  { Slot.reset 0 with
    state := .closed, gain := 1024000, ki := 256, trim := 15, h := 2048, bias := 12288, swing := 2048, umin := 0, umax := 0x7FFF, target := 209715,
    ref := 209715, ramp := 6554, high := true, reseed := false }
/-- Table 16-6, sample n: e, I, t, z and u. -/
theorem test_loop_sample :
    let s := slotSwitch (slotMeasure wSlot 209500 false 0)
    s.e = 3359 ∧ s.integ = 859904 ∧ s.t = 26 ∧ s.z = 3385 ∧ s.high = true ∧ s.u = 14336 := by decide +kernel
/-- Table 16-6, sample n + 3: the slot goes LOW. -/
theorem test_loop_low :
    let s := slotSwitch (slotMeasure { wSlot with integ := 620032 } 209900 false 0)
    s.e = -2891 ∧ s.integ = -120064 ∧ s.t = -4 ∧ s.z = -2895 ∧ s.high = false ∧ s.u = 10240 := by decide +kernel
/-- File 16, auto-tune proposals: prop_h, prop_ki and prop_trim (R411). -/
theorem test_tune : tuneProposals 2880 1638 = (410, 23302, 20) := by decide +kernel
/-- Table 17-8: leg A in periods 1 to 3 and leg B in periods 1 and 4 (R419). -/
theorem test_legs : onTime 768 320000 = 3750 ∧ (legPlan 3750 0 320000 3200 8000).2 = 3750 ∧ (legPlan 3750 3750 320000 3200 8000).2 = 7500 ∧
    (legPlan 3750 7500 320000 3200 8000).2 = 0 ∧ (legPlan 316250 0 320000 3200 8000).2 = -3750 ∧ (legPlan 316250 (-11250) 320000 3200 8000).2 = 0 := by decide +kernel
/-- Table 17-9: latch 2 at 350,013 nm (R435): 8 µs into a sample of 20 µs. -/
theorem test_latch : latchPosition 350015 350010 128000 200 = 350013 := by decide +kernel
/-- File 02, Kettle sizing: Roller's slack at 118.2 ns is above 0.15 and at 120 ns it is not, but holds 0.10. -/
theorem test_slack : (engineSlack 512000000 800000000 118200).above 15 = true ∧ (engineSlack 512000000 800000000 120000).above 15 = false ∧
    (engineSlack 512000000 800000000 120000).atLeast 10 = true := by decide +kernel
/-- File 22, finding a pad: D1_PWM_CAP_AH, pad 15, has its data cell at 24. -/
theorem test_scan_cell : pwmLegs.contains 24 = true ∧ pwmLegs.contains 16 = false := by decide +kernel
/-- R142 and R278: of three records the first two are fetched, the first is read as poison: it counts as lost with class 7. -/
theorem test_poisoned_record :
    let q := { EvtQueue.reset with recs := [⟨0x02, 1, 1, 1, 1⟩, ⟨0x03, 1, 1, 1, 1⟩, ⟨0x04, 1, 1, 1, 1⟩] }
    let q1 := q.without 2 (fun j => j == 0)
    q1.recs.map (·.code) = [0x03, 0x04] ∧ q1.lost = 1 ∧ q1.lostClass = 7 := by decide +kernel
/-- Table 5-11, the first and third rows: VERIFY_REWRITE twice is one record, with count 2 and the later arg. -/
theorem test_coalesce :
    let a := (EvtQueue.reset.push 4 0x02 0x1002 3 0).push 4 0x02 0x1002 1 340
    a.recs.length = 1 ∧ (a.recs.map (·.count)) = [2] ∧ (a.recs.map (·.arg)) = [1] := by decide +kernel


/-! ### Witnesses of the statements about whatever exec or step answers -/

/-- The hypotheses of IdentityRegistersNeverChange: a command that completes, on a state whose management port answers. -/
theorem witness_IdentityRegistersNeverChange : (∃ t, exec .tbClearLoss up = .next t) ∧ up.Reached := ⟨⟨_, rfl⟩, by decide +kernel⟩

/-- The hypotheses of EveryStepKeepsTheMemoryCanonical: a step on a waiting command, from a canonical memory that lists a byte. -/
theorem witness_EveryStepKeepsTheMemoryCanonical :
    (∃ t, step { up with pending := [.tbClearLoss], chip.sram.mem := [(3, 7)] } = .next t) ∧
    ({ up with pending := [.tbClearLoss], chip.sram.mem := [(3, 7)] } : State).Canonical :=
  ⟨⟨_, rfl⟩, by decide +kernel⟩

end Sys2Proof.Tests
end

section
/-! SUPPORT. What a step does with the queue of waiting commands (log entry 4). -/

namespace Sys2Proof.Machine

theorem step_of_pending_nil {s : State} (h : s.pending = []) : step s = .next s := by simp [step, h]

theorem step_of_pending_cons {s : State} {c : Instr} {rest : List Instr} (h : s.pending = c :: rest) :
    step s = exec c { s with pending := rest } := by simp [step, h]

/-- Settles O55: each form of the queue is one branch of `step`. -/
theorem stepRunsTheFrontCommand : Obligations.StepRunsTheFrontCommand :=
  fun _ => ⟨fun _ _ => step_of_pending_cons rfl, step_of_pending_nil rfl⟩

end Sys2Proof.Machine
end

section
/-! SUPPORT. What a register write does to the staged generation, in each block of registers, and as a command (R14, R113, R505, R506). -/

namespace Sys2Proof.Machine

/-! ### The staged generation -/

theorem Chip.stage_of_fixed {ch : Chip} {f : Generation → Generation} (h : f ch.passQ.staged = ch.passQ.staged) : ch.stage f = ch := by
  simp only [Chip.stage, h]

/-- Below LADLE_PART no register is staged (R506). -/
theorem Generation.write_below {a : Nat} (h : a < 0x0C04) (g : Generation) (v : W32) : g.write a v = g := by
  unfold Generation.write
  repeat rw [if_neg (by omega)]

/-- SPI_CFG is the last staged register (R506). -/
theorem Generation.write_above {a : Nat} (h : 0x1D00 < a) (g : Generation) (v : W32) : g.write a v = g := by
  unfold Generation.write
  repeat rw [if_neg (by omega)]

/-- LADLE_QUOTA_c holds the quotas of context c. -/
theorem Generation.write_quota (g : Generation) (i : Ctx) (v : W32) :
    g.write (0x0D00 + 4 * i.val) v =
      { g with cellQuota := g.cellQuota.set i (v.extractLsb' 0 15), blockQuota := g.blockQuota.set i (v.extractLsb' 16 7) } := by
  have hi : Fin.ofNat 64 ((0x0D00 + 4 * i.val - 0x0D00) / 4) = i := by
    ext
    simp only [Fin.val_ofNat]
    omega
  unfold Generation.write
  rw [if_neg (by omega), if_pos (by omega)]
  simp only [hi]

/-- FUNNEL_CFG_s holds the rank, park, burst and step of site kind s. -/
theorem Generation.write_siteCfg (g : Generation) (k : Fin 3) (v : W32) :
    g.write (0x1000 + 16 * k.val) v = { g with sites := g.sites.set k ((g.sites.get k).withCfg v) } := by
  have hk : Fin.ofNat 3 ((0x1000 + 16 * k.val - 0x1000) / 16) = k := by
    ext
    simp only [Fin.val_ofNat]
    omega
  unfold Generation.write
  rw [if_neg (by omega), if_neg (by omega), if_pos (by omega)]
  simp only [hk]

/-! ### The blocks of registers that act at once -/

/-- Between LADLE_CTRL and FUNNEL_FREEZE no register acts at once. -/
theorem Chip.writeMid_between {a : Nat} (h1 : 0x0C28 < a) (h2 : a < 0x1030) (ch : Chip) (v : W32) : ch.writeMid a v = ch := by
  unfold Chip.writeMid
  split
  case h_10 => rfl
  all_goals omega

/-- Nothing stands above the decks' registers (Table 21-1). -/
theorem Chip.writeDeckReg_above {a : Nat} (h : 0x2600 ≤ a) (ch : Chip) (v : W32) : ch.writeDeckReg a v = ch := by
  unfold Chip.writeDeckReg
  rw [if_neg (by omega), if_neg (by omega)]

/-! ### A write at an address -/

/-- The tables put every register at a multiple of 4, so that a write anywhere else has no effect (R14). -/
theorem Chip.writeReg_misaligned {a : Nat} (h : a % 4 ≠ 0) (ch : Chip) (v : W32) : ch.writeReg a v = ch := if_pos h

theorem Chip.writeReg_low {a : Nat} (h4 : a % 4 = 0) (h : a < 0x0500) (ch : Chip) (v : W32) : ch.writeReg a v = ch.writeLow a v := by
  unfold Chip.writeReg
  rw [if_neg (by omega), if_pos h, Chip.stage_of_fixed (Generation.write_below (by omega) _ v)]

theorem Chip.writeReg_mid {a : Nat} (h4 : a % 4 = 0) (h1 : 0x0500 ≤ a) (h2 : a < 0x1400) (ch : Chip) (v : W32) :
    ch.writeReg a v = (ch.stage fun g => g.write a v).writeMid a v := by
  unfold Chip.writeReg
  rw [if_neg (by omega), if_neg (by omega), if_pos h2]

theorem Chip.writeReg_high {a : Nat} (h4 : a % 4 = 0) (h1 : 0x1400 ≤ a) (h2 : a < 0x2100) (ch : Chip) (v : W32) :
    ch.writeReg a v = (ch.stage fun g => g.write a v).writeHigh a v := by
  unfold Chip.writeReg
  rw [if_neg (by omega), if_neg (by omega), if_neg (by omega), if_pos h2]

theorem Chip.writeReg_deck {a : Nat} (h4 : a % 4 = 0) (h : 0x2100 ≤ a) (ch : Chip) (v : W32) :
    ch.writeReg a v = ch.writeDeckReg a v := by
  unfold Chip.writeReg
  rw [if_neg (by omega), if_neg (by omega), if_neg (by omega), if_neg (by omega),
    Chip.stage_of_fixed (Generation.write_above (by omega) _ v)]

/-- R14, for misaligned addresses and those above the last block of Table 21-1. -/
theorem Chip.writeReg_noRegister {a : Nat} (h : a % 4 ≠ 0 ∨ 0x2600 ≤ a) (ch : Chip) (v : W32) : ch.writeReg a v = ch := by
  by_cases h4 : a % 4 = 0
  · have hi : 0x2600 ≤ a := h.resolve_left (absurd h4)
    rw [Chip.writeReg_deck h4 (by omega), Chip.writeDeckReg_above hi]
  · exact Chip.writeReg_misaligned h4 ch v

theorem Chip.writeReg_kettleLimits (ch : Chip) (v : W32) :
    ch.writeReg 0x0104 v = ch.modKettle fun k => { k with vminCode := v.extractLsb' 0 7, vmaxCode := v.extractLsb' 8 7 } :=
  Chip.writeReg_low rfl (by decide) ch v

theorem Chip.writeReg_logSel (ch : Chip) (v : W32) : ch.writeReg 0x0814 v = { ch with log := { ch.log with sel := v.setWidth 10 } } := by
  rw [Chip.writeReg_mid rfl (by decide) (by decide), Chip.stage_of_fixed (Generation.write_below (by decide) _ v)]
  rfl

theorem Chip.writeReg_i2cCfg (ch : Chip) (v : W32) : ch.writeReg 0x1D80 v = { ch with i2c := { ch.i2c with pecEn := v.getLsbD 0 } } := by
  rw [Chip.writeReg_high rfl (by decide) (by decide), Chip.stage_of_fixed (Generation.write_above (by decide) _ v)]
  rfl

/-- R506: a quota is staged, and nothing else changes. -/
theorem Chip.writeReg_quota (ch : Chip) (i : Ctx) (v : W32) :
    ch.writeReg (0x0D00 + 4 * i.val) v = ch.stage fun g =>
      { g with cellQuota := g.cellQuota.set i (v.extractLsb' 0 15), blockQuota := g.blockQuota.set i (v.extractLsb' 16 7) } := by
  rw [Chip.writeReg_mid (by omega) (by omega) (by omega), Chip.writeMid_between (by omega) (by omega)]
  simp only [Generation.write_quota]

/-- R506: a site's settings are staged, and nothing else changes. -/
theorem Chip.writeReg_siteCfg (ch : Chip) (k : Fin 3) (v : W32) :
    ch.writeReg (0x1000 + 16 * k.val) v = ch.stage fun g => { g with sites := g.sites.set k ((g.sites.get k).withCfg v) } := by
  rw [Chip.writeReg_mid (by omega) (by omega) (by omega), Chip.writeMid_between (by omega) (by omega)]
  simp only [Generation.write_siteCfg]

/-! ### REGISTER_WRITE -/

theorem exec_registerWrite (a : W16) (v : W32) (s : State) :
    exec (.registerWrite a v) s = s.onRegister (registerWriteEffect a v) := rfl

/-- The state after a whole transaction: I2C_CFG has come into force (R113). -/
def State.withCfgInForce (s : State) : State := { s with chip.i2c.pecOn := s.chip.i2c.pecEn }

/-- A register write that the port answers: the register takes its value, then I2C_CFG comes into force. -/
theorem exec_registerWrite_reached {s : State} (h : s.Reached) {a : Nat} (ha : a < 2 ^ 16) {v : W32} {ch : Chip}
    (hw : s.chip.writeReg a v = ch) :
    exec (.registerWrite (BitVec.ofNat 16 a) v) s = .next { s with chip := ch }.withCfgInForce := by
  have hn : (BitVec.ofNat 16 a).toNat = a := by simp only [BitVec.toNat_ofNat, Nat.mod_eq_of_lt ha]
  rw [exec_registerWrite, State.onRegister_reached h]
  simp only [registerWriteEffect, hn, hw, State.withCfgInForce]

theorem exec_registerWrite_unreached {s : State} (h : ¬ s.Reached) (a : W16) (v : W32) : exec (.registerWrite a v) s = .next s := by
  rw [exec_registerWrite, State.onRegister_unreached (Bool.eq_false_iff.mpr h)]

/-- Settles O38: each clause is the lemma on the write at its address, under the port's rule. -/
theorem registerWrites : Obligations.RegisterWrites := by
  intro s v
  refine ⟨fun h a => exec_registerWrite_unreached h a v, fun h => ⟨fun a ha => ?_, ?_, ?_, ?_, fun i => ?_, fun k => ?_⟩⟩
  · exact exec_registerWrite_reached h a.isLt (Chip.writeReg_noRegister ha s.chip v)
  · exact exec_registerWrite_reached h (by decide) (Chip.writeReg_kettleLimits s.chip v)
  · exact exec_registerWrite_reached h (by decide) (Chip.writeReg_logSel s.chip v)
  · exact exec_registerWrite_reached h (by decide) (Chip.writeReg_i2cCfg s.chip v)
  · exact exec_registerWrite_reached h (by omega) (Chip.writeReg_quota s.chip i v)
  · exact exec_registerWrite_reached h (by omega) (Chip.writeReg_siteCfg s.chip k v)

end Sys2Proof.Machine
end

section
/-! SUPPORT. What an event of a deck does when its deck's holder hears it (R140, R439, R513, R523). -/

namespace Sys2Proof.Machine

/-- The object that names deck d is read as deck d (Table 5-8). -/
@[simp] theorem deckOfObject_deckObject (d : Deck) : deckOfObject (deckObject d) = some d := by
  revert d
  decide

/-- No event but DECK_STATE and FAULT_STOP shows in a deck's mirror (R523). -/
theorem Mirror.see_other_event {e : LogEntry} (hk : e.kind = 1) (h1 : e.code ≠ Ev.deckState) (h2 : e.code ≠ Ev.faultStop) (m : Mirror) :
    m.see e = m := by
  simp [Mirror.see, hk, h1, h2]

/-- An append that names deck d: the log takes the entry, and the deck's mirror sees it. -/
theorem State.report_deckObject {s : State} (hv : s.chip.power.valid = true) (kind code : Byte) (unit : Nat) (d : Deck) (ctx : Byte) (a0 a1 a2 : W32) :
    s.chip.report kind code unit (deckObject d) ctx a0 a1 a2 = { s.chip with
      log := s.logged kind code unit (deckObject d) ctx a0 a1 a2
      emergency := { s.chip.emergency with
        mirror := s.chip.emergency.mirror.set d
          ((s.chip.emergency.mirror.get d).see (s.entry kind code unit (deckObject d) ctx a0 a1 a2)) } } := by
  simp only [Chip.report, hv, if_true, deckOfObject_deckObject]
  rfl

/-- An append that names no deck changes the log alone. -/
theorem State.report_plain {s : State} (hv : s.chip.power.valid = true) {object : W16} (ho : deckOfObject object = none) (kind code : Byte) (unit : Nat)
    (ctx : Byte) (a0 a1 a2 : W32) :
    s.chip.report kind code unit object ctx a0 a1 a2 = { s.chip with log := s.logged kind code unit object ctx a0 a1 a2 } := by
  simp only [Chip.report, hv, if_true, ho]
  rfl

/-- The holder that hears the deck is the one target of the deck's events (R140). -/
theorem State.targets_deck {s : State} {d : Deck} {i : Ctx} (h : s.Hears d i) (o : W16) : s.chip.targets (.deck d) o = [(i, o)] := by
  obtain ⟨-, hl, ho, -⟩ := h
  simp [Chip.targets, DeckLock.holder, hl, ho]

/-- A deck's event to a holder that hears it: one entry of the log, one event on its path, and what the mirror sees of the entry. -/
theorem State.postDeck_hears {s : State} {d : Deck} {i : Ctx} (h : s.Hears d i) (code : Byte) (unit : Nat) (arg : W32) :
    s.chip.postDeck d code unit arg = { (s.told d i code unit arg).chip with
      emergency := { s.chip.emergency with
        mirror := s.chip.emergency.mirror.set d
          ((s.chip.emergency.mirror.get d).see (s.entry 1 code unit (deckObject d) 0xFF arg 0 0)) } } := by
  obtain ⟨hv, -, -, (he : s.chip.events.length < eventInput)⟩ := id h
  simp only [Chip.postDeck, Chip.post, Chip.postAt, State.targets_deck h, State.report_deckObject hv, List.isEmpty_cons,
    Bool.false_eq_true, if_false]
  rw [if_pos he]
  rfl

/-- An event that no mirror shows leaves the log and the event path as `told` says, and nothing else. -/
theorem State.postDeck_told {s : State} {d : Deck} {i : Ctx} (h : s.Hears d i) {code : Byte} (h1 : code ≠ Ev.deckState)
    (h2 : code ≠ Ev.faultStop) (unit : Nat) (arg : W32) : s.chip.postDeck d code unit arg = (s.told d i code unit arg).chip := by
  rw [State.postDeck_hears h, Mirror.see_other_event rfl h1 h2, vector_set_get]
  rfl

/-- A deck that the holder hears is heard whatever else of the deck changes, while its lock stands. -/
theorem State.Hears.withDeck {s : State} {d : Deck} {i : Ctx} (h : s.Hears d i) {k : DeckAll} (hk : k.lock = (s.chip.decks.get d).lock) :
    (s.withDeck d k).Hears d i := by
  obtain ⟨hv, hl, ho, he⟩ := h
  exact ⟨hv, by simp [hk, hl], ho, he⟩

/-- An event and a change of the deck itself do not touch each other. -/
theorem State.told_withDeck (s : State) (d : Deck) (i : Ctx) (code : Byte) (unit : Nat) (arg : W32) (k : DeckAll) :
    (s.withDeck d k).told d i code unit arg = (s.told d i code unit arg).withDeck d k := rfl

@[simp] theorem State.withDeck_withDeck (s : State) (d : Deck) (k k' : DeckAll) : (s.withDeck d k).withDeck d k' = s.withDeck d k' := by
  simp [State.withDeck]

/-- A change of a deck that stands in a state's place for it. -/
theorem State.modDeck_withDeck (s : State) (d : Deck) (k : DeckAll) (f : DeckAll → DeckAll) :
    (s.withDeck d k).chip.modDeck d f = (s.withDeck d (f k)).chip := by
  simp [State.withDeck, Chip.modDeck]

theorem State.modDeck_eq (s : State) (d : Deck) (f : DeckAll → DeckAll) : s.chip.modDeck d f = (s.withDeck d (f (s.chip.decks.get d))).chip := rfl

@[simp] theorem Chip.modDeck_modDeck (ch : Chip) (d : Deck) (f g : DeckAll → DeckAll) :
    (ch.modDeck d f).modDeck d g = ch.modDeck d (fun k => g (f k)) := by
  simp [Chip.modDeck]

/-- A request joins the deck's work queue (R20). -/
theorem Chip.modDeck_ask (ch : Chip) (d : Deck) (f : DeckAll → DeckAll) (m : Motion) :
    (ch.modDeck d f).ask d m = ch.modDeck d (fun k => { f k with workQ := (f k).workQ ++ [m] }) := Chip.modDeck_modDeck ..

/-- A command on the chip ends in the state whose chip it makes, with the waiting commands as they are. -/
theorem State.onChip_to {s t : State} {f : Chip → Chip} (hc : f s.chip = t.chip) (hp : s.pending = t.pending) : s.onChip f = .next t := by
  rw [State.onChip, hc, hp]

end Sys2Proof.Machine
end

section
/-! SUPPORT. The read channel's link, its tracks and counters, and the position latch (R25, R349, R360–R362, R376). -/

namespace Sys2Proof.Machine

/-- A change of deck d's Strainer changes that deck's Strainer and nothing else. -/
theorem State.onChip_modStrainer (s : State) (d : Deck) (f : Strainer → Strainer) :
    s.onChip (fun ch => ch.modStrainer d f)
      = .next (s.withDeck d { s.chip.decks.get d with strainer := f (s.chip.decks.get d).strainer }) := rfl

/-- Writing back the deck that is there changes nothing. -/
@[simp] theorem State.withDeck_self (s : State) (d : Deck) : s.withDeck d (s.chip.decks.get d) = s := by
  simp [State.withDeck]

/-! ### The link (R360) -/

theorem exec_readLinkAlign (d : Deck) (s : State) :
    exec (.readLinkAlign d) s
      = .next (s.withDeck d { s.chip.decks.get d with strainer := { (s.chip.decks.get d).strainer with aligned := true } }) := rfl

theorem exec_readLinkAlignLoss_aligned {d : Deck} {s : State} (h : (s.chip.decks.get d).strainer.aligned = true) :
    exec (.readLinkAlignLoss d) s = .next (s.withDeck d { s.chip.decks.get d with
      strainer := { (s.chip.decks.get d).strainer with
        aligned := false
        alignLoss := (s.chip.decks.get d).strainer.alignLoss + 1
        tracks := (s.chip.decks.get d).strainer.tracks.map fun t => { t with locked := false } } }) := by
  refine (State.onChip_modStrainer s d _).trans ?_
  rw [if_pos h]

theorem exec_readLinkAlignLoss_unaligned {d : Deck} {s : State} (h : (s.chip.decks.get d).strainer.aligned = false) :
    exec (.readLinkAlignLoss d) s = .next s := by
  refine (State.onChip_modStrainer s d _).trans ?_
  rw [if_neg (Bool.eq_false_iff.mp h), State.withDeck_self]

/-! ### The tracks (R361, R362) -/

theorem exec_trackLock_unaligned {d : Deck} {s : State} (h : (s.chip.decks.get d).strainer.aligned = false) (t : Fin 16) (skew : W16) :
    exec (.trackLock d t skew) s = .next s := by
  refine (State.onChip_modStrainer s d _).trans ?_
  rw [if_pos (Bool.eq_false_iff.mp h), State.withDeck_self]

/-- On an aligned link the measured skew decides: within 2,048 cells the track locks with it, beyond them it is dropped. -/
theorem exec_trackLock_aligned {d : Deck} {s : State} (h : (s.chip.decks.get d).strainer.aligned = true) (t : Fin 16) (skew : W16) :
    exec (.trackLock d t skew) s = .next (s.withDeck d { s.chip.decks.get d with
      strainer := { (s.chip.decks.get d).strainer with
        tracks := (s.chip.decks.get d).strainer.tracks.set t
          (if 2048 < skew.toInt.natAbs then { locked := false, misses := 0, skew := 0, dropped := true }
           else { locked := true, misses := 0, skew := skew, dropped := false }) } }) := by
  refine (State.onChip_modStrainer s d _).trans ?_
  rw [if_neg (not_not_intro h)]
  split <;> rfl

theorem exec_trackUnlock (d : Deck) (t : Fin 16) (dropped : Bool) (s : State) :
    exec (.trackUnlock d t dropped) s = .next (s.withDeck d { s.chip.decks.get d with
      strainer := { (s.chip.decks.get d).strainer with
        tracks := (s.chip.decks.get d).strainer.tracks.set t
          { locked := false, misses := if dropped then 0 else 2, skew := 0, dropped := dropped } } }) := rfl

/-! ### The registers (R25, R376) -/

theorem exec_strClearCounts {s : State} (h : s.Reached) (d : Deck) :
    exec (.strClearCounts d) s = .next (s.withDeck d { s.chip.decks.get d with
      strainer := { (s.chip.decks.get d).strainer with
        judged := 0, bad := 0, notFound := 0, codeViol := 0, c1 := 0, c2rows := 0, c3sds := 0, reread := 0, unrecovered := 0, alignLoss := 0 } }) :=
  State.onRegister_reached h _

theorem exec_rolClearCounts {s : State} (h : s.Reached) (d : Deck) :
    exec (.rolClearCounts d) s = .next (s.withDeck d { s.chip.decks.get d with
      roller := { (s.chip.decks.get d).roller with datasets := 0, rewrites := 0, precaution := 0, skips := 0, failed := 0, overrun := 0 } }) :=
  State.onRegister_reached h _

theorem exec_rolPosLoRead_on {s : State} (h : s.Reached) {d : Deck} (hd : s.chip.domOn (50 + 6 * d.val) = true) :
    exec (.rolPosLoRead d) s = .next (s.withDeck d { s.chip.decks.get d with
      roller := { (s.chip.decks.get d).roller with
        posLatch := (BitVec.ofInt 64 ((s.chip.decks.get d).positionAt s.chip.now)).extractLsb' 32 32
        posTime := s.chip.now } }) := by
  refine (State.onRegister_reached h _).trans ?_
  simp only [rolPosLoReadEffect, hd, if_true]
  rfl

theorem exec_rolPosLoRead_off {s : State} (h : s.Reached) {d : Deck} (hd : s.chip.domOn (50 + 6 * d.val) = false) :
    exec (.rolPosLoRead d) s = .next s := by
  refine (State.onRegister_reached h _).trans ?_
  simp only [rolPosLoReadEffect, hd, Bool.false_eq_true, if_false]

/-- Settles O43: each clause is the equation of its command. -/
theorem readChannelRegisters : Obligations.ReadChannelRegisters := by
  intro s d
  refine ⟨exec_readLinkAlign d s, exec_readLinkAlignLoss_aligned, fun h t skew => ⟨exec_readLinkAlignLoss_unaligned h, exec_trackLock_unaligned h t skew⟩,
    fun t skew h => ⟨fun hin => ?_, fun hout => ?_⟩, fun t => ⟨exec_trackUnlock d t true s, exec_trackUnlock d t false s⟩,
    fun h => ⟨exec_strClearCounts h d, exec_rolClearCounts h d, exec_rolPosLoRead_on h, exec_rolPosLoRead_off h⟩⟩
  · exact (exec_trackLock_aligned h t skew).trans (by rw [if_neg (by omega)])
  · exact (exec_trackLock_aligned h t skew).trans (by rw [if_pos (by omega)])

end Sys2Proof.Machine
end

section
/-! SUPPORT. The speed matcher's commands: retargets, run-outs and underruns (R378–R381, R386, R387, R390). -/

namespace Sys2Proof.Machine

/-! ### The law and the announcement (R380, R381) -/

/-- R380 in one formula: the change is bounded to a fiftieth, at least 1, either way, and the sum to lo and hi. -/
theorem retargetLaw_eq {lo hi : Nat} (h : lo ≤ hi) (s f : Nat) :
    retargetLaw lo hi s f = (max (lo : Int) (min hi (max 0 ((s : Int) +
      max (-(max 1 (s / 50 : Nat) : Int)) (min (max 1 (s / 50 : Nat) : Int) (Int.tdiv ((s : Int) * (f - 500)) 5000)))))).toNat := by
  unfold retargetLaw
  generalize Int.tdiv ((s : Int) * (f - 500)) 5000 = c
  dsimp only
  have hl : (0 : Int) < max 1 ((s / 50 : Nat) : Int) := by omega
  generalize max 1 ((s / 50 : Nat) : Int) = l at hl ⊢
  split_ifs <;> omega

theorem Matcher.announces_iff (m : Matcher) (x : Nat) :
    m.announces x = true ↔
      m.lastEvent = none ∨ ∃ y, m.lastEvent = some y ∧ (100 ≤ max x y - min x y ∨ ((x = m.lo ∨ x = m.hi) ∧ x ≠ y)) := by
  unfold Matcher.announces
  cases m.lastEvent <;> simp

/-! ### A target is posted -/

/-- Deck k with target x posted to its work queue, and `e` as the last value that went out in SPEED_CHANGED. -/
def DeckAll.withTarget (k : DeckAll) (p : Profile) (x : Nat) (e : Option Nat) : DeckAll :=
  { k with matcher := { k.matcher with target := x, lastEvent := e }, workQ := k.workQ ++ [.speed (speedOf p x)] }

theorem State.postTarget_silent {s : State} {d : Deck} {p : Profile} (hp : (s.chip.decks.get d).profile = some p) {x : Nat}
    (ha : (s.chip.decks.get d).matcher.announces x = false) :
    s.chip.postTarget d x = (s.withDeck d ((s.chip.decks.get d).withTarget p x (s.chip.decks.get d).matcher.lastEvent)).chip := by
  simp [Chip.postTarget, hp, ha, Chip.modMatcher, Chip.ask, Chip.modDeck, State.withDeck, DeckAll.withTarget]

theorem State.postTarget_announced {s : State} {d : Deck} {i : Ctx} (h : s.Hears d i) {p : Profile} (hp : (s.chip.decks.get d).profile = some p) {x : Nat}
    (ha : (s.chip.decks.get d).matcher.announces x = true) :
    s.chip.postTarget d x
      = ((s.told d i Ev.speedChanged (engineUnit d 2) (BitVec.ofNat 32 x)).withDeck d ((s.chip.decks.get d).withTarget p x (some x))).chip := by
  have hh : (s.withDeck d ((s.chip.decks.get d).withTarget p x (some x))).Hears d i := h.withDeck rfl
  rw [← State.told_withDeck, ← State.postDeck_told hh (by decide) (by decide)]
  simp [Chip.postTarget, hp, ha, Chip.modMatcher, Chip.ask, Chip.modDeck, State.withDeck, DeckAll.withTarget]

/-! ### SPEED_RETARGET -/

/-- Roller's domain of deck d (Table 19-3). -/
theorem engineUnit_roller (d : Deck) : engineUnit d 2 = 50 + 6 * d.val := by unfold engineUnit; omega

theorem exec_speedRetarget_idle {s : State} {d : Deck} (h : (s.chip.decks.get d).matcher.fills = [] ∨ s.chip.domOn (50 + 6 * d.val) = false) :
    exec (.speedRetarget d) s = .next s := by
  refine State.onChip_eq (?_ : speedRetargetEffect d s.chip = s.chip)
  unfold speedRetargetEffect
  dsimp only
  rw [engineUnit_roller]
  rcases h with h | h
  · simp only [h]
  · split
    · rfl
    · simp [h]

/-- The target that the oldest boundary entry f asks for (R380, R390). -/
def Matcher.asked (m : Matcher) (f : Nat) : Nat :=
  if m.policy.fixed then m.policy.fixedAt else retargetLaw m.lo m.hi (m.runOut.getD m.target) f

/-- The deck whose matcher has taken its oldest boundary entry. -/
def DeckAll.filled (k : DeckAll) (rest : List Nat) : DeckAll := { k with matcher := { k.matcher with fills := rest, runOut := none } }

/-- SPEED_RETARGET takes the oldest boundary entry and posts the target that it asks for. -/
theorem exec_speedRetarget {s : State} {d : Deck} {f : Nat} {rest : List Nat} (hf : (s.chip.decks.get d).matcher.fills = f :: rest)
    (hon : s.chip.domOn (50 + 6 * d.val) = true) :
    exec (.speedRetarget d) s = .next { s with
      chip := (s.withDeck d ((s.chip.decks.get d).filled rest)).chip.postTarget d ((s.chip.decks.get d).matcher.asked f) } := by
  refine State.onChip_eq ?_
  unfold speedRetargetEffect
  simp only [hf, engineUnit_roller, hon, not_true_eq_false, if_false, Matcher.asked]
  split <;> rfl

theorem exec_speedRetarget_silent {s : State} {d : Deck} {f : Nat} {rest : List Nat} {p : Profile}
    (hf : (s.chip.decks.get d).matcher.fills = f :: rest) (hon : s.chip.domOn (50 + 6 * d.val) = true)
    (hp : (s.chip.decks.get d).profile = some p) {x : Nat} (hx : (s.chip.decks.get d).matcher.asked f = x)
    (ha : (s.chip.decks.get d).matcher.announces x = false) :
    exec (.speedRetarget d) s = .next (s.withDeck d
      (((s.chip.decks.get d).filled rest).withTarget p x (s.chip.decks.get d).matcher.lastEvent)) := by
  have hg : (s.withDeck d ((s.chip.decks.get d).filled rest)).chip.decks.get d = (s.chip.decks.get d).filled rest := vector_get_set_self ..
  rw [exec_speedRetarget hf hon, hx, State.postTarget_silent (by rw [hg]; exact hp) (by rw [hg]; exact ha), hg, State.withDeck_withDeck]
  rfl

theorem exec_speedRetarget_announced {s : State} {d : Deck} {f : Nat} {rest : List Nat} {p : Profile} {i : Ctx} (hi : s.Hears d i)
    (hf : (s.chip.decks.get d).matcher.fills = f :: rest) (hon : s.chip.domOn (50 + 6 * d.val) = true)
    (hp : (s.chip.decks.get d).profile = some p) {x : Nat} (hx : (s.chip.decks.get d).matcher.asked f = x)
    (ha : (s.chip.decks.get d).matcher.announces x = true) :
    exec (.speedRetarget d) s = .next ((s.told d i Ev.speedChanged (engineUnit d 2) (BitVec.ofNat 32 x)).withDeck d
      (((s.chip.decks.get d).filled rest).withTarget p x (some x))) := by
  have hg : (s.withDeck d ((s.chip.decks.get d).filled rest)).chip.decks.get d = (s.chip.decks.get d).filled rest := vector_get_set_self ..
  have hh : (s.withDeck d ((s.chip.decks.get d).filled rest)).Hears d i := hi.withDeck rfl
  rw [exec_speedRetarget hf hon, hx, State.postTarget_announced hh (by rw [hg]; exact hp) (by rw [hg]; exact ha), hg,
    State.told_withDeck, State.withDeck_withDeck]
  rfl

/-! ### RUN_OUT_BRAKE (R386) -/

/-- Running out above v_b with the braking distance reached: the former target is kept, and the run-out speed is posted. -/
theorem exec_runOutBrake {s : State} {d : Deck} {p : Profile} {l : Label} {b : DsBuf} (hp : (s.chip.decks.get d).profile = some p)
    (hl : (s.chip.decks.get d).tape.label = some l) (hb : (s.chip.decks.get d).roller.buffers = [b]) :
    exec (.runOutBrake d) s =
      if b.started = true ∧ (s.chip.decks.get d).matcher.runOut = none ∧ runOutSpeed p < speedOf p (s.chip.decks.get d).matcher.target ∧
          (s.chip.decks.get d).toPostamble b l s.chip.now * (p.linePitch * 2 * p.accel : Nat) ≤
            ((speedOf p (s.chip.decks.get d).matcher.target * speedOf p (s.chip.decks.get d).matcher.target
              - runOutSpeed p * runOutSpeed p) * crumbDen : Nat) then
        .next (s.withDeck d { s.chip.decks.get d with
          matcher := { (s.chip.decks.get d).matcher with
            runOut := some (s.chip.decks.get d).matcher.target, target := runOutSpeed p * 10000 / p.speedMax }
          workQ := (s.chip.decks.get d).workQ ++ [.speed (runOutSpeed p)] })
      else .next s := by
  refine (State.onChip_next s _).trans ?_
  conv_lhs => simp only [runOutBrakeEffect, hb, hp, hl]
  split
  · exact congrArg (fun c => Host.Outcome.next { s with chip := c }) (Chip.modDeck_ask ..)
  · rfl

/-! ### UNDERRUN (R387) -/

/-- Where nothing has been written, the written part of the tape ends at the present position. -/
theorem DeckAll.writtenTo_blank {k : DeckAll} (h : k.roller.tail = none) (t : W64) : k.writtenTo t = k.positionAt t := by
  simp only [DeckAll.writtenTo, h]

/-- Else it ends with the dataset last written. -/
theorem DeckAll.writtenTo_tail {k : DeckAll} {b : DsBuf} {l : Label} (h : k.roller.tail = some b) (hl : k.tape.label = some l) (t : W64) :
    k.writtenTo t = b.endAt l := by
  simp only [DeckAll.writtenTo, h, hl]

/-- Where the dataset after an underrun starts when the written part of the tape ends at e: 2 mm on, or in the place that the marker or
label last written keeps for it (R387, R341). -/
def DeckAll.spliceAt (k : DeckAll) (p : Profile) (e : Int) : Option Int :=
  if k.roller.tail.all (fun b => b.ds.kind = .data) then some (onward k.tape.wrap e (mmCrumbs p 2)) else k.roller.nextP0

theorem DeckAll.spliceAt_blank {k : DeckAll} (h : k.roller.tail = none) (p : Profile) (e : Int) :
    k.spliceAt p e = some (onward k.tape.wrap e (mmCrumbs p 2)) := by
  simp only [DeckAll.spliceAt, h, Option.all_none, if_true]

theorem DeckAll.spliceAt_tail {k : DeckAll} {b : DsBuf} (h : k.roller.tail = some b) (p : Profile) (e : Int) :
    k.spliceAt p e = if b.ds.kind = .data then some (onward k.tape.wrap e (mmCrumbs p 2)) else k.roller.nextP0 := by
  simp only [DeckAll.spliceAt, h, Option.all_some, decide_eq_true_eq]

/-- A streaming deck whose gate is on and that has no buffer left notes where the written tape ends and, unless the last dataset keeps the
next one's place, where the splice begins; it asks for the stop. -/
theorem exec_underrun {s : State} {d : Deck} {p : Profile} (hp : (s.chip.decks.get d).profile = some p)
    (hg : (s.chip.decks.get d).roller.gate = true) (hb : (s.chip.decks.get d).roller.buffers = [])
    (hs : (s.chip.decks.get d).roller.stopAt = none) (hu : (s.chip.decks.get d).matcher.underrun = false)
    (hst : (s.chip.decks.get d).seq.state = .streaming) (ho : (s.chip.decks.get d).seq.op = none)
    (hon : s.chip.domOn (50 + 6 * d.val) = true) :
    exec (.underrun d) s = .next (s.withDeck d { s.chip.decks.get d with
      matcher := { (s.chip.decks.get d).matcher with underrun := true, runOut := none }
      roller := { (s.chip.decks.get d).roller with
        eraseFrom := some ((s.chip.decks.get d).writtenTo s.chip.now)
        nextP0 := (s.chip.decks.get d).spliceAt p ((s.chip.decks.get d).writtenTo s.chip.now) }
      workQ := (s.chip.decks.get d).workQ ++ [.stop] }) := by
  have hle : (s.chip.decks.get d).longErase = false := by simp [DeckAll.longErase, ho]
  refine State.onChip_to ?_ rfl
  unfold underrunEffect
  rw [if_pos (by simp [hg, hb, hs, hu, hst, hle, engineUnit_roller, hon])]
  conv_lhs => simp only [hp]
  exact Chip.modDeck_ask ..

theorem exec_underrun_none {s : State} {d : Deck} (h : (s.chip.decks.get d).roller.gate = false ∨ (s.chip.decks.get d).roller.buffers ≠ []) :
    exec (.underrun d) s = .next s := by
  refine State.onChip_eq (?_ : underrunEffect d s.chip = s.chip)
  unfold underrunEffect
  refine if_neg ?_
  rcases h with h | h <;> simp [h]

/-- Settles O46: the retarget by the law's formula and its announcement, the brake and the splice by the equation of their command. -/
theorem speedMatcherTargets : Obligations.SpeedMatcherTargets := by
  intro s d k m on
  refine ⟨exec_speedRetarget_idle, fun f rest p hf hp hlo hon => ?_, fun p l b hp hl hb hst => ?_, fun p hp hg hb hs hu hst ho hon => ?_,
    exec_underrun_none⟩
  · intro old change limit moved new announced after
    have hnew : m.asked f = new := by
      show (if _ then _ else _) = (if _ then _ else _)
      rw [retargetLaw_eq hlo]
    have ha : announced ↔ m.announces new = true := (Matcher.announces_iff _ _).symm
    refine ⟨fun hn => exec_speedRetarget_silent hf hon hp hnew (Bool.eq_false_iff.mpr fun h => hn (ha.mpr h)), fun hy i hi => ?_⟩
    rw [← engineUnit_roller]
    exact exec_speedRetarget_announced hi hf hon hp hnew (ha.mp hy)
  · rw [exec_runOutBrake hp hl hb]
    exact ⟨fun hr hv hx => if_pos ⟨hst, hr, hv, hx⟩, fun h => if_neg fun ⟨_, hr, hv, _⟩ => h.elim (by simp [show m.runOut = none from hr]) (Nat.not_le.mpr hv)⟩
  · intro gap splices beyond
    have h := exec_underrun hp hg hb hs hu hst ho hon
    refine ⟨fun ht => ?_, fun b l ht hl => ?_⟩
    · rw [DeckAll.writtenTo_blank ht, DeckAll.spliceAt_blank ht] at h
      exact h
    · rw [DeckAll.writtenTo_tail ht hl, DeckAll.spliceAt_tail ht] at h
      exact h

end Sys2Proof.Machine
end

section
/-! SUPPORT. The Hourglass's coarse tick, on the reference and on the internal ring (R31, R47–R49, R52). -/

namespace Sys2Proof.Machine

/-- A reading of the model's own question whether HGREF drives the counter. -/
theorem Timebase.onRef_false_of {s : State} (h : ¬ s.OnRef) : s.chip.timebase.onRef = false := by
  obtain ⟨h1, h2⟩ := not_or.mp h
  unfold Timebase.onRef
  split <;> simp_all

/-- A tick that does not fall short of the instant already shown advances the time by its own length. -/
theorem Timebase.tick_of_le {t : Timebase} {n : W64} (h : t.fine.toNat ≤ n.toNat) :
    t.tick n = { t with time := t.time + n, fine := 0, central := t.central.swap, decks := t.decks.map Lines.swap } := by
  rw [Timebase.tick, if_neg (by omega)]

/-- A shorter one stops at the instant already shown (R47). -/
theorem Timebase.tick_of_lt {t : Timebase} {n : W64} (h : n.toNat < t.fine.toNat) :
    t.tick n = { t with time := t.time + t.fine.setWidth 64, fine := 0, central := t.central.swap, decks := t.decks.map Lines.swap } := by
  rw [Timebase.tick, if_pos h]

theorem exec_coarseTick_onRef {s : State} (hr : s.chip.timebase.running = true) (h : s.OnRef) :
    exec .coarseTick s = .next { s with chip.log := s.chip.log.settle, chip.timebase := s.chip.timebase.refTick } := by
  refine State.onChip_eq ?_
  simp only [coarseTickEffect, hr, not_true_eq_false, if_false, onRef_of h, if_true]
  rfl

theorem exec_coarseTick_ring {s : State} (hr : s.chip.timebase.running = true) (h : ¬ s.OnRef) :
    exec .coarseTick s = .next { s with
      chip.log := s.chip.log.settle
      chip.timebase := s.chip.timebase.tick (s.chip.timebase.ringTick (Config.ringTick s.chip.freeUsed))
      chip.freeUsed := s.chip.freeUsed + 1 } := by
  refine State.onChip_eq ?_
  simp only [coarseTickEffect, hr, not_true_eq_false, if_false, Timebase.onRef_false_of h, Bool.false_eq_true]
  rfl

/-- A tick of the ring is past the instant last shown and within the ring's tolerance (R46, R47). -/
theorem Timebase.ringTick_bounds {t : Timebase} (h : t.fine.toNat < 1600) (free : Nat) :
    ∃ n, t.ringTick free = BitVec.ofNat 64 n ∧ t.fine.toNat < n ∧ n ≤ t.ringMost := by
  have hm : 1604 ≤ t.ringMost := by unfold Timebase.ringMost; split <;> omega
  refine ⟨_, rfl, by omega, ?_⟩
  have := Nat.mod_lt free (show 0 < t.ringMost - t.fine.toNat by omega)
  omega

/-- Settles O2: on the reference by whether the corrected tick falls short of the stamped instant, on the ring by the bounds of its tick. -/
theorem hourglassTick : Obligations.HourglassTick := by
  intro s hr t swapped after
  refine ⟨fun h => ?_, fun h hf => ?_⟩
  · intro n total tick
    have hn : (t.nominalTick : Int) = n := by unfold Timebase.nominalTick; split_ifs <;> simp [n, *]
    have href : t.refTick = { t.tick tick with trimAcc := (total % 100000000).toNat } := by
      unfold Timebase.refTick
      rw [hn]
      rfl
    rw [exec_coarseTick_onRef hr h, show s.chip.timebase = t from rfl, href]
    refine ⟨fun hle => ?_, fun hlt => ?_⟩
    · rw [Timebase.tick_of_le hle]
      rfl
    · rw [Timebase.tick_of_lt hlt]
      rfl
  · obtain ⟨n, hn, hlo, hhi⟩ := Timebase.ringTick_bounds hf (Config.ringTick s.chip.freeUsed)
    refine ⟨n, hlo, hhi, ?_⟩
    have hm : t.ringMost ≤ 1680 := by unfold Timebase.ringMost; split <;> omega
    have hle : t.fine.toNat ≤ (BitVec.ofNat 64 n).toNat := by simp only [BitVec.toNat_ofNat]; omega
    rw [exec_coarseTick_ring hr h, show s.chip.timebase = t from rfl, hn, Timebase.tick_of_le hle]
    rfl

end Sys2Proof.Machine
end

section
/-! SUPPORT. Declarations of load, their time limit, and overruns (R34, R59, R60). -/

namespace Sys2Proof.Machine

/-! ### Declarations (R34, R60) -/

/-- The raises that stay pending when a block declares `x` (R34; log entry 23). -/
def Kettle.left (k : Kettle) (x : Declaration) : List Raise := k.raising.filterMap (fun r => r.after k x)

theorem Kettle.left_nil {k : Kettle} (h : k.raising = []) (x : Declaration) : k.left x = [] := by simp only [Kettle.left, h, List.filterMap_nil]

/-- A port's new declaration withdraws the port's own raise. -/
theorem Kettle.left_port {k : Kettle} {p : Port} {r : BitVec 6} {cmd : Option Cmd} (h : k.raising = [{ decl := .port p r, cmd := cmd }])
    (r' : BitVec 6) : k.left (.port p r') = [] := by
  simp [Kettle.left, h, Raise.after]

/-- A declaration that raises no site's demand takes effect at once. -/
theorem exec_loadDeclaration_lower {s : State} (hc : s.chip.power.core = true) {x : Declaration} (hx : s.chip.kettle.isRaise x = false) :
    exec (.loadDeclaration x) s
      = .next { s with chip.kettle := Kettle.apply { s.chip.kettle with raising := s.chip.kettle.left x } x } := by
  refine State.onChip_eq ?_
  simp only [loadDeclarationEffect, hc, not_true_eq_false, if_false, Chip.declare, hx, Bool.false_eq_true, not_false_eq_true, if_true]
  rfl

/-- A raise waits at the end of the pending list, while the temperature limit is not in force. -/
theorem exec_loadDeclaration_raise {s : State} (hc : s.chip.power.core = true) {x : Declaration} (hx : s.chip.kettle.isRaise x = true)
    (ht : s.chip.temp.limited = false) :
    exec (.loadDeclaration x) s = .next { s with chip.kettle.raising := s.chip.kettle.left x ++ [{ decl := x, cmd := none }] } := by
  refine State.onChip_eq ?_
  simp only [loadDeclarationEffect, hc, not_true_eq_false, if_false, Chip.declare, hx, ht, Bool.false_eq_true]
  rfl

/-- With no raise pending, a lowered load is all that changes. -/
theorem exec_loadDeclaration_idle {s : State} (hc : s.chip.power.core = true) (hn : s.chip.kettle.raising = []) {x : Declaration}
    (hx : s.chip.kettle.isRaise x = false) : exec (.loadDeclaration x) s = .next { s with chip.kettle := s.chip.kettle.apply x } := by
  rw [exec_loadDeclaration_lower hc hx, show s.chip.kettle.left x = s.chip.kettle.raising from (Kettle.left_nil hn x).trans hn.symm]

theorem Kettle.isRaise_port {k : Kettle} {p : Port} {r : BitVec 6} (h : r.toNat ≤ (k.ports.get p).toNat) : k.isRaise (.port p r) = false :=
  decide_eq_false (by omega)

/-- The time limit rejects the oldest raise; one of an Ehran port leaves its mark at the port (R60, R88). -/
theorem exec_declarationTimeout_ehran {s : State} {p : EPort} {r : BitVec 6} {cmd : Option Cmd} {rest : List Raise}
    (h : s.chip.kettle.raising = { decl := .port p.castSucc r, cmd := cmd } :: rest) :
    exec .declarationTimeout s = .next { s with
      chip.kettle.raising := rest
      chip.kettle.atCeiling := true
      chip.ehran := s.chip.ehran.set p { s.chip.ehran.get p with declRefused := true } } := by
  refine State.onChip_eq ?_
  have hp : (p.castSucc : Port).val < 4 := p.isLt
  conv_lhs => simp only [declarationTimeoutEffect, h, Chip.rejected, Chip.setDeclRefused]
  rw [dif_pos hp]
  rfl

/-! ### Overruns (R59) -/

/-- Kettle after one more overrun at a site. -/
def Kettle.overran (site : Nat) (k : Kettle) : Kettle := { k with overruns := satInc16 k.overruns, overSite := BitVec.ofNat 8 site }

theorem Chip.raisedLately_iff (ch : Chip) : ch.raisedLately = true ↔ ∃ t, ch.kettle.raisedAt = some t ∧ (ch.now - t).toNat < 1600000 := by
  unfold Chip.raisedLately
  cases ch.kettle.raisedAt <;> simp

/-- The state after an overrun has been counted and logged. -/
def State.overran (s : State) (site : Nat) : State :=
  { s with
    chip.log := s.logged 2 0x30 site 0 0xFF ((satInc16 s.chip.kettle.overruns).setWidth 32) 0 0
    chip.kettle := Kettle.overran site s.chip.kettle }

/-- The state after Kettle's emergency raise of up to 4 codes. -/
def State.raisedUp (s : State) : State :=
  { s with
    chip.kettle.vcore := BitVec.ofNat 7 (min (s.chip.kettle.vcore.toNat + 4) (s.chip.kettle.vhigh s.chip.kettle.mode))
    chip.kettle.raisedAt := some s.chip.now
    chip.kettle.settling := true
    chip.kettle.raises := satInc16 s.chip.kettle.raises }

/-- An overrun is counted and logged, and the emergency raise follows when R59 lets it. -/
theorem exec_overrun {s : State} (hc : s.chip.power.core = true) (hv : s.chip.power.valid = true) (site : Nat) :
    exec (.overrun site) s = .next
      (if s.chip.timebase.refState ≠ .freeRun ∧ ¬ s.chip.power.warning ∧ ¬ s.chip.raisedLately ∧
          s.chip.kettle.vcore.toNat < s.chip.kettle.vhigh s.chip.kettle.mode
        then (s.overran site).raisedUp else s.overran site) := by
  have hlog : (s.chip.modKettle (Kettle.overran site)).logFault 0x30 site 0
      ((s.chip.modKettle (Kettle.overran site)).kettle.overruns.setWidth 32) 0 0 = (s.overran site).chip :=
    State.report_plain (s := { s with chip := s.chip.modKettle (Kettle.overran site) }) hv (by decide) 2 0x30 site 0xFF _ 0 0
  refine State.onChip_to ?_ ?_
  · simp only [hc, if_true, Chip.overrun]
    rw [show (fun k : Kettle => { k with overruns := satInc16 k.overruns, overSite := BitVec.ofNat 8 site }) = Kettle.overran site from rfl,
      hlog, apply_ite State.chip]
    rfl
  · split <;> rfl

/-- Settles O5: a declaration by whether it raises a demand, an overrun by whether R59 lets the raise follow. -/
theorem declarationsAndOverruns : Obligations.DeclarationsAndOverruns := by
  intro s hc
  refine ⟨fun hn => ⟨fun d l h => exec_loadDeclaration_idle hc hn h, fun p r h => exec_loadDeclaration_idle hc hn (Kettle.isRaise_port h),
    fun x h ht => ?_⟩, fun p r r' rest h => ⟨fun hr hle => ?_, exec_declarationTimeout_ehran h⟩, fun site hv => ?_⟩
  · rw [exec_loadDeclaration_raise hc h ht, Kettle.left_nil hn]
    rfl
  · subst hr
    rw [exec_loadDeclaration_lower hc (Kettle.isRaise_port hle), Kettle.left_port h]
    rfl
  · intro k n high L lately
    have hl := Chip.raisedLately_iff s.chip
    rw [exec_overrun hc hv]
    refine ⟨fun hf hw hnl hlt => ?_, fun h => ?_⟩
    · rw [if_pos ⟨hf, by simp [hw], fun h => hnl (hl.mp h), hlt⟩]
      rfl
    · rw [if_neg fun ⟨_, _, hnl, hlt⟩ => h.elim (fun h => hnl (hl.mpr h)) (Nat.not_le.mpr hlt)]
      rfl

end Sys2Proof.Machine
end

section
/-! SUPPORT. The commit and the revert of Pass Q (R26–R29, R86, R243), with what every follow-up of a commit leaves as it is. -/

namespace Sys2Proof.Machine

theorem vector_get_map {α β : Type} {n : Nat} (f : α → β) (v : Vector α n) (i : Fin n) : (v.map f).get i = f (v.get i) := by
  show (v.map f)[i.val] = f v[i.val]
  simp

theorem mem_allCtxs (i : Ctx) : i ∈ allCtxs := by simp only [allCtxs, List.mem_finRange]

/-- Context i with the quotas of generation g. -/
def Context.requota (x : Context) (g : Generation) (i : Ctx) : Context :=
  { x with cellQuota := g.cellQuota.get i, blockQuota := g.blockQuota.get i }

theorem Chip.modCtx_get (ch : Chip) (i : Ctx) (f : Context → Context) (j : Ctx) :
    (ch.modCtx i f).ctxs.get j = if j = i then f (ch.ctxs.get i) else ch.ctxs.get j := by
  split
  · next e => subst e; exact vector_get_set_self ..
  · next e => exact vector_get_set_ne _ _ _ _ e

/-- Context i has the quotas of the active generation (R27, R243). -/
def Chip.QuotaAdopted (ch : Chip) (i : Ctx) : Prop :=
  (ch.ctxs.get i).cellQuota = ch.passQ.active.cellQuota.get i ∧ (ch.ctxs.get i).blockQuota = ch.passQ.active.blockQuota.get i

/-- From chip a to chip b the generations, the ports, the decks, the timebase, Kettle, Funnel, the open queues and every context's command
and reply queue and state stand, and no context loses the quotas of the active generation. -/
structure Chip.Adopts (a b : Chip) : Prop where
  passQ : b.passQ = a.passQ
  ehran : b.ehran = a.ehran
  spi : b.spi = a.spi
  decks : b.decks = a.decks
  timebase : b.timebase = a.timebase
  kettle : b.kettle = a.kettle
  funnel : b.funnel = a.funnel
  openQ : b.openQ = a.openQ
  cmd : ∀ i, (b.ctxs.get i).cmd = (a.ctxs.get i).cmd
  rpl : ∀ i, (b.ctxs.get i).rpl = (a.ctxs.get i).rpl
  state : ∀ i, (b.ctxs.get i).state = (a.ctxs.get i).state
  quota : ∀ i, a.QuotaAdopted i → b.QuotaAdopted i

namespace Chip.Adopts

theorem refl (a : Chip) : a.Adopts a := ⟨rfl, rfl, rfl, rfl, rfl, rfl, rfl, rfl, fun _ => rfl, fun _ => rfl, fun _ => rfl, fun _ h => h⟩

theorem trans {a b c : Chip} (h : a.Adopts b) (g : b.Adopts c) : a.Adopts c :=
  ⟨g.passQ.trans h.passQ, g.ehran.trans h.ehran, g.spi.trans h.spi, g.decks.trans h.decks, g.timebase.trans h.timebase, g.kettle.trans h.kettle,
    g.funnel.trans h.funnel, g.openQ.trans h.openQ, fun i => (g.cmd i).trans (h.cmd i), fun i => (g.rpl i).trans (h.rpl i),
    fun i => (g.state i).trans (h.state i), fun i hi => g.quota i (h.quota i hi)⟩

theorem foldl {α : Type} {f : Chip → α → Chip} (h : ∀ (c : Chip) (x : α), c.Adopts (f c x)) (xs : List α) (a : Chip) :
    a.Adopts (xs.foldl f a) := by
  induction xs generalizing a with
  | nil => exact refl a
  | cons x xs ih => exact (h a x).trans (ih _)

/-- A change of parts that no clause names, and of the contexts' event queues. -/
theorem of_frame {a b : Chip} {log em ev xs l m k dm} (h : b = { a with
      log := log, emergency := em, events := ev, ctxs := xs, ladle := l, sram := m, cache := k, domains := dm })
    (hx : ∀ j, ∃ q, xs.get j = { a.ctxs.get j with evt := q }) : a.Adopts b := by
  subst h
  have hx' : ∀ j, ∃ q, xs.get j = { a.ctxs.get j with evt := q } := hx
  refine ⟨rfl, rfl, rfl, rfl, rfl, rfl, rfl, rfl, fun i => ?_, fun i => ?_, fun i => ?_, fun i hi => ?_⟩ <;>
    obtain ⟨q, hq⟩ := hx' i
  · simp only [hq]
  · simp only [hq]
  · simp only [hq]
  · simpa only [Chip.QuotaAdopted, hq] using hi

theorem of_bufferOnly {a b : Chip} (h : a.BufferOnly b) : a.Adopts b := by
  obtain ⟨l, m, k, g, rfl⟩ := h
  exact of_frame rfl fun j => ⟨(a.ctxs.get j).evt, rfl⟩

theorem report (a : Chip) (kind code : Byte) (unit : Nat) (object : W16) (ctx : Byte) (x y z : W32) :
    a.Adopts (a.report kind code unit object ctx x y z) := by
  obtain ⟨es, m, h, -⟩ := a.report_frame kind code unit object ctx x y z
  exact of_frame h fun j => ⟨(a.ctxs.get j).evt, rfl⟩

theorem post (a : Chip) (code : Byte) (sc : Scope) (unit : Nat) (object : W16) (arg : W32) : a.Adopts (a.post code sc unit object arg) := by
  obtain ⟨es, m, ev, xs, h, hx⟩ := a.postAt_frame a.now code sc unit object arg
  exact of_frame h hx

theorem relist (a : Chip) (f : Ladle → Ladle) : a.Adopts (a.relist f) := of_bufferOnly (a.relist_bufferOnly f)

theorem leaveNext (a : Chip) : a.Adopts a.leaveNext := by
  unfold Chip.leaveNext
  dsimp only
  split
  · exact refl a
  split
  · exact relist ..
  split
  · exact relist ..
  · exact refl a

theorem modSram (a : Chip) (f : Sram → Sram) : a.Adopts (a.modSram f) := of_bufferOnly (a.modSram_bufferOnly f)

theorem ite_post {a c : Chip} (h : a.Adopts c) (p : Prop) [Decidable p] (code : Byte) (sc : Scope) (unit : Nat) (object : W16) (arg : W32) :
    a.Adopts (if p then c.post code sc unit object arg else c) := by
  split
  · exact h.trans (post ..)
  · exact h

theorem ite_logFault {a c : Chip} (h : a.Adopts c) (p : Prop) [Decidable p] (code : Byte) (unit : Nat) (object : W16) (x y z : W32) :
    a.Adopts (if p then c else c.logFault code unit object x y z) := by
  split
  · exact h
  · exact h.trans (report ..)

theorem settleErasure (a : Chip) : a.Adopts a.settleErasure := by
  unfold Chip.settleErasure
  dsimp only
  refine ite_logFault ?_ ..
  cases a.declaredErasure with
  | none => exact modSram ..
  | some b => exact (modSram ..).ite_post ..

theorem settleSram (a : Chip) : a.Adopts a.settleSram := by
  unfold Chip.settleSram
  split
  · exact refl a
  · refine foldl (fun c q => ?_) _ _
    dsimp only
    split
    · exact of_frame rfl fun j => ⟨(c.ctxs.get j).evt, rfl⟩
    · exact refl c

/-- The ports' wait for their next boundary keeps what two chips have in common. -/
theorem portsPending {a b : Chip} (h : a.Adopts b) : a.portsPending.Adopts b.portsPending :=
  { h with
    ehran := by simp only [Chip.portsPending, h.ehran]
    spi := by simp only [Chip.portsPending, h.spi] }

theorem adoptRetirement (a : Chip) (old : List RetEntry) : a.Adopts (a.adoptRetirement old) := by
  unfold Chip.adoptRetirement
  split
  · exact refl a
  · dsimp only
    refine trans (foldl (fun c i => ?_) _ _) (relist _ _)
    split
    · exact refl c
    · exact post ..

/-- A context's new quotas, and QUOTA_CHANGED after them. -/
theorem adoptQuota (a : Chip) (i : Ctx) : a.Adopts (a.adoptQuota i) ∧ (a.adoptQuota i).QuotaAdopted i := by
  have h : a.Adopts (a.modCtx i fun _ => (a.ctxs.get i).requota a.passQ.active i) ∧
      (a.modCtx i fun _ => (a.ctxs.get i).requota a.passQ.active i).QuotaAdopted i := by
    have hs : ∀ j, (a.modCtx i fun _ => (a.ctxs.get i).requota a.passQ.active i).ctxs.get j
        = if j = i then (a.ctxs.get i).requota a.passQ.active i else a.ctxs.get j := a.modCtx_get i _
    refine ⟨⟨rfl, rfl, rfl, rfl, rfl, rfl, rfl, rfl, fun j => ?_, fun j => ?_, fun j => ?_, fun j hj => ?_⟩, ?_⟩
    · rw [hs]; split <;> simp [*, Context.requota]
    · rw [hs]; split <;> simp [*, Context.requota]
    · rw [hs]; split <;> simp [*, Context.requota]
    · rw [QuotaAdopted, hs]; split
      · next e => subst e; exact ⟨rfl, rfl⟩
      · exact hj
    · rw [QuotaAdopted, hs, if_pos rfl]; exact ⟨rfl, rfl⟩
  unfold Chip.adoptQuota
  exact ⟨h.1.ite_post .., (refl _).ite_post .. |>.quota i h.2⟩

/-- Every context adopts in its turn, and none loses what it has adopted. -/
theorem adoptQuotas (is : List Ctx) (a : Chip) :
    a.Adopts (is.foldl (fun c i => c.adoptQuota i) a) ∧ ∀ i ∈ is, (is.foldl (fun c i => c.adoptQuota i) a).QuotaAdopted i := by
  induction is generalizing a with
  | nil => exact ⟨refl a, fun _ h => absurd h List.not_mem_nil⟩
  | cons i is ih =>
    obtain ⟨h, hi⟩ := adoptQuota a i
    obtain ⟨g, hg⟩ := ih (a.adoptQuota i)
    refine ⟨h.trans g, fun j hj => ?_⟩
    rcases List.mem_cons.mp hj with rfl | hj
    · exact g.quota _ hi
    · exact hg j hj

end Chip.Adopts

/-! ### The commands -/

theorem Generation.commitOk_iff (g : Generation) : g.commitOk = true ↔ 1 ≤ g.cellBanks.toNat ∧ g.cellBanks.toNat ≤ 16 := by
  simp [Generation.commitOk]

/-- The chip whose staged generation has become active, before its readers take it (R243). -/
def Chip.committed (ch : Chip) : Chip :=
  { ch with passQ := { ch.passQ with active := ch.passQ.staged, gen := ch.passQ.gen + 1, refused := false } }

theorem Chip.portsPending_quotaAdopted {ch : Chip} {i : Ctx} : ch.portsPending.QuotaAdopted i ↔ ch.QuotaAdopted i := Iff.rfl

/-- After a commit every context has the new quotas and every port waits; the rest that `Adopts` names stands as it was. -/
theorem Chip.qcommit_ok {ch : Chip} (h : ch.passQ.staged.commitOk = true) :
    ch.committed.portsPending.Adopts ch.qcommit ∧ ∀ i, ch.qcommit.QuotaAdopted i := by
  let c2 := ch.committed.logFault 0x17 153 0 (ch.committed.passQ.gen.setWidth 32) 1 0
  let c3 := allCtxs.foldl (fun c i => c.adoptQuota i) c2
  let c4 := (c3.adoptRetirement ch.retireList).leaveNext
  have hc : ch.qcommit = c4.portsPending.settleErasure.settleSram := if_pos h
  obtain ⟨h3, hq⟩ := Chip.Adopts.adoptQuotas allCtxs c2
  have h34 : c3.Adopts c4 := (Chip.Adopts.adoptRetirement ..).trans (.leaveNext _)
  have h4 : ch.committed.Adopts c4 := (Chip.Adopts.report ..).trans (h3.trans h34)
  have h5 : c4.portsPending.Adopts ch.qcommit := hc ▸ (Chip.Adopts.settleErasure _).trans (.settleSram _)
  exact ⟨h4.portsPending.trans h5, fun i => h5.quota i (Chip.portsPending_quotaAdopted.mpr (h34.quota i (hq i (mem_allCtxs i))))⟩

theorem exec_qcommitRevert {s : State} (h : s.Reached) : exec .qcommitRevert s = .next { s with chip.passQ.staged := s.chip.passQ.active } :=
  State.onRegister_reached h _

theorem exec_qcommitCommit {s : State} (h : s.Reached) : exec .qcommitCommit s = .next { s with chip := s.chip.qcommit } :=
  State.onRegister_reached h _

/-- Settles O9: a commit by what its follow-ups keep, a revert and a refusal by their equations. -/
theorem passQCommits : Obligations.PassQCommits := by
  intro s h hv q
  refine ⟨exec_qcommitRevert h, fun hok => ?_, fun hno => ?_⟩
  · obtain ⟨h1, hq⟩ := Chip.qcommit_ok ((Generation.commitOk_iff _).mpr hok)
    have ha : s.chip.qcommit.passQ.active = q.staged := congrArg PassQ.active h1.passQ
    refine ⟨_, exec_qcommitCommit h, h1.passQ, fun i => ?_, fun p => ?_, h1.spi, h1.decks, h1.timebase, h1.kettle, h1.funnel, h1.openQ, rfl⟩
    · obtain ⟨hc, hb⟩ := hq i
      rw [ha] at hc hb
      exact ⟨hc, hb, h1.cmd i, h1.rpl i, h1.state i⟩
    · refine (congrArg (fun v : Vector EhranPort 4 => v.get p) h1.ehran).trans ?_
      exact vector_get_map ..
  · rw [exec_qcommitCommit h]
    refine congrArg (fun c => Host.Outcome.next { s with chip := c }) ?_
    rw [Chip.qcommit, if_neg (fun hok => hno ((Generation.commitOk_iff _).mp hok))]
    exact State.report_plain (s := { s with chip.passQ.refused := true }) hv (by decide) 2 0x17 153 0xFF _ 0 0

end Sys2Proof.Machine
end

section
/-! SUPPORT. Delivery of events, held queue entries, Cook notices and deck work requests (R20–R22, R140–R142, R147, R493, R501). -/

namespace Sys2Proof.Machine

/-! ### An event meets an EVT queue (R141, R142) -/

theorem EventRec.same_iff {r : EventRec} {code : Byte} {object : W16} : r.same code object = true ↔ r.code = code ∧ r.object = object := by
  simp [EventRec.same]

/-- A count saturates at 255. -/
theorem sat8_succ (n : Byte) : sat8 (n.toNat + 1) = if n = 255 then 255 else n + 1 := by
  unfold sat8
  split
  · next h => subst h; rfl
  · next h => bv_omega

/-- One that a waiting record stands for coalesces with it. -/
theorem EvtQueue.push_same {q : EvtQueue} {code : Byte} {object : W16} (h : ∃ r ∈ q.recs, r.code = code ∧ r.object = object) (depth : Nat) (arg : W32)
    (time : W64) : q.push depth code object arg time = { q with recs := q.recs.map fun r =>
      if r.code = code ∧ r.object = object then { r with count := if r.count = 255 then 255 else r.count + 1, arg := arg } else r } := by
  obtain ⟨r, hr, hs⟩ := h
  rw [EvtQueue.push, if_pos (List.any_eq_true.mpr ⟨r, hr, EventRec.same_iff.mpr hs⟩)]
  simp only [EventRec.same_iff, EventRec.again, sat8_succ]

theorem EvtQueue.push_new {q : EvtQueue} {code : Byte} {object : W16} (h : ∀ r ∈ q.recs, ¬ (r.code = code ∧ r.object = object)) {depth : Nat}
    (hd : q.recs.length + 1 < depth ∨ (q.recs.length < depth ∧ 0xC0 ≤ code.toNat)) (arg : W32) (time : W64) :
    q.push depth code object arg time
      = { q with recs := q.recs ++ [{ code := code, count := 1, object := object, arg := arg, time := time }] } := by
  rw [EvtQueue.push, if_neg (by simpa [EventRec.same_iff] using h), if_neg (by omega)]

theorem EvtQueue.push_lost {q : EvtQueue} {code : Byte} {object : W16} (h : ∀ r ∈ q.recs, ¬ (r.code = code ∧ r.object = object)) {depth : Nat}
    (hd : ¬ (q.recs.length + 1 < depth ∨ (q.recs.length < depth ∧ 0xC0 ≤ code.toNat))) (arg : W32) (time : W64) :
    q.push depth code object arg time = q.lose code := by
  rw [EvtQueue.push, if_neg (by simpa [EventRec.same_iff] using h), if_pos (by omega)]

/-- A lost event is counted, and its class is noted when it is the highest. -/
theorem EvtQueue.lose_eq (q : EvtQueue) (code : Byte) : ∃ n c, n.toNat = min (q.lost.toNat + 1) 65535 ∧
    c.toNat = max q.lostClass.toNat (code.toNat / 32) ∧ q.lose code = { q with lost := n, lostClass := c } := by
  refine ⟨_, _, ?_, ?_, rfl⟩
  · unfold satInc16
    split
    · next h => rw [h]; rfl
    · next h => bv_omega
  · have hk : (code.extractLsb' 5 3).toNat = code.toNat / 32 := by
      simp only [BitVec.extractLsb'_toNat, Nat.shiftRight_eq_div_pow]
      omega
    split <;> omega

/-- Delivery of an event with one target, which is open. -/
theorem exec_eventDelivery_one {s : State} {i : Ctx} {e : Event} {o : W16} {rest : List Event} (h : s.chip.events = e :: rest)
    (ht : e.targets = [(i, o)]) (ho : (s.chip.ctxs.get i).isOpen = true) :
    exec .eventDelivery s = .next { s with
      chip.events := rest
      chip.ctxs := s.chip.ctxs.set i { s.chip.ctxs.get i with
        evt := (s.chip.ctxs.get i).evt.push ((s.chip.ctxs.get i).depth 2) e.code o e.arg e.time } } := by
  refine State.onChip_eq ?_
  conv_lhs => simp only [eventDeliveryEffect, h, Chip.deliver, ht, List.foldl_cons, List.foldl_nil, Chip.modCtx, ho, if_true]

/-! ### A held queue entry (R22, R147, R493) -/

/-- A reply held for an RDATA queue with room enters it at the present time. -/
theorem exec_queueEntryPlaced_rdata {s : State} {i : Ctx} {d : Deck} {r : Reply} {rest : List (Nat × HeldEntry)}
    (h : s.chip.held = (12 * i.val + 7 + d.val, .rdata r) :: rest)
    (hd : ((s.chip.ctxs.get i).rdata.get d).length < (s.chip.ctxs.get i).depth ⟨7 + d.val, by omega⟩) :
    exec (.queueEntryPlaced (12 * i.val + 7 + d.val)) s = .next { s with
      chip.held := rest
      chip.ctxs := s.chip.ctxs.set i { s.chip.ctxs.get i with
        rdata := (s.chip.ctxs.get i).rdata.set d ((s.chip.ctxs.get i).rdata.get d ++ [{ r with time := s.chip.now }]) } } := by
  have hi : Fin.ofNat 64 ((12 * i.val + 7 + d.val) / 12) = i := Fin.ext (by simp only [Fin.val_ofNat]; omega)
  have hq : Fin.ofNat 11 ((12 * i.val + 7 + d.val) % 12) = ⟨7 + d.val, by omega⟩ := Fin.ext (by simp only [Fin.val_ofNat]; omega)
  have hd' : Fin.ofNat 4 ((12 * i.val + 7 + d.val) % 12 - 7) = d := Fin.ext (by simp only [Fin.val_ofNat]; omega)
  refine State.onChip_eq ?_
  unfold queueEntryPlacedEffect
  simp only [h, List.find?_cons_of_pos, beq_self_eq_true, hi, hq, hd']
  rw [if_neg (by omega)]
  simp only [List.findIdx_cons, beq_self_eq_true, cond_true, List.eraseIdx_cons_zero]
  rfl

/-! ### A Cook notice (R21, R125, R167) -/

/-- The leases of a context's locks run afresh on the decks that its executing commands name; here they name deck d alone. -/
theorem Chip.restartLeases_one {ch : Chip} {i : Ctx} {d : Deck} {x : Executing} (he : (ch.ctxs.get i).executing = [x]) (hd : x.deck = some d) :
    ch.restartLeases i = ch.modDeck d (fun k => k.releasedBy i ch.now) := by
  have hw : ∀ e, (ch.ctxs.get i).working e = decide (e = d) := by
    intro e
    simp [Context.working, he, hd, eq_comm, beq_eq_decide]
  unfold Chip.restartLeases Chip.modDeck
  congr 1
  apply Vector.ext
  intro j hj
  have hf : Fin.ofNat 4 j = (⟨j, hj⟩ : Deck) := Fin.ext (Nat.mod_eq_of_lt hj)
  simp only [Vector.getElem_map, Vector.getElem_zipIdx, Nat.zero_add, hf, hw, decide_eq_true_eq]
  by_cases e : d.val = j
  · subst e
    simp only [Vector.getElem_set_self, DeckAll.releasedBy, and_true]
    rfl
  · rw [Vector.getElem_set_ne _ _ e, if_neg fun h => e (congrArg Fin.val h.2).symm]

/-- The completion of the one command that a context executes, which names deck d. -/
theorem Chip.complete_one {ch : Chip} {i : Ctx} {d : Deck} {x : Executing} (ho : (ch.ctxs.get i).state = .open)
    (he : (ch.ctxs.get i).executing = [x]) (hd : x.deck = some d) (rcrc : Bool) (st : Stat) (payload : List Byte) :
    ch.complete i x.tag rcrc st payload = (ch.modDeck d (fun k => k.releasedBy i ch.now)).modCtx i (fun y =>
      { y with rpl := y.rpl ++ [ctxReply 0x80 i x.tag rcrc st payload ch.now], executing := [] }) := by
  rw [Chip.complete_open ho, Chip.restartLeases_one he hd]
  unfold Chip.modCtx
  simp [he, dropTag]

/-- The state after the notice's completion has been written, with deck d become `k1`. -/
def State.noticed (s : State) (d : Deck) (n : Notice) (k1 : DeckAll) : State :=
  { s with
    chip.decks := s.chip.decks.set d (k1.releasedBy n.ctx s.chip.now)
    chip.ctxs := s.chip.ctxs.set n.ctx { s.chip.ctxs.get n.ctx with
      executing := []
      rpl := (s.chip.ctxs.get n.ctx).rpl ++ [ctxReply 0x80 n.ctx n.tag n.rcrc n.stat n.payload s.chip.now] } }

/-- A running operation that is the context's one executing command. -/
abbrev State.OnlyRuns (s : State) (n : Notice) (d : Deck) : Prop :=
  (s.chip.ctxs.get n.ctx).state = .open ∧ ∃ x, (s.chip.ctxs.get n.ctx).executing = [x] ∧ x.tag = n.tag ∧ x.deck = some d

theorem State.completeNotice_modDeck {s : State} {d : Deck} {n : Notice} (h : s.OnlyRuns n d) (f : DeckAll → DeckAll) :
    (s.chip.modDeck d f).completeNotice n = (s.noticed d n (f (s.chip.decks.get d))).chip := by
  obtain ⟨ho, x, he, ht, hd⟩ := h
  unfold Chip.completeNotice
  rw [← ht]
  refine (Chip.complete_one (ch := s.chip.modDeck d f) ho he hd ..).trans ?_
  rw [Chip.modDeck_modDeck, ht]
  rfl

@[simp] theorem DeckAll.releasedBy_seq (k : DeckAll) (i : Ctx) (t : W64) : (k.releasedBy i t).seq = k.seq := by
  unfold DeckAll.releasedBy
  split <;> rfl

/-- Deck k with one more request in its work queue (R20). -/
def DeckAll.withWork (k : DeckAll) (m : Motion) : DeckAll := { k with workQ := k.workQ ++ [m] }

theorem Chip.ask_eq (ch : Chip) (d : Deck) (m : Motion) : ch.ask d m = ch.modDeck d (·.withWork m) := rfl

/-- A request joins the work queue as well after the lease runs afresh as before it. -/
theorem DeckAll.releasedBy_withWork (k : DeckAll) (i : Ctx) (t : W64) (m : Motion) :
    (k.releasedBy i t).withWork m = (k.withWork m).releasedBy i t := by
  by_cases h : k.lock.state = .held i <;> simp [DeckAll.releasedBy, DeckAll.withWork, h]

@[simp] theorem State.noticed_get (s : State) (d : Deck) (n : Notice) (k1 : DeckAll) :
    (s.noticed d n k1).chip.decks.get d = k1.releasedBy n.ctx s.chip.now := vector_get_set_self ..

theorem State.noticed_ask (s : State) (d : Deck) (n : Notice) (k1 : DeckAll) (m : Motion) :
    (s.noticed d n k1).chip.ask d m = (s.noticed d n (k1.withWork m)).chip := by
  rw [Chip.ask_eq, Chip.modDeck, State.noticed_get, DeckAll.releasedBy_withWork]
  simp [State.noticed]

/-- A notice ends the command that it names. -/
theorem exec_cookNotice_ended {s : State} {d : Deck} {n : Notice} {rest : List CookWork} (hc : s.chip.cookCan = true) (h : s.OnlyRuns n d)
    (hq : (s.chip.decks.get d).cookQ = .ended n :: rest) :
    exec (.cookNotice (some d)) s = .next (s.noticed d n { s.chip.decks.get d with cookQ := rest }) := by
  refine State.onChip_to ?_ rfl
  unfold cookNoticeEffect
  rw [if_neg (not_not_intro hc)]
  simp only [hq]
  exact State.completeNotice_modDeck h _

/-- A notice whose engine has ended moving tape also asks deck sequencing for the stop. -/
theorem exec_cookNotice_endedMove {s : State} {d : Deck} {n : Notice} {rest : List CookWork} (hc : s.chip.cookCan = true) (h : s.OnlyRuns n d)
    (hq : (s.chip.decks.get d).cookQ = .endedMove (some n) :: rest) (ho : (s.chip.decks.get d).seq.op = none)
    (hs : (s.chip.decks.get d).seq.state = .streaming) :
    exec (.cookNotice (some d)) s
      = .next (s.noticed d n { s.chip.decks.get d with cookQ := rest, workQ := (s.chip.decks.get d).workQ ++ [.stop] }) := by
  refine State.onChip_to ?_ rfl
  unfold cookNoticeEffect
  rw [if_neg (not_not_intro hc)]
  simp only [hq, Chip.serveNotice, State.completeNotice_modDeck h, State.noticed_get, DeckAll.releasedBy_seq, ho, hs]
  rw [if_pos (by decide)]
  exact State.noticed_ask ..

/-! ### A deck work request (R20) -/

/-- Deck sequencing takes the oldest request while the deck's servo I/O is on. -/
theorem exec_deckWorkRequest {s : State} {d : Deck} {w : Motion} {rest : List Motion} (hq : (s.chip.decks.get d).workQ = w :: rest)
    (hs : s.chip.servoOn d = true) :
    exec (.deckWorkRequest d) s = .next { s with chip := (s.chip.modDeck d (fun k => { k with workQ := rest })).carryOut d w } := by
  refine State.onChip_eq ?_
  unfold deckWorkRequestEffect
  simp only [hq, hs, not_true_eq_false, if_false]

/-- A DORMANT deck drops every request (log entry 30). -/
theorem Chip.carryOut_dormant {ch : Chip} {d : Deck} (h : (ch.decks.get d).seq.state = .dormant) (w : Motion) : ch.carryOut d w = ch := by
  unfold Chip.carryOut
  cases w with
  | start => simp only [h, DeckState.runsTape]; split <;> simp
  | _ => simp [h, DeckState.runsTape]

theorem Chip.carryOut_speed {ch : Chip} {d : Deck} (h : (ch.decks.get d).seq.state = .streaming) (v : Nat) :
    ch.carryOut d (.speed v) = ch.drive d (fun q => { q with capSpeed := v }) := if_pos h

/-- Settles O23: delivery by what the queue makes of the event, the other rows by their equations. -/
theorem queueDeliveries : Obligations.QueueDeliveries := by
  intro s
  refine ⟨fun i e o rest hev ht ho => ?_, fun i d r rest h hd => exec_queueEntryPlaced_rdata h hd,
    fun d n rest x hc ho he ht hd => ?_, fun d w rest hq hs => ?_⟩
  · intro q depth ends
    have hx := exec_eventDelivery_one hev ht ho
    refine ⟨fun h => ?_, fun h => ⟨fun hd => ?_, fun hd => ?_⟩⟩
    · rwa [EvtQueue.push_same h] at hx
    · rwa [EvtQueue.push_new h hd] at hx
    · obtain ⟨n, c, hn, hc, hl⟩ := q.lose_eq e.code
      rw [EvtQueue.push_lost h hd, hl] at hx
      exact ⟨n, c, hn, hc, hx⟩
  · have h : s.OnlyRuns n d := ⟨ho, x, he, ht, hd⟩
    exact ⟨exec_cookNotice_ended hc h, exec_cookNotice_endedMove hc h⟩
  · intro k
    rw [exec_deckWorkRequest hq hs]
    have hk : (s.chip.modDeck d fun k => { k with workQ := rest }).decks.get d = { k with workQ := rest } := vector_get_set_self ..
    refine ⟨fun v hw hst => ?_, fun hst => ?_⟩
    · rw [hw, Chip.carryOut_speed (by rw [hk]; exact hst), Chip.drive, Chip.modDeck_modDeck]
      rfl
    · rw [Chip.carryOut_dormant (by rw [hk]; exact hst)]
      rfl

end Sys2Proof.Machine
end

section
/-! SUPPORT. Domain control: switching, wakes, deck holds and SRAM groups (R35, R108, R465–R470). -/

namespace Sys2Proof.Machine

/-! ### Folds in which one element acts -/

theorem foldl_fixed_of_mem {α β : Type} {f : α → β → α} {a : α} {l : List β} (h : ∀ x ∈ l, f a x = a) : l.foldl f a = a := by
  induction l with
  | nil => rfl
  | cons x l ih => rw [List.foldl_cons, h x List.mem_cons_self, ih fun y hy => h y (List.mem_cons_of_mem x hy)]

/-- Only `b` acts, and nothing else acts after it: the fold is its one action. -/
theorem foldl_only {α β : Type} [DecidableEq β] {f : α → β → α} {a : α} {b : β} {l : List β} (hn : l.Nodup) (hb : b ∈ l)
    (h1 : ∀ x, x ≠ b → f a x = a) (h2 : ∀ x, x ≠ b → f (f a b) x = f a b) : l.foldl f a = f a b := by
  induction l with
  | nil => cases hb
  | cons x l ih =>
    obtain ⟨hx, hn'⟩ := List.nodup_cons.mp hn
    by_cases e : x = b
    · subst e
      exact foldl_fixed_of_mem fun y hy => h2 y fun e => hx (e ▸ hy)
    · rw [List.foldl_cons, h1 x e]
      exact ih hn' ((List.mem_cons.mp hb).resolve_left (Ne.symm e))

/-- A place that is set in a fold of settings holds the value. -/
theorem getElem?_foldl_set {α : Type} (x : α) {n : Nat} {ns : List Nat} (h : n ∈ ns) {l : List α} (hl : n < l.length) :
    (ns.foldl (fun l n => l.set n x) l)[n]? = some x := by
  have keep : ∀ (ms : List Nat) (l : List α), l[n]? = some x → (ms.foldl (fun l n => l.set n x) l)[n]? = some x := by
    intro ms
    induction ms with
    | nil => exact fun _ h => h
    | cons m ms ih =>
      intro l hl
      refine ih _ ?_
      rw [List.getElem?_set]
      split
      · next e => rw [e, if_pos (List.getElem?_eq_some_iff.mp hl).1]
      · exact hl
  induction ns generalizing l with
  | nil => cases h
  | cons m ns ih =>
    by_cases e : m = n
    · subst e
      exact keep ns _ (by simp [hl])
    · exact ih ((List.mem_cons.mp h).resolve_left (Ne.symm e)) (by simpa using hl)

theorem and_not_zero (v : BitVec 4) : v &&& ~~~0 = v := by
  revert v
  decide

theorem zero_and (v : BitVec 4) : 0 &&& v = 0 := by
  revert v
  decide

theorem zero_or (v : BitVec 4) : 0 ||| v = v := by
  revert v
  decide

/-- The mask of one deck or bank group has that bit alone. -/
theorem oneBit_getLsbD (d e : Fin 4) : (BitVec.ofNat 4 (2 ^ d.val)).getLsbD e.val = decide (e = d) := by
  revert d e
  decide

/-! ### Switching (R108, R465) -/

/-- A domain comes on: it is read itself again. -/
theorem Chip.switchDomains_on (ch : Chip) (ns : List Nat) :
    ch.switchDomains ns true = ch.modDom fun x => { x with
      on := ns.foldl (fun l n => l.set n true) x.on, mirror := x.mirror.filter fun m => m.1 ∉ ns } := by
  simp [Chip.switchDomains, Chip.modDom]

/-- The sites of `b` are those of `a` with some of the pending requests withdrawn (Table 10-7). -/
def SitesWithdrawn (a b : Vector Site 18) : Prop :=
  ∀ j, b.get j = { a.get j with requests := (b.get j).requests } ∧ ((a.get j).requests = [] → (b.get j).requests = [])

theorem vector_get_ofFn {α : Type} {n : Nat} (f : Fin n → α) (i : Fin n) : (Vector.ofFn f).get i = f i := by
  show (Vector.ofFn f)[i.val] = f i
  simp

theorem Chip.withdrawOff_eq (ch : Chip) :
    ∃ sites, SitesWithdrawn ch.funnel.sites sites ∧ ch.withdrawOff = { ch with funnel.sites := sites } := by
  refine ⟨_, fun j => ?_, rfl⟩
  rw [vector_get_ofFn]
  exact ⟨rfl, fun h => by simp [h]⟩

/-- Domains go off: of the domains' state their marks and the mirror change, and beside it Funnel's pending requests alone. -/
theorem Chip.switchDomains_off (ch : Chip) (ns : List Nat) :
    ∃ sites, SitesWithdrawn ch.funnel.sites sites ∧ ch.switchDomains ns false = { ch with
      domains.on := ns.foldl (fun l n => l.set n false) ch.domains.on
      domains.mirror := ch.domains.mirror ++ (ns.filter fun n => ch.domOn n).flatMap ch.domainWords
      funnel.sites := sites } := by
  obtain ⟨sites, hs, h⟩ := Chip.withdrawOff_eq { ch with
    domains.on := ns.foldl (fun l n => l.set n false) ch.domains.on
    domains.mirror := ch.domains.mirror ++ (ns.filter fun n => ch.domOn n).flatMap ch.domainWords }
  refine ⟨sites, hs, Eq.trans ?_ h⟩
  simp [Chip.switchDomains, Chip.modDom]

/-! ### DOMAIN_AUTO_OFF and DOMAIN_WAKE (R466, R467) -/

/-- What DOMAIN_AUTO_OFF asks of a domain. -/
abbrev Chip.AutoOff (ch : Chip) (n : Nat) : Prop :=
  ch.switchable n = true ∧ ch.domOn n = true ∧ ch.domains.acts n ≠ 0 ∧ ch.domIdle n = true

theorem exec_domainAutoOff_off {s : State} {n : Fin 148} (h : s.chip.AutoOff n.val) :
    ∃ sites, SitesWithdrawn s.chip.funnel.sites sites ∧ exec (.domainAutoOff n) s = .next { s with
      chip.domains.on := s.chip.domains.on.set n.val false
      chip.domains.mirror := s.chip.domains.mirror ++ s.chip.domainWords n.val
      chip.funnel.sites := sites } := by
  obtain ⟨sites, hs, hc⟩ := s.chip.switchDomains_off [n.val]
  refine ⟨sites, hs, State.onChip_eq ((if_pos h).trans (hc.trans ?_))⟩
  simp only [List.filter_cons, h.2.1, if_true, List.filter_nil, List.flatMap_cons, List.flatMap_nil, List.append_nil, List.foldl_cons, List.foldl_nil]

theorem exec_domainAutoOff_not {s : State} {n : Fin 148} (h : ¬ s.chip.AutoOff n.val) : exec (.domainAutoOff n) s = .next s :=
  State.onChip_eq (if_neg h)

theorem exec_domainWake_not {s : State} {n : Fin 148} (h : s.chip.domOn n.val = true ∨ s.chip.power.warning = true) :
    exec (.domainWake n) s = .next s := State.onChip_eq (if_pos h)

/-- An island or Tongs group under AUTO, not held or recovering, comes on when it is needed. -/
theorem exec_domainWake_auto {s : State} {n : Fin 148} (h1 : 16 ≤ n.val) (h2 : n.val ≤ 35) (hn : ¬ s.chip.domOn n.val = true)
    (hw : s.chip.power.warning = false) (hc : s.chip.power.core = true) (hp : s.chip.domains.policy[n.val]? = some 1)
    (hh : n.val ∉ s.chip.log.held) (hr : n.val ∉ s.chip.domains.recovering) :
    exec (.domainWake n) s = .next (if s.chip.needed n.val = true then { s with
      chip.domains.on := s.chip.domains.on.set n.val true
      chip.domains.wakes := s.chip.domains.wakes + 1
      chip.domains.mirror := s.chip.domains.mirror.filter fun m => m.1 ∉ [n.val] } else s) := by
  have hs : s.chip.switchable n.val = true := by
    simp [Chip.switchable, hh, hr, hc, show 11 ≤ n.val ∧ n.val ≤ 35 by omega]
  have ha : s.chip.domains.acts n.val = 1 := by
    simp [Domains.acts, hp, show 11 ≤ n.val ∧ n.val ≤ 35 by omega]
  have hf : s.chip.freshDomain n.val = s.chip := by
    unfold Chip.freshDomain
    rw [if_neg (by omega), if_neg (by omega), if_neg (by omega)]
  refine State.onChip_to ?_ (by split <;> rfl)
  unfold domainWakeEffect
  rw [if_neg (by simp [hn, hw]), if_neg (by simp [hr]), hf, Chip.switchDomains_on]
  simp only [hs, ha, true_and]
  split <;> rfl

/-- What needs an island or a Tongs group (R466). -/
theorem Chip.needed_iff {ch : Chip} {n : Nat} (h1 : 16 ≤ n) (h2 : n ≤ 35) :
    ch.needed n = true ↔ 32 ≤ n ∨ ∃ c ∈ ch.openQ, c.ctx.val / 4 = n - 16 := by
  unfold Chip.needed
  by_cases h : n ≤ 31
  · rw [if_pos ⟨h1, h⟩]
    simp [show ¬ 32 ≤ n by omega]
  · rw [if_neg (by omega), if_pos (by omega)]
    simp [show 32 ≤ n by omega]

/-! ### Deck holds (R469) -/

/-- A deck that no hold waits for, or that has a tape or a lock, is not switched off. -/
theorem Chip.applyHold_not {ch : Chip} {d : Deck} (h : ch.domains.holdPend.getLsbD d.val = true →
    (ch.decks.get d).lock.state ≠ .free ∨ (ch.decks.get d).seq.state = .ready) : ch.applyHold d = ch := by
  refine if_neg fun ⟨hp, hs, hl⟩ => ?_
  rcases h hp with h | h
  · exact h hl
  · rcases hs with e | e | e <;> simp [e] at h

/-- No deck is switched off when no hold waits. -/
theorem Chip.foldl_applyHold_none {ch : Chip} (h : ch.domains.holdPend = 0) : allDecks.foldl (fun c d => c.applyHold d) ch = ch :=
  foldl_fixed_of_mem fun d _ => Chip.applyHold_not (by simp [h])

/-- DOM_CTRL.deck_hold while no deck is switched off: the value is kept, and its decks are switched off where they may be. -/
theorem exec_deckHold_fresh {s : State} (h : s.Reached) (h0 : s.chip.domains.deckOff = 0) (v : BitVec 4) :
    exec (.deckHold v) s = .next { s with
      chip := allDecks.foldl (fun c d => c.applyHold d) { s.chip with domains.deckHold := v, domains.holdPend := v } } := by
  rw [show exec (.deckHold v) s = s.onRegister (fun ch => ch.setDeckHold v) from rfl, State.onRegister_reached h]
  have h1 : s.chip.modDom (fun x => { x with deckHold := v, holdPend := v &&& ~~~x.deckOff, deckOff := x.deckOff &&& v })
      = { s.chip with domains.deckHold := v, domains.holdPend := v } := by
    have hp : v &&& ~~~s.chip.domains.deckOff = v := by rw [h0, and_not_zero]
    have hd : s.chip.domains.deckOff &&& v = s.chip.domains.deckOff := by simp [h0]
    simp only [Chip.modDom, hp, hd]
  unfold Chip.setDeckHold
  rw [h1]
  dsimp only
  rw [foldl_fixed_of_mem (a := ({ s.chip with domains.deckHold := v, domains.holdPend := v } : Chip)) fun d _ => if_neg (by simp [h0])]

/-- A free deck at rest without a tape that a hold waits for is switched off: everything it holds but the lock goes. -/
theorem Chip.applyHold_empty {ch : Chip} {d : Deck} (hp : ch.domains.holdPend = BitVec.ofNat 4 (2 ^ d.val))
    (hs : (ch.decks.get d).seq.state = .empty) (hl : (ch.decks.get d).lock.state = .free) :
    (ch.applyHold d).domains.deckHold = ch.domains.deckHold ∧ (ch.applyHold d).domains.holdPend = 0 ∧
      (ch.applyHold d).domains.deckOff = ch.domains.deckOff ||| BitVec.ofNat 4 (2 ^ d.val) ∧
      (ch.applyHold d).decks = ch.decks.set d { (ch.decks.get d).cleared with lock := (ch.decks.get d).lock } ∧
      (ch.applyHold d).domains.on = (deckDomains d).foldl (fun l n => l.set n false) ch.domains.on ∧
      (ch.applyHold d).timebase = { ch.timebase with decks := ch.timebase.decks.set d Lines.reset } := by
  obtain ⟨es, m, ev, xs, hpost, -⟩ := ch.postAt_frame ch.now Ev.deckState (.deck d) (servoUnit d) (deckObject d) 0
  obtain ⟨sites, -, hsw⟩ := (ch.postDeck d Ev.deckState (servoUnit d) 0).switchDomains_off (deckDomains d)
  have hb : ch.domains.holdPend.getLsbD d.val = true := by rw [hp, oneBit_getLsbD, decide_eq_true rfl]
  have hpost' : ch.postDeck d Ev.deckState (servoUnit d) 0 = _ := hpost
  have hset : ∀ v : BitVec 4, v &&& ~~~v = 0 := by decide
  rw [Chip.applyHold, if_pos ⟨hb, Or.inr (Or.inl hs), hl⟩]
  dsimp only
  rw [if_neg (by simp [hs]), hsw, hpost']
  exact ⟨rfl, (congrArg (· &&& ~~~BitVec.ofNat 4 (2 ^ d.val)) hp).trans (hset _), rfl, rfl, rfl, rfl⟩

theorem oneBit_getLsbD_ne {q : Fin 4} {x : Nat} (h : x ≠ q.val) : (BitVec.ofNat 4 (2 ^ q.val)).getLsbD x = false := by
  rw [BitVec.getLsbD_ofNat, Nat.testBit_two_pow_of_ne h.symm, Bool.and_false]

theorem group_mem (q : Fin 4) : q.val ∈ [0, 1, 2, 3] := by
  revert q
  decide

theorem mem_allDecks (d : Deck) : d ∈ allDecks := by
  revert d
  decide

theorem Chip.foldl_applyHold_one {ch : Chip} {d : Deck} (hp : ch.domains.holdPend = BitVec.ofNat 4 (2 ^ d.val))
    (hd : (ch.applyHold d).domains.holdPend = 0) : allDecks.foldl (fun c d => c.applyHold d) ch = ch.applyHold d := by
  refine foldl_only (f := fun c d => Chip.applyHold c d) (by decide) (mem_allDecks d) (fun e he => Chip.applyHold_not fun h => ?_)
    (fun e _ => Chip.applyHold_not fun h => ?_)
  · rw [hp, oneBit_getLsbD, decide_eq_true_eq] at h
    exact absurd h he
  · simp [hd] at h

theorem Chip.deckDomainsUp_holdPend (ch : Chip) (d : Deck) : (ch.deckDomainsUp d).domains.holdPend = ch.domains.holdPend := by
  rw [Chip.deckDomainsUp, Chip.switchDomains_on, Chip.calibrateDeck]
  split <;> rfl

theorem Chip.foldl_deckDomainsUp_one {ch : Chip} (h : ch.power.decksOn = true) (d : Deck) :
    allDecks.foldl (fun c e => if decide (e = d) && c.power.decksOn then c.deckDomainsUp e else c) ch = ch.deckDomainsUp d :=
  (foldl_only (b := d) (by decide) (mem_allDecks d) (fun e he => if_neg (by simp [he])) (fun e he => if_neg (by simp [he]))).trans
    (if_pos (by simp [h]))

/-- DOM_CTRL.deck_hold cleared while deck d alone is switched off: its domains come on, and its lines calibrate. -/
theorem exec_deckHold_back {s : State} {d : Deck} (h : s.Reached) (hd : s.chip.domains.deckOff = BitVec.ofNat 4 (2 ^ d.val))
    (hon : s.chip.power.decksOn = true) :
    exec (.deckHold 0) s = .next { s with chip :=
      ({ s.chip with domains.deckHold := 0, domains.holdPend := 0, domains.deckOff := 0 } : Chip).deckDomainsUp d } := by
  rw [show exec (.deckHold 0) s = s.onRegister (fun ch => ch.setDeckHold 0) from rfl, State.onRegister_reached h]
  have h1 : s.chip.modDom (fun x => { x with deckHold := 0, holdPend := 0 &&& ~~~x.deckOff, deckOff := x.deckOff &&& 0 })
      = { s.chip with domains.deckHold := 0, domains.holdPend := 0, domains.deckOff := 0 } := by
    have hz : ∀ v : BitVec 4, v &&& 0 = 0 := by decide
    simp only [Chip.modDom, zero_and, hz]
  have hb : ∀ e : Deck, (s.chip.domains.deckOff &&& ~~~0).getLsbD e.val = decide (e = d) := by
    intro e
    rw [and_not_zero, hd, oneBit_getLsbD]
  unfold Chip.setDeckHold
  rw [h1]
  dsimp only
  simp only [hb]
  rw [Chip.foldl_deckDomainsUp_one (by exact hon), Chip.foldl_applyHold_none (Chip.deckDomainsUp_holdPend _ d)]

/-- The nine domains of a deck come on when none of their units is held or recovering, and with a reference its lines calibrate. -/
theorem Chip.deckDomainsUp_eq {ch : Chip} {d : Deck} (hh : ch.log.held = []) (hr : ch.domains.recovering = []) (hl : ch.domains.on.length = 148)
    (ht : ch.timebase.onRef = true) : ch.deckDomainsUp d = { ch with
      domains.on := (deckDomains d).foldl (fun l n => l.set n true) ch.domains.on
      domains.mirror := ch.domains.mirror.filter fun m => m.1 ∉ deckDomains d
      timebase.decks := ch.timebase.decks.set d { ch.timebase.decks.get d with shadowBusy := true } } := by
  have hf : (deckDomains d).filter (fun n => !ch.log.held.contains n && !ch.domains.recovering.contains n) = deckDomains d := by
    simp [hh, hr]
  have hm : 44 + d.val ∈ deckDomains d := by simp [deckDomains]
  have hon := getElem?_foldl_set true hm (l := ch.domains.on) (by omega)
  rw [Chip.deckDomainsUp, hf, Chip.switchDomains_on, Chip.calibrateDeck, if_pos]
  · rfl
  · exact ⟨ht, by simp [Chip.domOn, hon]⟩

/-! ### SRAM groups (R470) -/

/-- DOM_CTRL.sram_off while no group is off: the value is kept, and its groups go off where they may. -/
theorem exec_sramOff_fresh {s : State} (h : s.Reached) (h0 : s.chip.domains.sramActive = 0) (v : BitVec 4) :
    exec (.sramOff v) s = .next { s with
      chip := ({ s.chip with domains.sramOff := v, domains.sramPend := v } : Chip).settleSram } := by
  rw [show exec (.sramOff v) s = s.onRegister (fun ch => ch.setSramOff v) from rfl, State.onRegister_reached h]
  have h1 : s.chip.modDom (fun x => { x with sramOff := v, sramActive := x.sramActive &&& v, sramPend := v &&& ~~~x.sramActive })
      = { s.chip with domains.sramOff := v, domains.sramPend := v } := by
    have hp : v &&& ~~~s.chip.domains.sramActive = v := by rw [h0, and_not_zero]
    have hd : s.chip.domains.sramActive &&& v = s.chip.domains.sramActive := by rw [h0, zero_and]
    simp only [Chip.modDom, hp, hd]
  unfold Chip.setSramOff
  rw [h1]
  dsimp only
  rw [foldl_fixed_of_mem (a := ({ s.chip with domains.sramOff := v, domains.sramPend := v } : Chip)) fun q _ => if_neg (by
    rw [h0, zero_and]; simp)]

/-- Bank group q can go off: each of its banks is retired by an entry of the active generation and holds no held unit. -/
def Chip.groupFree (ch : Chip) (q : Nat) : Prop :=
  ∀ j < 4, retEntry ch.retireList 3 (4 * q + j) = true ∧ ch.ladle.bankHeld (4 * q + j) = false

/-- What a pending request does for bank group q (R470). -/
def Chip.settleGroup (ch : Chip) (q : Nat) : Chip :=
  if ch.domains.sramPend.getLsbD q && (List.range 4).all (fun j => retEntry ch.retireList 3 (4 * q + j) && !ch.ladle.bankHeld (4 * q + j)) then
    { ch with
      domains.sramPend := ch.domains.sramPend &&& ~~~BitVec.ofNat 4 (2 ^ q)
      domains.sramActive := ch.domains.sramActive ||| BitVec.ofNat 4 (2 ^ q)
      domains.on := (groupDomains q).foldl (fun l n => l.set n false) ch.domains.on }
  else ch

theorem Chip.settleSram_eq (ch : Chip) :
    ch.settleSram = if ch.domains.sramPend = 0 then ch else [0, 1, 2, 3].foldl Chip.settleGroup ch := rfl

theorem Chip.settleGroup_not {ch : Chip} {q : Nat} (h : ch.domains.sramPend.getLsbD q = false) : ch.settleGroup q = ch :=
  if_neg (by simp [h])

theorem Chip.settleGroup_free {ch : Chip} {q : Nat} (hp : ch.domains.sramPend.getLsbD q = true) (h : ch.groupFree q) :
    ch.settleGroup q = { ch with
      domains.sramPend := ch.domains.sramPend &&& ~~~BitVec.ofNat 4 (2 ^ q)
      domains.sramActive := ch.domains.sramActive ||| BitVec.ofNat 4 (2 ^ q)
      domains.on := (groupDomains q).foldl (fun l n => l.set n false) ch.domains.on } := by
  refine if_pos ?_
  rw [hp, Bool.true_and, List.all_eq_true]
  intro j hj
  obtain ⟨h1, h2⟩ := h j (List.mem_range.mp hj)
  rw [h1, h2]
  rfl

/-- No group goes off while no bank is retired. -/
theorem Chip.settleSram_none {ch : Chip} (h : ∀ j, retEntry ch.retireList 3 j = false) : ch.settleSram = ch := by
  rw [Chip.settleSram_eq]
  split
  · rfl
  · exact foldl_fixed_of_mem fun q _ => if_neg (by simp [List.range_succ_eq_map, h])

/-- A free group for which alone a request waits goes off. -/
theorem Chip.settleSram_one {ch : Chip} {q : Fin 4} (hp : ch.domains.sramPend = BitVec.ofNat 4 (2 ^ q.val)) (h : ch.groupFree q.val) :
    ch.settleSram = { ch with
      domains.sramPend := 0
      domains.sramActive := ch.domains.sramActive ||| BitVec.ofNat 4 (2 ^ q.val)
      domains.on := (groupDomains q.val).foldl (fun l n => l.set n false) ch.domains.on } := by
  have hne : ∀ q : Fin 4, BitVec.ofNat 4 (2 ^ q.val) ≠ 0 := by decide
  have hnot : ∀ v : BitVec 4, v &&& ~~~v = 0 := by decide
  have hq := Chip.settleGroup_free (by rw [hp, oneBit_getLsbD, decide_eq_true rfl]) h
  rw [hp, hnot] at hq
  rw [Chip.settleSram_eq, if_neg (hp ▸ hne q), foldl_only (b := q.val) (by decide) (group_mem q), hq]
  · exact fun x hx => Chip.settleGroup_not (by rw [hp, oneBit_getLsbD_ne hx])
  · exact fun x _ => Chip.settleGroup_not (by rw [hq]; exact BitVec.getLsbD_zero)

/-- A bank group comes on, and its words are forgotten. -/
theorem Chip.switchGroup_on (ch : Chip) (q : Nat) :
    (ch.switchDomains (groupDomains q) true).modSram (fun m => { m with mem := m.mem.filter fun x => x.1 / 2097152 != q }) = { ch with
      domains.on := (groupDomains q).foldl (fun l n => l.set n true) ch.domains.on
      domains.mirror := ch.domains.mirror.filter fun m => m.1 ∉ groupDomains q
      sram.mem := ch.sram.mem.filter fun c => c.1 / 2097152 ≠ q } := by
  have hb : (fun x : Host.Cell => x.1 / 2097152 != q) = fun x => decide (x.1 / 2097152 ≠ q) := by
    funext x
    simp [bne, beq_eq_decide]
  rw [Chip.switchDomains_on, hb]
  simp only [Chip.modDom, Chip.modSram]

/-- DOM_CTRL.sram_off cleared while group q alone is off: it comes on, and its words are forgotten. -/
theorem exec_sramOff_back {s : State} {q : Fin 4} (h : s.Reached) (hq : s.chip.domains.sramActive = BitVec.ofNat 4 (2 ^ q.val))
    (hc : s.chip.power.core = true) :
    exec (.sramOff 0) s = .next { s with
      chip.domains.sramOff := 0, chip.domains.sramActive := 0, chip.domains.sramPend := 0
      chip.domains.on := (groupDomains q.val).foldl (fun l n => l.set n true) s.chip.domains.on
      chip.domains.mirror := s.chip.domains.mirror.filter fun m => m.1 ∉ groupDomains q.val
      chip.sram.mem := s.chip.sram.mem.filter fun c => c.1 / 2097152 ≠ q.val } := by
  rw [show exec (.sramOff 0) s = s.onRegister (fun ch => ch.setSramOff 0) from rfl, State.onRegister_reached h]
  have h1 : s.chip.modDom (fun x => { x with sramOff := 0, sramActive := x.sramActive &&& 0, sramPend := 0 &&& ~~~x.sramActive })
      = { s.chip with domains.sramOff := 0, domains.sramActive := 0, domains.sramPend := 0 } := by
    have hz : ∀ v : BitVec 4, v &&& 0 = 0 := by decide
    simp only [Chip.modDom, zero_and, hz]
  unfold Chip.setSramOff
  rw [h1]
  dsimp only
  rw [foldl_only (b := q.val) (by decide) (group_mem q)]
  · rw [if_pos (by rw [and_not_zero, hq, oneBit_getLsbD]; simp), if_pos (by exact hc), Chip.switchGroup_on, Chip.settleSram_eq, if_pos (by rfl)]
  · intro x hx
    exact if_neg (by rw [and_not_zero, hq, oneBit_getLsbD_ne hx]; simp)
  · intro x hx
    exact if_neg (by rw [and_not_zero, hq, oneBit_getLsbD_ne hx]; simp)

/-- Settles O31: each clause by the equation of its command. -/
theorem domainControl : Obligations.DomainControl := by
  intro s x isOn without
  refine ⟨fun n => ?_, fun n => ⟨exec_domainWake_not, ?_⟩, fun h h0 => ⟨fun v hv => ?_, fun d hl hs => ?_⟩, fun d h hd hon hh hr hlen ht => ?_,
    fun v h h0 => ⟨fun hret => ?_, fun q hv hq => ?_⟩, fun q h hq hc => exec_sramOff_back h hq hc⟩
  · refine ⟨fun hoff => ?_, exec_domainAutoOff_not⟩
    obtain ⟨sites, hs, he⟩ := exec_domainAutoOff_off hoff
    exact ⟨sites, hs, he⟩
  · intro needed h1 h2 hn hw hc hp hh hr
    rw [exec_domainWake_auto h1 h2 hn hw hc hp hh hr]
    exact ⟨fun h => by rw [if_pos ((Chip.needed_iff h1 h2).mpr h)], fun h => by rw [if_neg fun g => h ((Chip.needed_iff h1 h2).mp g)]⟩
  · rw [exec_deckHold_fresh h h0, foldl_fixed_of_mem fun d _ => Chip.applyHold_not (hv d)]
  · intro v
    obtain ⟨h1, h2, h3, h4, h5, h6⟩ := Chip.applyHold_empty (ch := { s.chip with domains.deckHold := v, domains.holdPend := v }) (d := d) rfl hs hl
    refine ⟨_, exec_deckHold_fresh h h0 v, ?_⟩
    rw [Chip.foldl_applyHold_one rfl h2]
    exact ⟨h1, h2, h3.trans (by rw [show s.chip.domains.deckOff = 0 from h0]; exact zero_or _), h4, h5, h6⟩
  · rw [exec_deckHold_back h hd hon, Chip.deckDomainsUp_eq (by exact hh) (by exact hr) (by exact hlen) (by exact onRef_of ht)]
  · rw [exec_sramOff_fresh h h0, Chip.settleSram_none (by exact hret)]
  · subst hv
    rw [exec_sramOff_fresh h h0, Chip.settleSram_one (by rfl) (by exact hq)]
    dsimp only
    rw [show s.chip.domains.sramActive = 0 from h0, zero_or]

end Sys2Proof.Machine
end

section
/-! SUPPORT. A command that names a deck, from its place in the queue to order 11 (R165, R176, R180, Tables 7-2, 8-2), and the bytes of its
payload (R10). -/

namespace Sys2Proof.Machine

/-! ### The bytes of a payload (R10) -/

@[simp] theorem leBytes_length (k x : Nat) : (leBytes k x).length = k := by
  induction k generalizing x with
  | zero => rfl
  | succ k ih => simp [leBytes, ih]

theorem leNat_leBytes (k x : Nat) : leNat (leBytes k x) = x % 256 ^ k := by
  induction k generalizing x with
  | zero => simp [leBytes, leNat, Nat.mod_one]
  | succ k ih =>
    rw [leBytes, leNat, ih, BitVec.toNat_ofNat, Nat.pow_succ 256, Nat.mul_comm _ 256]
    exact (Nat.mod_mul (a := 256)).symm

/-- A field of a payload holds the number that was put there. -/
theorem leAt_field {a c : List Byte} {k x : Nat} (hx : x < 256 ^ k) : leAt (a ++ (leBytes k x ++ c)) a.length k = x := by
  have hk : ((leBytes k x ++ c).take k) = leBytes k x := by
    simp
  rw [leAt, List.drop_left, hk, leNat_leBytes, Nat.mod_eq_of_lt hx]

/-- A payload that begins with deck d's number names deck d. -/
theorem deckOf_cons (d : Deck) (p : List Byte) : deckOf (BitVec.ofNat 8 d.val :: p) = some d := by
  have h : (byteAt (BitVec.ofNat 8 d.val :: p) 0).toNat = d.val := by
    have hd := d.isLt
    simp only [byteAt, List.getElem?_cons_zero, Option.getD_some, BitVec.toNat_ofNat]
    omega
  unfold deckOf
  rw [dif_pos (by rw [h]; exact d.isLt)]
  simp only [h]

/-! ### The check order (Tables 7-2 and 8-2) -/

theorem firstFail_none {l : List (Bool × Stat)} (h : ∀ x ∈ l, x.1 = false) : firstFail l = none := by
  induction l with
  | nil => rfl
  | cons x l ih =>
    rw [firstFail, h x (List.mem_cons_self ..), if_neg Bool.false_ne_true]
    exact ih fun y hy => h y (List.mem_cons_of_mem _ hy)

theorem vector_any_false {α : Type} {n : Nat} {v : Vector α n} {f : α → Bool} (h : ∀ i, f (v.get i) = false) : v.toList.any f = false := by
  rw [List.any_eq_false]
  intro x hx
  obtain ⟨i, hi, rfl⟩ := List.getElem_of_mem hx
  simpa [Vector.get] using h ⟨i, by simpa using hi⟩

/-- What orders 3 to 8 ask of a command of the deck's holder. -/
structure Chip.Early (ch : Chip) (cmd : Cmd) (d : Deck) : Prop where
  held : ch.deckHeld d = false
  lock : (ch.decks.get d).lock.state = .held cmd.ctx
  state : (ch.decks.get d).seq.state ≠ .dormant
  cart : cmd.op.order6 = true → (ch.decks.get d).io.cart = true
  profile : cmd.op.order7 = true → (ch.decks.get d).profile.isSome = true
  trip : cmd.op.moves = true → ∀ a, ((ch.decks.get d).io.axes.get a).trip = false

theorem Chip.Early.none {ch : Chip} {cmd : Cmd} {d : Deck} (h : ch.Early cmd d) {st : Option Stat}
    (hst : st = if cmd.op.needsLock cmd.payload then (ch.decks.get d).lock.state.refuses cmd.ctx else Option.none) :
    firstFail
      [(cmd.op.needsLock cmd.payload && ch.deckHeld d, Stat.mgmtHold), (st.isSome, st.getD Stat.notLocked),
       (cmd.op.order5 cmd.payload && decide ((ch.decks.get d).seq.state = .dormant), Stat.deckCal),
       (cmd.op.order6 && !(ch.decks.get d).io.cart, Stat.noCartridge), (cmd.op.order7 && (ch.decks.get d).profile.isNone, Stat.noProfile),
       (cmd.op.moves && (ch.decks.get d).io.axes.toList.any (·.trip), Stat.tripped)] = Option.none := by
  have hl : st = Option.none := by simp [hst, h.lock, LockState.refuses]
  have ht : cmd.op.moves = true → (ch.decks.get d).io.axes.toList.any (·.trip) = false := fun hm => vector_any_false (h.trip hm)
  refine firstFail_none ?_
  simp only [hl, h.held, h.state, List.mem_cons, List.not_mem_nil, or_false, forall_eq_or_imp, forall_eq, Option.isSome_none, Bool.and_false,
    decide_false, true_and, Bool.and_eq_false_imp, Bool.not_eq_false']
  exact ⟨h.cart, fun ho => by simpa using h.profile ho, ht⟩

/-- Order 9 speaks once orders 3 to 8 are passed. -/
theorem Chip.judge_order9 {ch : Chip} {cmd : Cmd} {d : Deck} {st : Stat} (h : ch.Early cmd d) (h9 : ch.order9 cmd.op cmd.payload d = some st) :
    ch.judge cmd d = some st := by
  unfold Chip.judge
  simp only [h.none rfl, h9]

/-- A command is let through when orders 3 to 8, 9, 9b to 9d and 10 are passed. -/
theorem Chip.judge_none {ch : Chip} {cmd : Cmd} {d : Deck} (h : ch.Early cmd d) (h9 : ch.order9 cmd.op cmd.payload d = none)
    (h9b : ch.order9bcd cmd.op d = none) (hb : ch.deckBusy cmd.op cmd.payload d = false) : ch.judge cmd d = none := by
  unfold Chip.judge
  simp only [h.none rfl, h9, h9b, hb, Bool.false_eq_true, if_false]

/-! ### A command is taken and executes (R167, R168, R176) -/

/-- Taking the command leaves the lease of the deck that its context holds as it was. -/
theorem State.took_leaseOver {s : State} {h : CmdHdr} {rest : List Cmd} {d : Deck} (hl : s.Locked h d) :
    (s.took h rest).chip.leaseOver d = false := by
  obtain ⟨he, -, hlock, hlease⟩ := hl
  have hw : ((s.took h rest).chip.ctxs.get h.ctx).executing = (s.chip.ctxs.get h.ctx).executing := by simp [State.took]
  rw [← hlease]
  unfold Chip.leaseOver Chip.leaseRuns
  have hd : (s.took h rest).chip.decks = s.chip.decks := rfl
  simp only [hd, hlock, DeckLock.holder, Context.working, hw]
  rfl

/-- The command executes from then on. -/
theorem State.took_execute {s : State} {h : CmdHdr} {rest : List Cmd} {d : Deck} (he : (s.chip.ctxs.get h.ctx).executing = []) (op : Op)
    (p : List Byte) : (s.took h rest).chip.execute (cmdOf op h p) (some d) = (s.started h rest op d).chip := by
  simp [Chip.execute, Chip.modCtx, State.took, State.started, cmdOf, he]

/-- The command that stands at the head of its queue comes to order 3 when its fields are in order. -/
theorem deckEffect_run {s : State} {op : Op} {h : CmdHdr} {p : List Byte} {rest : List Cmd} {d : Deck} (hs : s.Heads op h p rest)
    (hl : s.Locked h d) (ho : op ≠ .ctxOpen) (hd : deckOf p = some d) (hr : reservedBad op p = false) (hb : s.chip.rangeBad op p = false) :
    deckEffect op h p s.chip = (s.started h rest op d).chip.run (cmdOf op h p) d := by
  have hb' : (s.started h rest op d).chip.rangeBad op p = false := hb
  unfold deckEffect
  simp only [Chip.take_heads hs ho, hd, Chip.settleLease, State.took_leaseOver hl, Bool.false_eq_true, if_false, State.took_execute hl.1, hr, hb']

theorem Chip.engineHeld_none {ch : Chip} (h : ch.log.held = []) (op : Op) (d : Deck) : ch.engineHeld op d = false := by
  simp [Chip.engineHeld, h]

/-- A command that every check lets through comes to order 11. -/
theorem Chip.run_none {ch : Chip} {cmd : Cmd} {d : Deck} (hj : ch.judge cmd d = none) (he : ch.engineHeld cmd.op d = false)
    (ht : ch.ticketRefuses cmd d = none) : ch.run cmd d = ch.declareAndAct cmd d := by
  simp [Chip.run, hj, he, ht]

theorem Chip.ticketRefuses_none {ch : Chip} {cmd : Cmd} {d : Deck} (h1 : cmd.op ≠ .writeRecord) (h2 : cmd.op ≠ .writeFilemark) :
    ch.ticketRefuses cmd d = none := by
  unfold Chip.ticketRefuses
  split <;> simp_all

/-! ### The completion of a command that executes (R125, R167) -/

/-- The completion of the one command that the context executes, with what it has made of its deck. -/
theorem State.started_complete {s : State} {h : CmdHdr} (ho : (s.chip.ctxs.get h.ctx).state = .open) (he : (s.chip.ctxs.get h.ctx).executing = [])
    (rest : List Cmd) (op : Op) (d : Deck) (f : DeckAll → DeckAll) (st : Stat) (payload : List Byte) :
    ((s.started h rest op d).chip.modDeck d f).complete h.ctx h.tag h.rcrc st payload
      = (s.deckAnswered h rest d (f (s.chip.decks.get d)) st payload).chip := by
  have ho' : (((s.started h rest op d).chip.modDeck d f).ctxs.get h.ctx).state = .open := by simp [State.started, ho]
  have he' : (((s.started h rest op d).chip.modDeck d f).ctxs.get h.ctx).executing
      = [{ op := op, tag := h.tag, rcrc := h.rcrc, deck := some d }] := by simp [State.started]
  refine (Chip.complete_one ho' he' rfl ..).trans ?_
  rw [Chip.modDeck_modDeck]
  simp [State.started, State.deckAnswered, State.answered, State.completion, Chip.modDeck, Chip.modCtx, ctxReply, Chip.now, he]

/-- A command that completes without touching its deck. -/
theorem State.started_answerCmd {s : State} {h : CmdHdr} (ho : (s.chip.ctxs.get h.ctx).state = .open) (he : (s.chip.ctxs.get h.ctx).executing = [])
    (rest : List Cmd) (op : Op) (d : Deck) (p : List Byte) (st : Stat) (payload : List Byte) :
    (s.started h rest op d).chip.answerCmd (cmdOf op h p) st payload
      = (s.deckAnswered h rest d (s.chip.decks.get d) st payload).chip := by
  have h0 : (s.started h rest op d).chip.modDeck d id = (s.started h rest op d).chip := by simp [Chip.modDeck, State.started]
  have := State.started_complete ho he rest op d id st payload
  rwa [h0] at this

end Sys2Proof.Machine
end

section
/-! SUPPORT. The starts of the operations that read (R201, R202, R211–R216, R363): what the Cook asks deck sequencing and Strainer for. -/

namespace Sys2Proof.Machine

/-! ### An operation begins (R178, R202) -/

/-- Deck k with the operation `o` running, begun in the deck's state (R178). -/
def DeckAll.runs (k : DeckAll) (o : DeckOp) : DeckAll := { k with seq := { k.seq with base := k.seq.baseState, op := some o } }

/-- SPACE's count, which no other opcode has. -/
def spaceCount (op : Op) (p : List Byte) : Int := if op = .space then (BitVec.ofNat 32 (leAt p 4 4)).toInt else 0

theorem Chip.setOp_eq (ch : Chip) (d : Deck) (op : Op) (h : CmdHdr) (p : List Byte) (flushing : Bool) :
    ch.setOp d (cmdOf op h p) flushing
      = ch.modDeck d (·.runs { runningOp op h p (spaceCount op p) false with flushing := flushing }) := rfl

theorem Chip.modDeck_fixed {ch : Chip} {d : Deck} {f : DeckAll → DeckAll} (h : f (ch.decks.get d) = ch.decks.get d) : ch.modDeck d f = ch := by
  simp [Chip.modDeck, h]

/-- Nothing is on its way to the tape of a still deck. -/
theorem State.Still.stagedObjects {s : State} {d : Deck} (h : s.Still d) {ch : Chip}
    (hlock : (ch.decks.get d).lock = (s.chip.decks.get d).lock) (hstaged : (ch.decks.get d).staged = (s.chip.decks.get d).staged)
    (hflight : (ch.decks.get d).inFlight = (s.chip.decks.get d).inFlight) (hh : ch.held = s.chip.held) (hw : ∀ i, (ch.ctxs.get i).wdata = (s.chip.ctxs.get i).wdata) : ch.stagedObjects d = 0 := by
  obtain ⟨⟨-, -, -, -, hst, hfl, -⟩, -, hheld, ho⟩ := h
  unfold Chip.stagedObjects
  simp only [hlock, hstaged, hflight, hst, hfl]
  cases hl : (s.chip.decks.get d).lock.owner with
  | none => rfl
  | some i => simp [Chip.waitingRecs, hw, (ho i hl).1, hh, hheld]

/-- Taking a command and letting it execute leaves every WDATA queue as it was. -/
theorem State.started_wdata (s : State) (h : CmdHdr) (rest : List Cmd) (op : Op) (d : Deck) (i : Ctx) :
    ((s.started h rest op d).chip.ctxs.get i).wdata = (s.chip.ctxs.get i).wdata := by
  by_cases e : i = h.ctx
  · subst e; simp [State.started]
  · simp [State.started, vector_get_set_ne _ _ _ _ e]

/-- No flush comes before an operation on a still deck (R202). -/
theorem State.Still.flushNeeded {s : State} {d : Deck} (h : s.Still d) (c : CmdHdr) (rest : List Cmd) (op : Op) :
    (s.started c rest op d).chip.flushNeeded d = false := by
  have hn := State.Still.stagedObjects (ch := (s.started c rest op d).chip) h rfl rfl rfl rfl (s.started_wdata c rest op d)
  obtain ⟨⟨-, -, -, -, -, -, -, -, -, -, -, -, -, -, hm, -⟩, -⟩ := h
  unfold Chip.flushNeeded
  rw [hn]
  exact hm

/-- An operation of a still deck begins at once. -/
theorem State.Still.actOp {s : State} {d : Deck} (hi : s.Still d) (op : Op) (h : CmdHdr) (rest : List Cmd) (p : List Byte) :
    (s.started h rest op d).chip.actOp (cmdOf op h p) d
      = ((s.started h rest op d).chip.modDeck d (·.runs (runningOp op h p (spaceCount op p) false))).begin d := by
  unfold Chip.actOp
  rw [hi.flushNeeded, if_neg Bool.false_ne_true, Chip.setOp_eq]
  rfl

/-! ### The first dataset an operation asks for (R363) -/

/-- The Cook asks for an operation's motion at `v`, with hi as the target (R20, R383). -/
def DeckAll.setsOff (v : Nat) (k : DeckAll) : DeckAll :=
  { k with
    seq := { k.seq with op := k.seq.op.map (fun o => { o with moving := true }) }
    workQ := k.workQ ++ [.move v]
    matcher := { k.matcher with target := k.matcher.hi }
    roller := { k.roller with nextP0 := none, eraseFrom := none } }

theorem Chip.askMove_eq (ch : Chip) (d : Deck) (v : Nat) : ch.askMove d v = ch.modDeck d (·.setsOff v) := by
  unfold Chip.askMove Chip.modOp
  rw [Chip.ask_eq, Chip.modDeck_modDeck, Chip.modDeck_modDeck]
  rfl

/-- Strainer has nothing in hand. -/
abbrev TapeInfo.Bare (t : TapeInfo) : Prop := t.ds = none ∧ t.ahead = .unknown

theorem TapeInfo.Bare.turnTo {t : TapeInfo} (h : t.Bare) (n : W64) : t.turnTo n = t := by
  obtain ⟨h1, h2⟩ := h
  cases t
  simp_all [TapeInfo.turnTo]

theorem Chip.modTape_turnTo {ch : Chip} {d : Deck} (h : (ch.decks.get d).tape.Bare) (n : W64) : ch.modTape d (·.turnTo n) = ch :=
  Chip.modDeck_fixed (by simp only [h.turnTo])

theorem Chip.reach_bare {ch : Chip} {d : Deck} (h : (ch.decks.get d).tape.Bare) (n : W64) :
    ch.reach d n = (ch.orderRead d (.read n), none) := by
  unfold Chip.reach
  simp only [Chip.modTape_turnTo h, h.1]

theorem Chip.reachAny_bare {ch : Chip} {d : Deck} (h : (ch.decks.get d).tape.Bare) (n : W64) :
    ch.reachAny d n = (ch.orderRead d (.read n), none) := by
  unfold Chip.reachAny
  simp only [Chip.modTape_turnTo h, h.1]

/-- An operation that reads goes on: with nothing in hand it orders its first dataset. -/
structure Chip.ReadsOn (ch : Chip) (d : Deck) (o : DeckOp) : Prop where
  op : (ch.decks.get d).seq.op = some o
  moving : o.moving = true
  bare : (ch.decks.get d).tape.Bare
  walk : (ch.decks.get d).tape.walk = none

/-- READ_RECORD and READ_MORE: the dataset of the position, or the one where what the host left of a record goes on (R211, R212). -/
theorem Chip.ReadsOn.record {ch : Chip} {d : Deck} {o : DeckOp} (h : ch.ReadsOn d o) (hop : o.op = .readRecord)
    (he : (ch.decks.get d).toExpand = []) (ha : (ch.decks.get d).tape.atEod = false)
    (hc : (ch.decks.get d).tape.mid = false → (ch.decks.get d).tape.current = none) :
    ch.readOn d = ch.orderRead d (.read (if (ch.decks.get d).tape.mid then
      ((ch.decks.get d).tape.current.map (·.ds)).getD (ch.decks.get d).tape.dataset else (ch.decks.get d).tape.dataset)) := by
  obtain ⟨ho, hm, hb, hw⟩ := h
  unfold Chip.readOn
  simp only [ho, hm, hop, not_true_eq_false, if_false]
  unfold Chip.readSteps
  cases hmid : (ch.decks.get d).tape.mid <;>
    simp [ho, hop, he, ha, hw, hmid, hc, Chip.reach_bare hb]

theorem Chip.ReadsOn.more {ch : Chip} {d : Deck} {o : DeckOp} (h : ch.ReadsOn d o) (hop : o.op = .readMore)
    (he : (ch.decks.get d).toExpand = []) (ha : (ch.decks.get d).tape.atEod = false) :
    ch.readOn d = if (ch.decks.get d).tape.current.isSome then ch else ch.orderRead d (.read (ch.decks.get d).tape.dataset) := by
  obtain ⟨ho, hm, hb, hw⟩ := h
  unfold Chip.readOn
  simp only [ho, hm, hop, not_true_eq_false, if_false]
  unfold Chip.readSteps
  cases hcur : (ch.decks.get d).tape.current <;>
    simp [ho, hop, he, ha, hw, hcur, Chip.reach_bare hb]

theorem Chip.ReadsOn.verify {ch : Chip} {d : Deck} {o : DeckOp} (h : ch.ReadsOn d o) (hop : o.op = .verify) (h0 : o.objects = 0)
    (hn : byteAt o.payload 1 = 0#8 → leAt o.payload 2 2 ≠ 0) (ha : (ch.decks.get d).tape.atEod = false) :
    ch.readOn d = ch.orderRead d (.read (ch.decks.get d).tape.dataset) := by
  obtain ⟨ho, hm, hb, hw⟩ := h
  have hc : (if byteAt o.payload 1 = 0#8 then some (leAt o.payload 2 2) else none) ≠ some o.objects := by
    rw [h0]
    split
    · exact fun e => hn ‹_› (Option.some.inj e)
    · exact fun e => nomatch e
  unfold Chip.readOn
  simp only [ho, hm, hop, not_true_eq_false, if_false]
  unfold Chip.verifySteps
  simp only [ho, hc, ha, hw, if_false, Bool.false_eq_true, Chip.reach_bare hb, Option.getD_none]

theorem Chip.ReadsOn.locate {ch : Chip} {d : Deck} {o : DeckOp} (h : ch.ReadsOn d o) (hop : o.op = .locate) :
    ch.readOn d = ch.orderRead d (if byteAt o.payload 1 = 1#8 then .read (BitVec.ofNat 64 (leAt o.payload 8 8)) else .scan) := by
  obtain ⟨ho, hm, hb, hw⟩ := h
  unfold Chip.readOn
  simp only [ho, hm, hop, not_true_eq_false, if_false]
  split
  · simp only [Chip.locateDataset, Chip.reach_bare hb]
  · simp only [Chip.locateObject, hb.1]

theorem Chip.ReadsOn.space {ch : Chip} {d : Deck} {o : DeckOp} (h : ch.ReadsOn d o) (hop : o.op = .space) (h0 : o.rest ≠ 0)
    (hf : 0 < o.rest → (ch.decks.get d).tape.atEod = false) (hb : o.rest < 0 → (ch.decks.get d).tape.object ≠ 0) :
    ch.readOn d = ch.orderRead d (.read (if o.rest < 0 ∧ (ch.decks.get d).tape.atEod then (ch.decks.get d).tape.dataset - 1
      else (ch.decks.get d).tape.dataset)) := by
  obtain ⟨ho, hm, hbare, hw⟩ := h
  unfold Chip.readOn
  simp only [ho, hm, hop, not_true_eq_false, if_false]
  by_cases hneg : o.rest < 0
  · unfold Chip.spaceBackward
    simp only [ho, h0, hneg, hb hneg, hw, or_self, if_false, if_true, Option.getD_none, Chip.reachAny_bare hbare, true_and]
  · have ha := hf (by omega)
    unfold Chip.spaceForward
    simp [ho, h0, hneg, ha, hw, Chip.reach_bare hbare]

/-! ### The starts (R201, R202) -/

/-- The chip after an operation has set off on the tape `t`, with `order` for Strainer. -/
def DeckAll.reads (t : TapeInfo) (order : List ReadOrder) (k : DeckAll) : DeckAll :=
  { k.setsOff k.readSpeed with tape := t, readQ := order }

@[simp] theorem DeckAll.reads_tape (k : DeckAll) (t : TapeInfo) (q : List ReadOrder) : (k.reads t q).tape = t := rfl
@[simp] theorem DeckAll.reads_toExpand (k : DeckAll) (t : TapeInfo) (q : List ReadOrder) : (k.reads t q).toExpand = k.toExpand := rfl
@[simp] theorem DeckAll.reads_op (k : DeckAll) (t : TapeInfo) (q : List ReadOrder) :
    (k.reads t q).seq.op = k.seq.op.map (fun o => { o with moving := true }) := rfl

/-- The operation that has set off, before it orders anything. -/
theorem Chip.askMove_here (ch : Chip) (d : Deck) :
    ch.askMove d (ch.decks.get d).readSpeed = ch.modDeck d (·.reads (ch.decks.get d).tape (ch.decks.get d).readQ) := by
  rw [Chip.askMove_eq]
  rfl

/-- It sets off on the tape that the Cook has changed. -/
theorem Chip.askMove_modTape (ch : Chip) (d : Deck) (f : TapeInfo → TapeInfo) :
    (ch.modTape d f).askMove d ((ch.modTape d f).decks.get d).readSpeed
      = ch.modDeck d (·.reads (f (ch.decks.get d).tape) (ch.decks.get d).readQ) := by
  rw [Chip.askMove_eq, Chip.modTape]
  simp only [Chip.modDeck_decks, vector_get_set_self]
  rw [Chip.modDeck_modDeck]
  rfl

theorem Chip.orderRead_reads (ch : Chip) (d : Deck) (t : TapeInfo) (q : List ReadOrder) (r : ReadOrder) :
    (ch.modDeck d (·.reads t q)).orderRead d r = ch.modDeck d (·.reads t [r]) := Chip.modDeck_modDeck ..

/-- The position at its object, with nothing of it read (R198). -/
def TapeInfo.here (t : TapeInfo) : TapeInfo := t.moveTo t.object t.dataset

@[simp] theorem TapeInfo.here_object (t : TapeInfo) : t.here.object = t.object := rfl
@[simp] theorem TapeInfo.here_dataset (t : TapeInfo) : t.here.dataset = t.dataset := rfl

theorem TapeInfo.here_atEod {t : TapeInfo} : t.here.atEod = decide (t.eodObject.toNat ≤ t.object.toNat) := rfl

/-- The position's object lies before its partition's end of data. -/
theorem TapeInfo.atEod_inside {t : TapeInfo} (h : t.object.toNat < t.eodObject.toNat) : t.atEod = false := by
  simp [TapeInfo.atEod, h]

/-- LOCATE's way into partition q (R214). -/
def TapeInfo.into (q : Fin 4) (t : TapeInfo) : TapeInfo :=
  t.enter (BitVec.ofNat 2 q.val) (if t.partition = BitVec.ofNat 2 q.val then t.wrap else (t.toBop (BitVec.ofNat 2 q.val)).wrap)

/-- A partition's number in a byte, in the tape's position and in its tables. -/
theorem partition_of (q : Fin 4) : BitVec.ofNat 2 (BitVec.ofNat 8 q.val).toNat = BitVec.ofNat 2 q.val ∧ Fin.ofNat 4 (BitVec.ofNat 2 q.val).toNat = q ∧
    (BitVec.ofNat 2 q.val).toNat = q.val := by
  revert q
  decide

theorem TapeInfo.into_eq {t : TapeInfo} (h : t.Bare) {l : Label} (hl : t.label = some l) (q : Fin 4) :
    t.into q = if t.partition.toNat = q.val then t
      else { t with partition := BitVec.ofNat 2 q.val, wrap := BitVec.ofNat 6 (l.firstWrap q.val) } := by
  obtain ⟨-, -, hq⟩ := partition_of q
  have hw : ∀ b, (TapeInfo.toBop t b).wrap = BitVec.ofNat 6 (l.firstWrap b.toNat) := fun b => by
    unfold TapeInfo.toBop TapeInfo.enter
    split <;> simp [hl]
  have hp : t.partition = BitVec.ofNat 2 q.val ↔ t.partition.toNat = q.val := by rw [← BitVec.toNat_inj, hq]
  unfold TapeInfo.into TapeInfo.enter
  by_cases he : t.partition = BitVec.ofNat 2 q.val
  · rw [if_pos he, if_pos he, if_pos (hp.mp he)]
  · rw [if_neg he, if_neg he, if_neg (hp.not.mp he), hw, hq, h.1, h.2]

/-- The operation `o` has begun and has not moved yet, with nothing in Strainer's hand or under way from it. -/
structure Chip.Begins (ch : Chip) (d : Deck) (o : DeckOp) : Prop where
  op : (ch.decks.get d).seq.op = some o
  bare : (ch.decks.get d).tape.Bare
  walk : (ch.decks.get d).tape.walk = none
  toExpand : (ch.decks.get d).toExpand = []

section
variable {ch : Chip} {d : Deck} {o : DeckOp} (h : ch.Begins d o)
include h

/-- Once it has set off on a tape that is as bare, it reads on. -/
theorem Chip.Begins.readsOn {t : TapeInfo} (hb : t.Bare) (hw : t.walk = none) (q : List ReadOrder) :
    (ch.modDeck d (·.reads t q)).ReadsOn d { o with moving := true } where
  op := by simp [h.op]
  moving := rfl
  bare := by simpa using hb
  walk := by simpa using hw

theorem Chip.Begins.readRecord (hop : o.op = .readRecord) (ha : (ch.decks.get d).tape.atEod = false)
    (hc : (ch.decks.get d).tape.mid = false → (ch.decks.get d).tape.current = none) :
    ch.startReading d o = ch.modDeck d (·.reads (ch.decks.get d).tape [.read (if (ch.decks.get d).tape.mid then
      ((ch.decks.get d).tape.current.map (·.ds)).getD (ch.decks.get d).tape.dataset else (ch.decks.get d).tape.dataset)]) := by
  have hw : ch.modTape d (fun t => { t with walk := none }) = ch := by
    refine Chip.modDeck_fixed ?_
    simp only [← h.walk]
  unfold Chip.startReading
  simp only [hop, ha, Bool.false_eq_true, if_false, hw, Chip.askMove_here]
  rw [(h.readsOn h.bare h.walk _).record hop (by simpa using h.toExpand) (by simpa using ha) (by simpa using hc), Chip.orderRead_reads]
  simp

theorem Chip.Begins.readMore (hop : o.op = .readMore) (hm : (ch.decks.get d).tape.mid = true) (hq : (ch.decks.get d).readQ = []) :
    ch.startReading d o = ch.modDeck d (·.reads (ch.decks.get d).tape
      (if (ch.decks.get d).tape.current.isSome then [] else [.read (ch.decks.get d).tape.dataset])) := by
  have ha : (ch.decks.get d).tape.atEod = false := by simp [TapeInfo.atEod, hm]
  unfold Chip.startReading
  simp only [hop, hm, if_true, Chip.askMove_here]
  rw [(h.readsOn h.bare h.walk _).more hop (by simpa using h.toExpand) (by simpa using ha), Chip.orderRead_reads, hq]
  cases hcur : (ch.decks.get d).tape.current <;> simp [hcur]

theorem Chip.Begins.verify (hop : o.op = .verify) (h0 : o.objects = 0) (hn : byteAt o.payload 1 = 0#8 → leAt o.payload 2 2 ≠ 0)
    (hi : (ch.decks.get d).tape.object.toNat < (ch.decks.get d).tape.eodObject.toNat) :
    ch.startReading d o = ch.modDeck d (·.reads (ch.decks.get d).tape.here [.read (ch.decks.get d).tape.dataset]) := by
  unfold Chip.startReading
  simp only [hop, TapeInfo.atEod_inside hi, Bool.false_eq_true, if_false, Chip.askMove_modTape]
  refine ((h.readsOn (t := (ch.decks.get d).tape.here) h.bare rfl _).verify hop h0 hn ?_).trans ?_
  · simpa using TapeInfo.atEod_inside (t := (ch.decks.get d).tape.here) hi
  · simp only [Chip.modDeck_decks, vector_get_set_self]
    exact Chip.orderRead_reads ..

theorem Chip.Begins.space (hop : o.op = .space) (h0 : o.rest ≠ 0) (hk : byteAt o.payload 1 ≠ 2#8)
    (hf : 0 < o.rest → (ch.decks.get d).tape.object.toNat < (ch.decks.get d).tape.eodObject.toNat)
    (hb : o.rest < 0 → (ch.decks.get d).tape.object ≠ 0) :
    ch.startReading d o = ch.modDeck d (·.reads (ch.decks.get d).tape.here
      [.read (if o.rest < 0 ∧ (ch.decks.get d).tape.eodObject.toNat ≤ (ch.decks.get d).tape.object.toNat then (ch.decks.get d).tape.dataset - 1
        else (ch.decks.get d).tape.dataset)]) := by
  have hd : ((ch.modTape d TapeInfo.here).decks.get d).tape = (ch.decks.get d).tape.here := by simp [Chip.modTape]
  have h1 : ¬ (0 < o.rest ∧ ((ch.modTape d TapeInfo.here).decks.get d).tape.atEod = true) := fun ⟨hp, ha⟩ => by
    rw [hd, TapeInfo.here_atEod] at ha
    exact absurd (of_decide_eq_true ha) (Nat.not_le.mpr (hf hp))
  have h2 : ¬ (o.rest < 0 ∧ ((ch.modTape d TapeInfo.here).decks.get d).tape.atBop = true) := fun ⟨hn, ha⟩ => by
    rw [hd] at ha
    exact hb hn (of_decide_eq_true ha)
  have hs : ch.startReading d o = (ch.modDeck d (·.reads (ch.decks.get d).tape.here (ch.decks.get d).readQ)).readOn d := by
    unfold Chip.startReading
    simp only [hop]
    refine (if_neg hk).trans ((if_neg h1).trans ((if_neg h2).trans ?_))
    rw [Chip.askMove_modTape]
    rfl
  refine hs.trans (((h.readsOn (t := (ch.decks.get d).tape.here) h.bare rfl _).space hop h0 ?_ ?_).trans ?_)
  · intro hp
    simpa using TapeInfo.atEod_inside (t := (ch.decks.get d).tape.here) (hf hp)
  · intro hn
    simpa using hb hn
  · simp only [Chip.modDeck_decks, vector_get_set_self, DeckAll.reads_tape, TapeInfo.here_atEod, decide_eq_true_eq]
    exact Chip.orderRead_reads ..

/-- LOCATE of a place before its partition's end of data goes into that partition (R214). -/
theorem Chip.Begins.locate (hop : o.op = .locate) {byDataset : Bool} {q : Fin 4} {x : W64}
    (hm : byteAt o.payload 1 = if byDataset then 1 else 0) (hq : byteAt o.payload 2 = BitVec.ofNat 8 q.val) (hx : leAt o.payload 8 8 = x.toNat)
    (hi : x.toNat < (if byDataset then (ch.decks.get d).tape.eodDs.get q else (ch.decks.get d).tape.eodObj.get q).toNat) {l : Label}
    (hl : (ch.decks.get d).tape.label = some l) :
    ch.startReading d o = ch.modDeck d (·.reads
      (if (ch.decks.get d).tape.partition.toNat = q.val then (ch.decks.get d).tape.here
       else { (ch.decks.get d).tape.here with partition := BitVec.ofNat 2 q.val, wrap := BitVec.ofNat 6 (l.firstWrap q.val) })
      [if byDataset then .read x else .scan]) := by
  obtain ⟨hp, hf, hpq⟩ := partition_of q
  have hbeyond : (decide ((byteAt o.payload 1).toNat = 2) ||
      (decide ((byteAt o.payload 1).toNat = 0) && decide (((ch.decks.get d).tape.eodObj.get q).toNat ≤ x.toNat)) ||
      (decide ((byteAt o.payload 1).toNat = 1) && decide (((ch.decks.get d).tape.eodDs.get q).toNat ≤ x.toNat))) = false := by
    cases byDataset <;> simp_all
  have hord : (if byteAt o.payload 1 = 1#8 then ReadOrder.read (BitVec.ofNat 64 (leAt o.payload 8 8)) else .scan)
      = if byDataset then .read x else .scan := by
    cases byDataset <;> simp_all
  have hs : ch.startReading d o = (ch.modDeck d (·.reads ((ch.decks.get d).tape.here.into q) (ch.decks.get d).readQ)).readOn d := by
    unfold Chip.startReading
    simp only [hop, hq, hx, hp, hf, hbeyond, Bool.false_eq_true, if_false]
    have hin : (ch.modTape d TapeInfo.here).modTape d (TapeInfo.into q) = ch.modTape d (fun t => t.here.into q) := Chip.modDeck_modDeck ..
    rw [← Chip.askMove_modTape ch d (fun t => t.here.into q), ← hin]
    rfl
  have ht := TapeInfo.into_eq (t := (ch.decks.get d).tape.here) h.bare hl q
  refine hs.trans (((h.readsOn (t := (ch.decks.get d).tape.here.into q) ?_ ?_ _).locate hop).trans ?_)
  · rw [ht]
    split <;> exact h.bare
  · rw [ht]
    split <;> rfl
  · rw [Chip.orderRead_reads, hord, ht]
    rfl

omit h in
theorem Chip.startReading_rewind (hop : o.op = .rewind) (hb : ¬ ((ch.decks.get d).tape.atBop = true ∧ (ch.decks.get d).tape.partition = 0))
    (hq : (ch.decks.get d).readQ = []) :
    ch.startReading d o = ch.modDeck d (·.reads (ch.decks.get d).tape.here []) := by
  unfold Chip.startReading
  simp only [hop]
  have hs : (ch.decks.get d).readSpeed = ((ch.modTape d TapeInfo.here).decks.get d).readSpeed := by simp [Chip.modTape, DeckAll.readSpeed]
  rw [if_neg hb, hs]
  exact (Chip.askMove_modTape ch d TapeInfo.here).trans (by rw [hq])

end

/-! ### An operation that ends where it begins (R212, R213, R216) -/

theorem Chip.finish_unmoved {ch : Chip} {d : Deck} {o : DeckOp} (h : (ch.decks.get d).seq.op = some o) (hm : o.moving = false)
    (hs : o.silent = false) (hop : o.op ≠ .deckUnlock) (st : Stat) (payload : List Byte) :
    ch.finish d st payload
      = (ch.modDeck d (fun k => k.modSeq (fun q => { q with op := none }))).complete o.ctx o.tag o.rcrc st payload := by
  unfold Chip.finish Chip.endOp
  simp only [h, hm, hs, hop, false_and, Bool.false_eq_true, if_false]

/-- An operation that has not moved tape ends at once, its base state noted. -/
theorem State.started_finish {s : State} {h : CmdHdr} {d : Deck} {op : Op} (ho : (s.chip.ctxs.get h.ctx).state = .open)
    (he : (s.chip.ctxs.get h.ctx).executing = []) (hn : (s.chip.decks.get d).seq.op = none) (hop : op ≠ .deckUnlock) (rest : List Cmd)
    (p : List Byte) (n : Int) (st : Stat) (payload : List Byte) :
    ((s.started h rest op d).chip.modDeck d (·.runs (runningOp op h p n false))).finish d st payload
      = (s.deckAnswered h rest d { s.chip.decks.get d with seq.base := (s.chip.decks.get d).seq.baseState } st payload).chip := by
  have hd : (((s.started h rest op d).chip.modDeck d (·.runs (runningOp op h p n false))).decks.get d).seq.op
      = some (runningOp op h p n false) := by simp [DeckAll.runs]
  rw [Chip.finish_unmoved hd rfl rfl hop, Chip.modDeck_modDeck]
  refine (State.started_complete ho he rest op d _ st payload).trans ?_
  simp only [DeckAll.modSeq, DeckAll.runs, ← hn]

/-- The event of an operation that has begun goes to the context whose command it is. -/
theorem State.started_postDeck {s : State} {h : CmdHdr} {d : Deck} (hh : s.Hears d h.ctx) (rest : List Cmd) (op : Op) (o : DeckOp) {code : Byte}
    (h1 : code ≠ Ev.deckState) (h2 : code ≠ Ev.faultStop) (unit : Nat) (arg : W32) :
    ((s.started h rest op d).chip.modDeck d (·.runs o)).postDeck d code unit arg
      = (((s.told d h.ctx code unit arg).started h rest op d).chip.modDeck d (·.runs o)) := by
  obtain ⟨hv, hl, ho, he⟩ := hh
  have hu : ((s.started h rest op d).withDeck d ((s.chip.decks.get d).runs o)).Hears d h.ctx :=
    ⟨hv, by simpa [State.withDeck, DeckAll.runs] using hl, by simpa [State.withDeck, State.started, Context.isOpen] using ho, he⟩
  exact State.postDeck_told hu h1 h2 unit arg

/-! ### The checks of an operation on a loaded tape (Tables 7-2, 8-2, 18-5) -/

theorem Chip.order9_onTape {ch : Chip} {op : Op} {d : Deck} (ht : op.onTape = true) (hb : (ch.decks.get d).seq.baseState = .ready)
    (hh : (ch.decks.get d).io.home.homed = true) (hr : ch.timebase.refState = .locked) (p : List Byte) : ch.order9 op p d = none := by
  unfold Chip.order9
  split <;> simp_all [Op.onTape]

/-- A tape of this format, and a position from which the opcode may begin. -/
theorem Chip.order9bcd_krf {ch : Chip} {op : Op} {d : Deck} (hm : (ch.decks.get d).tape.media = some .krf)
    (hw : op.writeSide = true → op ≠ .formatTape → (ch.decks.get d).tape.mid = false ∧ ∀ f l, (ch.decks.get d).profile = some f →
      (ch.decks.get d).tape.label = some l → lagCells f.rwOffset l.cellLength ≤ 2232)
    (hr : op = .readMore → (ch.decks.get d).tape.mid = true) : ch.order9bcd op d = none := by
  have hmid : decide (op = .writeRecord ∨ op = .writeFilemark ∨ op = .eraseFromHere) = true → (ch.decks.get d).tape.mid = false := fun ho => by
    rcases of_decide_eq_true ho with rfl | rfl | rfl <;> exact (hw rfl (by decide)).1
  have hfar : (op.writeSide && decide (op ≠ .formatTape)) = true → (match (ch.decks.get d).profile, (ch.decks.get d).tape.label with
      | some f, some l => decide (2232 < lagCells f.rwOffset l.cellLength)
      | _, _ => false) = false := fun ho => by
    obtain ⟨h1, h2⟩ := Bool.and_eq_true_iff.mp ho
    split
    · exact decide_eq_false (Nat.not_lt.mpr ((hw h1 (of_decide_eq_true h2)).2 _ _ ‹_› ‹_›))
    · rfl
  have hmore : decide (op = .readMore) = true → (!(ch.decks.get d).tape.mid) = false := fun ho => by rw [hr (of_decide_eq_true ho)]; rfl
  unfold Chip.order9bcd
  split
  · rfl
  refine firstFail_none ?_
  simp only [hm, List.mem_cons, List.not_mem_nil, or_false, forall_eq_or_imp, forall_eq, Option.isNone_some, Option.some.injEq, reduceCtorEq,
    decide_false, ne_eq, not_true_eq_false, Bool.and_false, Bool.false_and, true_and, Bool.and_eq_false_imp]
  exact ⟨hmid, hmore, fun h1 => hfar (by simpa using h1)⟩

theorem Chip.deckBusy_idle {ch : Chip} {op : Op} {d : Deck} (h1 : op ≠ .loopOpen) (h2 : op ≠ .loopClose)
    (hn : (ch.decks.get d).seq.op = none) (hr : ch.kettle.raising = []) (hs : (ch.decks.get d).seq.state.inSequence = false)
    (he : (ch.decks.get d).opEnding = false) (p : List Byte) : ch.deckBusy op p d = false := by
  have hp : ch.raisePending d = false := by simp [Chip.raisePending, hr]
  unfold Chip.deckBusy
  split <;> simp_all

/-- The operations that work on the tape of a loaded deck. -/
def tapeOps : List Op := [.readRecord, .readMore, .verify, .locate, .space, .rewind, .eraseFromHere, .formatTape]

theorem tapeOps_class : ∀ op ∈ tapeOps, op.onTape = true ∧ op ≠ .loopOpen ∧ op ≠ .loopClose ∧ op ≠ .writeRecord ∧ op ≠ .writeFilemark ∧
    op ≠ .compressionSet ∧ (op.readSide = true → op.writeSide = false) := by
  decide

/-- A deck that stands still stands READY when a tape is loaded. -/
theorem State.Loaded.ready {s : State} {d : Deck} (hl : s.Loaded d) (hi : s.Still d) : (s.chip.decks.get d).seq.state = .ready := by
  obtain ⟨h1, -⟩ := hl
  obtain ⟨⟨h2, -⟩, -⟩ := hi
  rcases h1 with h | h | h
  · exact h
  · rcases h2 with g | g | g <;> simp [h] at g
  · rcases h2 with g | g | g <;> simp [h] at g

theorem Chip.declareAndAct_none {ch : Chip} {cmd : Cmd} {d : Deck} (h : ch.loadFor cmd d = none) : ch.declareAndAct cmd d = ch.act cmd d := by
  unfold Chip.declareAndAct
  simp only [h]

/-- The declaration that the operation needs is in force (R203). -/
theorem Chip.loadFor_declared {ch : Chip} {d : Deck} {op : Op} {h : CmdHdr} {p : List Byte} (hop : op ∈ tapeOps)
    (hd : (ch.decks.get d).tape.declared = some op.writeSide) : ch.loadFor (cmdOf op h p) d = none := by
  have hw : ∀ o ∈ tapeOps, ¬ (o.writeSide = true ∧ some o.writeSide ≠ some true) := by decide
  have hr : ∀ o ∈ tapeOps, ¬ (o.readSide = true ∧ some o.writeSide ≠ some false) := by decide
  have hs : ∀ o ∈ tapeOps, o ≠ .load ∧ o ≠ .home ∧ o ≠ .unload ∧ o ≠ .compressionSet := by decide
  obtain ⟨h1, h2, h3, h4⟩ := hs op hop
  have e : (cmdOf op h p).op = op := rfl
  unfold Chip.loadFor
  cases hp : (ch.decks.get d).profile with
  | none => simp only [hp]
  | some f =>
    simp only [hp, e, hd, hw op hop, hr op hop, h4, if_false, false_and]
    split <;> simp_all

theorem Chip.noteDeclared_same {ch : Chip} {op : Op} {d : Deck}
    (h : op.writeSide = true ∨ op.readSide = true → (ch.decks.get d).tape.declared = some op.writeSide) : ch.noteDeclared op d = ch := by
  unfold Chip.noteDeclared
  split
  · exact Chip.modDeck_fixed (by simp only [← h ‹_›])
  · rfl

/-- Every check of order 3 and later lets the operation through, and it has nothing to declare. -/
theorem State.Loaded.run_tapeOp {s : State} {h : CmdHdr} {d : Deck} {op : Op} {p : List Byte} (hl : s.Loaded d) (hi : s.Still d)
    (hk : s.Locked h d) (hop : op ∈ tapeOps) (rest : List Cmd)
    (hw : op.writeSide = true → op ≠ .formatTape → (s.chip.decks.get d).tape.mid = false ∧ ∀ f l, (s.chip.decks.get d).profile = some f →
      (s.chip.decks.get d).tape.label = some l → lagCells f.rwOffset l.cellLength ≤ 2232)
    (hr : op = .readMore → (s.chip.decks.get d).tape.mid = true)
    (hd : (s.chip.decks.get d).tape.declared = some op.writeSide) :
    (s.started h rest op d).chip.run (cmdOf op h p) d = (s.started h rest op d).chip.effect (cmdOf op h p) d := by
  have hst := hl.ready hi
  obtain ⟨-, hcart, hprof, htrip, hhome, href, hmedia, hop0, hend, hraise, hheld⟩ := hl
  obtain ⟨-, hdeck, hlock, -⟩ := hk
  obtain ⟨ht, ho1, ho2, hw1, hw2, hcomp, hrw⟩ := tapeOps_class op hop
  have hbase : (s.chip.decks.get d).seq.baseState = .ready := by simp [DeckSeq.baseState, hst]
  have hnd : (s.chip.decks.get d).seq.state ≠ .dormant := by rw [hst]; decide
  have hns : (s.chip.decks.get d).seq.state.inSequence = false := by rw [hst]; rfl
  have hj : (s.started h rest op d).chip.judge (cmdOf op h p) d = none :=
    Chip.judge_none ⟨hdeck, hlock, hnd, fun _ => hcart, fun _ => hprof, fun _ => htrip⟩
      (Chip.order9_onTape ht hbase hhome href p) (Chip.order9bcd_krf hmedia hw hr)
      (Chip.deckBusy_idle ho1 ho2 hop0 hraise hns hend p)
  rw [Chip.run_none hj (Chip.engineHeld_none hheld ..) (Chip.ticketRefuses_none hw1 hw2)]
  have hnote : (s.started h rest op d).chip.noteDeclared op d = (s.started h rest op d).chip := Chip.noteDeclared_same fun _ => hd
  rw [Chip.declareAndAct_none (Chip.loadFor_declared hop (by exact hd))]
  exact congrArg (fun c => c.effect (cmdOf op h p) d) hnote

/-! ### The reading operations -/

def readingOps : List Op := [.readRecord, .readMore, .verify, .locate, .space, .rewind]

theorem readingOps_class : ∀ op ∈ readingOps, op ∈ tapeOps ∧ op.writeSide = false ∧ op ≠ .ctxOpen ∧ op ≠ .deckUnlock := by
  decide

theorem Chip.effect_reading {ch : Chip} {op : Op} (hop : op ∈ readingOps) (h : CmdHdr) (p : List Byte) (d : Deck) :
    ch.effect (cmdOf op h p) d = ch.actOp (cmdOf op h p) d := by
  simp only [readingOps, List.mem_cons, List.not_mem_nil, or_false] at hop
  rcases hop with rfl | rfl | rfl | rfl | rfl | rfl <;> rfl

theorem Chip.modOp_unflushed {ch : Chip} {d : Deck} {o : DeckOp} (ho : (ch.decks.get d).seq.op = some o) (hf : o.flushing = false) :
    ch.modOp d (fun o => { o with flushing := false }) = ch := by
  refine Chip.modDeck_fixed ?_
  simp only [DeckAll.modSeq, ho, Option.map_some, ← hf]
  rw [← ho]

theorem Chip.begin_reading {ch : Chip} {d : Deck} {o : DeckOp} (hop : o.op ∈ readingOps) (ho : (ch.decks.get d).seq.op = some o)
    (hf : o.flushing = false) : ch.begin d = ch.startReading d o := by
  unfold Chip.begin
  simp only [ho, Chip.modOp_unflushed ho hf]
  simp only [readingOps, List.mem_cons, List.not_mem_nil, or_false] at hop
  rcases hop with h | h | h | h | h | h <;> simp only [h]

section
variable {s : State} {h : CmdHdr} {rest : List Cmd} {d : Deck} {op : Op} {p : List Byte}

/-- The deck of a reading operation that has begun. -/
def State.reading (s : State) (h : CmdHdr) (rest : List Cmd) (op : Op) (d : Deck) (p : List Byte) (n : Int) : Chip :=
  (s.started h rest op d).chip.modDeck d (·.runs (runningOp op h p n false))

/-- A reading operation that is in order begins. -/
theorem deckEffect_reading (hs : s.Heads op h p rest) (hk : s.Locked h d) (hl : s.Loaded d) (hi : s.Still d)
    (hd : (s.chip.decks.get d).tape.declared = some false) (hop : op ∈ readingOps) (hdeck : deckOf p = some d) (hr : reservedBad op p = false)
    (hb : s.chip.rangeBad op p = false) (hm : op = .readMore → (s.chip.decks.get d).tape.mid = true) :
    deckEffect op h p s.chip = (s.reading h rest op d p (spaceCount op p)).startReading d (runningOp op h p (spaceCount op p) false) := by
  obtain ⟨htape, hw, hopen, -⟩ := readingOps_class op hop
  rw [deckEffect_run hs hk hopen hdeck hr hb,
    hl.run_tapeOp hi hk htape rest (by simp [hw]) hm (by rw [hw]; exact hd), Chip.effect_reading hop, hi.actOp]
  refine Chip.begin_reading hop ?_ rfl
  simp [DeckAll.runs]

/-- The state in which the reading operation of the command has set off on the tape `t`, with `order` for Strainer. -/
def State.setOff (s : State) (h : CmdHdr) (rest : List Cmd) (op : Op) (d : Deck) (p : List Byte) (n : Int) (t : TapeInfo) (order : List ReadOrder) :
    State :=
  let k := s.chip.decks.get d
  { s.started h rest op d with
    chip.decks := s.chip.decks.set d { k with
      seq := { k.seq with base := .ready, op := some (runningOp op h p n true) }
      workQ := k.workQ ++ [.move k.readSpeed]
      matcher := { k.matcher with target := k.matcher.hi }
      roller := { k.roller with nextP0 := none, eraseFrom := none }
      readQ := order
      tape := t } }

theorem State.reading_reads (hst : (s.chip.decks.get d).seq.state = .ready) (n : Int) (t : TapeInfo) (order : List ReadOrder) :
    (s.reading h rest op d p n).modDeck d (·.reads t order) = (s.setOff h rest op d p n t order).chip := by
  have hb : (s.chip.decks.get d).seq.baseState = .ready := by simp [DeckSeq.baseState, hst]
  rw [State.reading, Chip.modDeck_modDeck, State.setOff, ← hb]
  rfl

/-- The state in which the command has met EOD: EOD has gone out, and its completion with `reply`. -/
def State.metEod (s : State) (h : CmdHdr) (rest : List Cmd) (d : Deck) (reply : List Byte) : State :=
  let k := s.chip.decks.get d
  { s.deckAnswered h rest d { k with seq.base := .ready } Stat.eod reply with
    chip.log := (s.told d h.ctx 0x23 (51 + 6 * d.val) (k.tape.eodDataset.setWidth 32)).chip.log
    chip.events := (s.told d h.ctx 0x23 (51 + 6 * d.val) (k.tape.eodDataset.setWidth 32)).chip.events }

/-- What has begun and not set off. -/
theorem State.reading_begins (hi : s.Still d) (h1 : (s.chip.decks.get d).tape.Bare) (n : Int) :
    (s.reading h rest op d p n).Begins d (runningOp op h p n false) := by
  have hd : (s.reading h rest op d p n).decks.get d = (s.chip.decks.get d).runs (runningOp op h p n false) := by simp [State.reading, State.started]
  obtain ⟨⟨-, -, -, -, -, -, -, -, -, -, -, -, -, -, -, -, hx, -, hw, -⟩, -⟩ := hi
  exact ⟨by rw [hd]; rfl, by rw [hd]; exact h1, by rw [hd]; exact hw, by rw [hd]; exact hx⟩

@[simp] theorem State.reading_tape (n : Int) : ((s.reading h rest op d p n).decks.get d).tape = (s.chip.decks.get d).tape := by
  simp [State.reading, State.started, DeckAll.runs]

@[simp] theorem State.reading_readQ (n : Int) : ((s.reading h rest op d p n).decks.get d).readQ = (s.chip.decks.get d).readQ := by
  simp [State.reading, State.started, DeckAll.runs]

/-- An operation that meets EOD where it begins, not beyond an incomplete dataset: EOD goes out, and its completion (R212, R213). -/
theorem State.reading_meetEod (hs : s.Heads op h p rest) (hk : s.Locked h d) (hh : s.Hears d h.ctx)
    (hop : op = .readRecord ∨ op = .verify) (hn : (s.chip.decks.get d).seq.op = none)
    (hinc : (s.chip.decks.get d).tape.incompleteHere = false) (hst : (s.chip.decks.get d).seq.state = .ready) (n : Int) :
    (s.reading h rest op d p n).meetEod d
      = (s.metEod h rest d (if op = .verify then List.replicate 24 0 else (s.chip.decks.get d).tape.readReply 0 0 0)).chip := by
  have hb : (s.chip.decks.get d).seq.baseState = .ready := by simp [DeckSeq.baseState, hst]
  have ho : ((s.reading h rest op d p n).decks.get d).seq.op = some (runningOp op h p n false) := by simp [State.reading, DeckAll.runs]
  have hp : ∀ arg, (s.reading h rest op d p n).postDeck d Ev.eod (engineUnit d 3) arg
      = (s.told d h.ctx 0x23 (51 + 6 * d.val) arg).reading h rest op d p n := fun arg => by
    rw [show 51 + 6 * d.val = engineUnit d 3 by unfold engineUnit; omega]
    exact State.started_postDeck hh rest op _ (by decide) (by decide) _ arg
  have hf : ∀ arg payload, ((s.told d h.ctx 0x23 (51 + 6 * d.val) arg).reading h rest op d p n).finish d Stat.eod payload
      = ((s.told d h.ctx 0x23 (51 + 6 * d.val) arg).deckAnswered h rest d { s.chip.decks.get d with seq.base := .ready } Stat.eod payload).chip :=
    fun arg payload => by
      rw [← hb]
      exact State.started_finish (s := s.told d h.ctx 0x23 (51 + 6 * d.val) arg) hs.2.1 hk.1 hn (by rcases hop with rfl | rfl <;> decide) rest p n
        Stat.eod payload
  unfold Chip.meetEod
  simp only [ho, State.reading_tape, hinc, hp]
  rcases hop with rfl | rfl
  · exact hf ..
  · have hv : (runningOp .verify h p n false).verifyReply = List.replicate 24 0 := by
      show leBytes 4 0 ++ leBytes 4 0 ++ leBytes 4 0 ++ leBytes 4 0 ++ leBytes 4 0 ++ leBytes 4 0 = _
      decide
    have hr : (runningOp .verify h p n false).recovered Stat.eod = Stat.eod := rfl
    rw [hv, hr]
    exact hf _ _

end

/-! ### The payloads (Tables 8-5 to 8-7) -/

section
variable {ch : Chip} {d : Deck}

/-- Bytes 4 to 7 after the first four. -/
theorem leAt_after4 {n : Nat} (hn : n < 2 ^ 32) (a b c e : Byte) : leAt ([a, b, c, e] ++ leBytes 4 n) 4 4 = n := by
  simpa using leAt_field (a := [a, b, c, e]) (k := 4) (c := []) hn

theorem rangeBad_read {op : Op} (hop : op = .readRecord ∨ op = .readMore) {n : Nat} (hn : n ≤ 16777215) :
    ch.rangeBad op ([BitVec.ofNat 8 d.val, 0, 0, 0] ++ leBytes 4 n) = false := by
  have h4 : leAt ([BitVec.ofNat 8 d.val, 0, 0, 0] ++ leBytes 4 n) 4 4 = n := leAt_after4 (by omega) ..
  have hd : deckOf ([BitVec.ofNat 8 d.val, 0, 0, 0] ++ leBytes 4 n) = some d := deckOf_cons ..
  unfold Chip.rangeBad
  rcases hop with rfl | rfl <;> simp only [hd, h4, hn, decide_true, Bool.not_true]

/-- VERIFY's count and its flag. -/
theorem verify_payload (toEod : Bool) (c : W16) :
    byteAt ([BitVec.ofNat 8 d.val, if toEod then 1 else 0] ++ leBytes 2 c.toNat ++ [0, 0, 0, 0]) 1 = (if toEod then 1 else 0) ∧
    leAt ([BitVec.ofNat 8 d.val, if toEod then 1 else 0] ++ leBytes 2 c.toNat ++ [0, 0, 0, 0]) 2 2 = c.toNat := by
  refine ⟨rfl, ?_⟩
  rw [List.append_assoc]
  exact leAt_field (a := [BitVec.ofNat 8 d.val, if toEod then 1 else 0]) (k := 2) c.isLt

theorem rangeBad_verify {toEod : Bool} {c : W16} (hc : toEod = true ↔ c = 0) :
    ch.rangeBad .verify ([BitVec.ofNat 8 d.val, if toEod then 1 else 0] ++ leBytes 2 c.toNat ++ [0, 0, 0, 0]) = false := by
  obtain ⟨h1, h2⟩ := verify_payload (d := d) toEod c
  have hd : deckOf ([BitVec.ofNat 8 d.val, if toEod then 1 else 0] ++ leBytes 2 c.toNat ++ [0, 0, 0, 0]) = some d := deckOf_cons ..
  have h0 : c.toNat = 0 ↔ c = 0 := by rw [← BitVec.toNat_inj]; rfl
  unfold Chip.rangeBad
  simp only [hd, h1, h2]
  cases toEod <;> simp_all

theorem locate_payload (byDataset : Bool) (q : Fin 4) (x : W64) :
    byteAt ([BitVec.ofNat 8 d.val, if byDataset then 1 else 0, BitVec.ofNat 8 q.val, 0, 0, 0, 0, 0] ++ leBytes 8 x.toNat) 1
      = (if byDataset then 1 else 0) ∧
    byteAt ([BitVec.ofNat 8 d.val, if byDataset then 1 else 0, BitVec.ofNat 8 q.val, 0, 0, 0, 0, 0] ++ leBytes 8 x.toNat) 2 = BitVec.ofNat 8 q.val ∧
    leAt ([BitVec.ofNat 8 d.val, if byDataset then 1 else 0, BitVec.ofNat 8 q.val, 0, 0, 0, 0, 0] ++ leBytes 8 x.toNat) 8 8 = x.toNat := by
  refine ⟨rfl, rfl, ?_⟩
  simpa using leAt_field (a := [BitVec.ofNat 8 d.val, if byDataset then 1 else 0, BitVec.ofNat 8 q.val, 0, 0, 0, 0, 0]) (k := 8) (c := []) x.isLt

theorem rangeBad_locate {byDataset : Bool} {q : Fin 4} {x : W64} {l : Label} (hl : (ch.decks.get d).tape.label = some l) (hq : q.val < l.partitions) :
    ch.rangeBad .locate ([BitVec.ofNat 8 d.val, if byDataset then 1 else 0, BitVec.ofNat 8 q.val, 0, 0, 0, 0, 0] ++ leBytes 8 x.toNat) = false := by
  obtain ⟨h1, h2, -⟩ := locate_payload (d := d) byDataset q x
  have hd : deckOf ([BitVec.ofNat 8 d.val, if byDataset then 1 else 0, BitVec.ofNat 8 q.val, 0, 0, 0, 0, 0] ++ leBytes 8 x.toNat) = some d := deckOf_cons ..
  have hqn : (BitVec.ofNat 8 q.val).toNat = q.val := by simp; omega
  unfold Chip.rangeBad
  simp only [hd, h1, h2, hl, hqn, hq]
  cases byDataset <;> simp

theorem space_payload (marks : Bool) (c : W32) :
    byteAt ([BitVec.ofNat 8 d.val, if marks then 1 else 0, 0, 0] ++ leBytes 4 c.toNat) 1 = (if marks then 1 else 0) ∧
    leAt ([BitVec.ofNat 8 d.val, if marks then 1 else 0, 0, 0] ++ leBytes 4 c.toNat) 4 4 = c.toNat :=
  ⟨rfl, leAt_after4 c.isLt ..⟩

theorem rangeBad_space {marks : Bool} {c : W32} (hc : c ≠ 0) :
    ch.rangeBad .space ([BitVec.ofNat 8 d.val, if marks then 1 else 0, 0, 0] ++ leBytes 4 c.toNat) = false := by
  obtain ⟨h1, h2⟩ := space_payload (d := d) marks c
  have hd : deckOf ([BitVec.ofNat 8 d.val, if marks then 1 else 0, 0, 0] ++ leBytes 4 c.toNat) = some d := deckOf_cons ..
  have h0 : c.toNat ≠ 0 := fun e => hc (BitVec.eq_of_toNat_eq e)
  unfold Chip.rangeBad
  simp only [hd, h1, h2, h0]
  cases marks <;> simp

end

/-! ### The commands -/

/-- A deck from which a reading operation may start: still, loaded, under the read declaration, with nothing in Strainer's hand. -/
structure State.ReadyToRead (s : State) (h : CmdHdr) (d : Deck) : Prop where
  locked : s.Locked h d
  loaded : s.Loaded d
  still : s.Still d
  declared : (s.chip.decks.get d).tape.declared = some false
  bare : (s.chip.decks.get d).tape.Bare

section
variable {s : State} {h : CmdHdr} {rest : List Cmd} {d : Deck} {op : Op} {p : List Byte} (hr : s.ReadyToRead h d)
include hr

/-- What a reading operation does is what its first step does. -/
theorem State.ReadyToRead.exec {t : State} (hop : op ∈ readingOps) (hd : deckOf p = some d) (h1 : reservedBad op p = false)
    (h2 : s.chip.rangeBad op p = false) (hm : op = .readMore → (s.chip.decks.get d).tape.mid = true)
    (he : (s.reading h rest op d p (spaceCount op p)).startReading d (runningOp op h p (spaceCount op p) false) = t.chip)
    (hp : t.pending = s.pending) (hs : s.Heads op h p rest) : s.onChip (deckEffect op h p) = .next t :=
  State.onChip_to ((deckEffect_reading hs hr.locked hr.loaded hr.still hr.declared hop hd h1 h2 hm).trans he) hp.symm

theorem State.ReadyToRead.begins (n : Int) : (s.reading h rest op d p n).Begins d (runningOp op h p n false) :=
  State.reading_begins hr.still hr.bare n

theorem State.ReadyToRead.reads (n : Int) (t : TapeInfo) (order : List ReadOrder) :
    (s.reading h rest op d p n).modDeck d (·.reads t order) = (s.setOff h rest op d p n t order).chip :=
  State.reading_reads (hr.loaded.ready hr.still) n t order

theorem State.ReadyToRead.readQ : (s.chip.decks.get d).readQ = [] := by
  obtain ⟨⟨-, -, -, -, -, -, -, -, -, -, -, -, -, -, -, hq, -⟩, -⟩ := hr.still
  exact hq

theorem exec_readRecord_starts {n : Nat} (hn : n ≤ 16777215) (hi : (s.chip.decks.get d).tape.object.toNat < (s.chip.decks.get d).tape.eodObject.toNat)
    (hc : (s.chip.decks.get d).tape.mid = false → (s.chip.decks.get d).tape.current = none)
    (hs : s.Heads .readRecord h ([BitVec.ofNat 8 d.val, 0, 0, 0] ++ leBytes 4 n) rest) :
    exec (.readRecord h ([BitVec.ofNat 8 d.val, 0, 0, 0] ++ leBytes 4 n)) s
      = .next (s.setOff h rest .readRecord d ([BitVec.ofNat 8 d.val, 0, 0, 0] ++ leBytes 4 n) 0 (s.chip.decks.get d).tape
          [.read (if (s.chip.decks.get d).tape.mid then ((s.chip.decks.get d).tape.current.map (·.ds)).getD (s.chip.decks.get d).tape.dataset
            else (s.chip.decks.get d).tape.dataset)]) := by
  refine hr.exec (by decide) (deckOf_cons ..) rfl (rangeBad_read (.inl rfl) hn) (fun e => nomatch e) ?_ rfl hs
  rw [(hr.begins _).readRecord rfl (by simpa using TapeInfo.atEod_inside hi) (by simpa using hc), hr.reads, State.reading_tape]
  rfl

theorem exec_readMore_starts {n : Nat} (hn : n ≤ 16777215) (hm : (s.chip.decks.get d).tape.mid = true)
    (hs : s.Heads .readMore h ([BitVec.ofNat 8 d.val, 0, 0, 0] ++ leBytes 4 n) rest) :
    exec (.readMore h ([BitVec.ofNat 8 d.val, 0, 0, 0] ++ leBytes 4 n)) s
      = .next (s.setOff h rest .readMore d ([BitVec.ofNat 8 d.val, 0, 0, 0] ++ leBytes 4 n) 0 (s.chip.decks.get d).tape
          (if (s.chip.decks.get d).tape.current.isSome then [] else [.read (s.chip.decks.get d).tape.dataset])) := by
  refine hr.exec (by decide) (deckOf_cons ..) rfl (rangeBad_read (.inr rfl) hn) (fun _ => hm) ?_ rfl hs
  rw [(hr.begins _).readMore rfl (by simpa using hm) (by simpa using hr.readQ), hr.reads, State.reading_tape]
  rfl

theorem exec_verify_starts {toEod : Bool} {c : W16} (hc : toEod = true ↔ c = 0)
    (hi : (s.chip.decks.get d).tape.object.toNat < (s.chip.decks.get d).tape.eodObject.toNat)
    (hs : s.Heads .verify h ([BitVec.ofNat 8 d.val, if toEod then 1 else 0] ++ leBytes 2 c.toNat ++ [0, 0, 0, 0]) rest) :
    exec (.verify h ([BitVec.ofNat 8 d.val, if toEod then 1 else 0] ++ leBytes 2 c.toNat ++ [0, 0, 0, 0])) s
      = .next (s.setOff h rest .verify d ([BitVec.ofNat 8 d.val, if toEod then 1 else 0] ++ leBytes 2 c.toNat ++ [0, 0, 0, 0]) 0
          (s.chip.decks.get d).tape.here [.read (s.chip.decks.get d).tape.dataset]) := by
  obtain ⟨h1, h2⟩ := verify_payload (d := d) toEod c
  have hn : (if toEod then (1 : Byte) else 0) = 0#8 → c.toNat ≠ 0 := by
    have h0 : c.toNat = 0 ↔ c = 0 := by rw [← BitVec.toNat_inj]; rfl
    cases toEod <;> simp_all
  refine hr.exec (by decide) (deckOf_cons ..) rfl (rangeBad_verify hc) (fun e => nomatch e) ?_ rfl hs
  rw [(hr.begins _).verify rfl rfl (by simpa only [runningOp, h1, h2] using hn) (by simpa using hi), hr.reads, State.reading_tape]
  rfl

theorem exec_locate_starts {byDataset : Bool} {q : Fin 4} {x : W64} {l : Label} (hl : (s.chip.decks.get d).tape.label = some l)
    (hq : q.val < l.partitions)
    (hx : x.toNat < (if byDataset then (s.chip.decks.get d).tape.eodDs.get q else (s.chip.decks.get d).tape.eodObj.get q).toNat)
    (hs : s.Heads .locate h ([BitVec.ofNat 8 d.val, if byDataset then 1 else 0, BitVec.ofNat 8 q.val, 0, 0, 0, 0, 0] ++ leBytes 8 x.toNat) rest) :
    exec (.locate h ([BitVec.ofNat 8 d.val, if byDataset then 1 else 0, BitVec.ofNat 8 q.val, 0, 0, 0, 0, 0] ++ leBytes 8 x.toNat)) s
      = .next (s.setOff h rest .locate d ([BitVec.ofNat 8 d.val, if byDataset then 1 else 0, BitVec.ofNat 8 q.val, 0, 0, 0, 0, 0] ++ leBytes 8 x.toNat) 0
          (if (s.chip.decks.get d).tape.partition.toNat = q.val then (s.chip.decks.get d).tape.here
           else { (s.chip.decks.get d).tape.here with partition := BitVec.ofNat 2 q.val, wrap := BitVec.ofNat 6 (l.firstWrap q.val) })
          [if byDataset then .read x else .scan]) := by
  obtain ⟨h1, h2, h3⟩ := locate_payload (d := d) byDataset q x
  refine hr.exec (by decide) (deckOf_cons ..) rfl (rangeBad_locate hl hq) (fun e => nomatch e) ?_ rfl hs
  rw [(hr.begins _).locate rfl h1 h2 h3 (by simpa using hx) (by simpa using hl), hr.reads, State.reading_tape]
  rfl

theorem exec_space_starts {marks : Bool} {c : W32} (hc : c ≠ 0)
    (hf : 0 < c.toInt → (s.chip.decks.get d).tape.object.toNat < (s.chip.decks.get d).tape.eodObject.toNat)
    (hb : c.toInt < 0 → (s.chip.decks.get d).tape.object ≠ 0)
    (hs : s.Heads .space h ([BitVec.ofNat 8 d.val, if marks then 1 else 0, 0, 0] ++ leBytes 4 c.toNat) rest) :
    exec (.space h ([BitVec.ofNat 8 d.val, if marks then 1 else 0, 0, 0] ++ leBytes 4 c.toNat)) s
      = .next (s.setOff h rest .space d ([BitVec.ofNat 8 d.val, if marks then 1 else 0, 0, 0] ++ leBytes 4 c.toNat) c.toInt
          (s.chip.decks.get d).tape.here
          [.read (if c.toInt < 0 ∧ (s.chip.decks.get d).tape.eodObject.toNat ≤ (s.chip.decks.get d).tape.object.toNat
            then (s.chip.decks.get d).tape.dataset - 1 else (s.chip.decks.get d).tape.dataset)]) := by
  obtain ⟨h1, h2⟩ := space_payload (d := d) marks c
  have hn : spaceCount .space ([BitVec.ofNat 8 d.val, if marks then 1 else 0, 0, 0] ++ leBytes 4 c.toNat) = c.toInt := by
    rw [spaceCount, if_pos rfl, h2, BitVec.ofNat_toNat, BitVec.setWidth_eq]
  have h0 : c.toInt ≠ 0 := fun e => hc (BitVec.eq_of_toInt_eq (e.trans (by decide)))
  have hk : (if marks then (1 : Byte) else 0) ≠ 2#8 := by cases marks <;> decide
  refine hr.exec (by decide) (deckOf_cons ..) rfl (rangeBad_space hc) (fun e => nomatch e) ?_ rfl hs
  rw [hn, (hr.begins c.toInt).space rfl (by exact h0) (by simpa only [runningOp, h1] using hk) (by simpa [runningOp] using hf) (by simpa [runningOp] using hb), hr.reads, State.reading_tape]
  rfl

theorem exec_rewind_starts (hb : ¬ ((s.chip.decks.get d).tape.atBop = true ∧ (s.chip.decks.get d).tape.partition = 0))
    (hs : s.Heads .rewind h [BitVec.ofNat 8 d.val, 0, 0, 0] rest) :
    exec (.rewind h [BitVec.ofNat 8 d.val, 0, 0, 0]) s
      = .next (s.setOff h rest .rewind d [BitVec.ofNat 8 d.val, 0, 0, 0] 0 (s.chip.decks.get d).tape.here []) := by
  refine hr.exec (by decide) (deckOf_cons ..) rfl (by simp [Chip.rangeBad, deckOf_cons]) (fun e => nomatch e) ?_ rfl hs
  rw [Chip.startReading_rewind rfl (by simpa using hb) (by simpa using hr.readQ), hr.reads, State.reading_tape]
  rfl

theorem exec_rewind_already (hb : (s.chip.decks.get d).tape.atBop = true) (hp : (s.chip.decks.get d).tape.partition = 0)
    (hs : s.Heads .rewind h [BitVec.ofNat 8 d.val, 0, 0, 0] rest) :
    exec (.rewind h [BitVec.ofNat 8 d.val, 0, 0, 0]) s
      = .next (s.deckAnswered h rest d { s.chip.decks.get d with seq.base := .ready } Stat.already []) := by
  have hbase : (s.chip.decks.get d).seq.baseState = .ready := by simp [DeckSeq.baseState, hr.loaded.ready hr.still]
  refine hr.exec (by decide) (deckOf_cons ..) rfl (by simp [Chip.rangeBad, deckOf_cons]) (fun e => nomatch e) ?_ rfl hs
  unfold Chip.startReading
  simp only [runningOp, State.reading_tape, hb, hp, and_self, if_true]
  rw [← hbase]
  exact State.started_finish hs.2.1 hr.locked.1 hr.still.1.2.1 (by decide) ..

/-- READ_RECORD and VERIFY at EOD. -/
theorem State.ReadyToRead.exec_meetEod (hop : op = .readRecord ∨ op = .verify) (hd : deckOf p = some d) (h1 : reservedBad op p = false)
    (h2 : s.chip.rangeBad op p = false) (ha : (s.chip.decks.get d).tape.atEod = true) (hinc : (s.chip.decks.get d).tape.incompleteHere = false)
    (hh : s.Hears d h.ctx) (hs : s.Heads op h p rest) :
    s.onChip (deckEffect op h p)
      = .next (s.metEod h rest d (if op = .verify then List.replicate 24 0 else (s.chip.decks.get d).tape.readReply 0 0 0)) := by
  refine hr.exec (by rcases hop with rfl | rfl <;> decide) hd h1 h2 (by rcases hop with rfl | rfl <;> exact fun e => nomatch e) ?_ rfl hs
  rw [← State.reading_meetEod hs hr.locked hh hop hr.still.1.2.1 hinc (hr.loaded.ready hr.still) (spaceCount op p)]
  unfold Chip.startReading
  rcases hop with rfl | rfl
  · simp only [runningOp, State.reading_tape, ha, if_true]
  · simp only [runningOp, State.reading_tape, ha, if_true]

end

/-- Settles O26: every check lets the operation through, it has nothing to declare and nothing to flush, and with nothing in Strainer's
hand its first step is to order a dataset; at EOD, or at BOP for REWIND, it ends where it begins. -/
theorem readingOperationsStart : Obligations.ReadingOperationsStart := by
  unfold Obligations.ReadingOperationsStart
  intro s h rest d hk hl hi k t hdecl hds hahead b here inside starts endsAtEod
  have hr : s.ReadyToRead h d := ⟨hk, hl, hi, hdecl, hds, hahead⟩
  refine ⟨fun n hn => ⟨fun hin hc => exec_readRecord_starts hr hn hin hc, fun _ hm => exec_readMore_starts hr hn hm, fun ha hinc hh =>
      hr.exec_meetEod (.inl rfl) (deckOf_cons ..) rfl (rangeBad_read (.inl rfl) hn) ha hinc hh⟩,
    fun toEod c hc => ⟨fun hin => exec_verify_starts hr hc hin, fun ha hinc hh =>
      hr.exec_meetEod (.inr rfl) (deckOf_cons ..) rfl (rangeBad_verify hc) ha hinc hh⟩,
    fun byDataset q x l hlab hq hx => exec_locate_starts hr hlab hq hx, fun marks c hc hf hb => exec_space_starts hr hc hf hb,
    fun hb => exec_rewind_starts hr hb, fun hs hb hp => exec_rewind_already hr hb hp hs⟩

end Sys2Proof.Machine
end

section
/-! SUPPORT. The starts of the motion and structure operations (R188, R193, R217, R218, R340, Table 18-5). -/

namespace Sys2Proof.Machine

/-! ### Roller takes its orders (R23, R489): the commands and deck sequencing stand -/

/-- Every context and every deck is in `b` as in `a`. -/
def Chip.SameWork (a b : Chip) : Prop := b.ctxs = a.ctxs ∧ b.decks = a.decks

theorem Chip.BufferOnly.sameWork {a b : Chip} (h : a.BufferOnly b) : a.SameWork b := by
  obtain ⟨l, m, k, g, rfl⟩ := h
  exact ⟨rfl, rfl⟩

theorem Chip.SameWork.trans {a b c : Chip} (h : a.SameWork b) (g : b.SameWork c) : a.SameWork c := ⟨g.1.trans h.1, g.2.trans h.2⟩

theorem Chip.sweepBlocks_bufferOnly (ch : Chip) : ch.BufferOnly ch.sweepBlocks := by
  unfold Chip.sweepBlocks
  dsimp only
  split
  · exact ch.failing_bufferOnly ..
  · exact (((ch.failing_bufferOnly ..).trans (.foldl (fun c i => c.logFault_bufferOnly ..) _ _)).trans (Chip.failing_bufferOnly ..)).trans
      (Chip.relist_bufferOnly ..)

theorem Chip.badOwner_sameWork (ch : Chip) (owner requester : Nat) : ch.SameWork (ch.badOwner owner requester) :=
  (Chip.BufferOnly.sameWork (Chip.logFault_bufferOnly (ch.modLadle (fun l => { l with badptr := l.badptr + 1 })) ..)).trans ⟨rfl, rfl⟩

theorem Chip.allocBlock_sameWork (ch : Chip) (requester owner : Nat) (critical : Bool) : ch.SameWork (ch.allocBlock requester owner critical) := by
  have hs := ch.sweepBlocks_bufferOnly.sameWork
  unfold Chip.allocBlock
  dsimp only
  split
  · exact ch.badOwner_sameWork ..
  generalize (if h : owner < 64 then decide (min (ch.ctxs.get ⟨owner, h⟩).blockQuota.toNat 64 < ch.ladle.blocksHeld owner + 1) else false) = full
  cases full with
  | true => exact ⟨rfl, rfl⟩
  | false =>
    rw [if_neg Bool.false_ne_true]
    split
    · split
      · exact hs
      · exact hs.trans (Chip.SameWork.trans (Chip.BufferOnly.sameWork (Chip.relist_bufferOnly ch.sweepBlocks _)) ⟨rfl, rfl⟩)
    · split <;> exact hs

/-- A buffer of one block draws nothing that it gives back. -/
theorem Chip.drawBuffer_sameWork (ch : Chip) (d : Deck) (critical : Bool) : ch.SameWork (ch.drawBuffer d 1 critical).1 := by
  unfold Chip.drawBuffer
  dsimp only
  split
  · exact ⟨rfl, rfl⟩
  · unfold Chip.drawBlocks
    split
    · exact ⟨rfl, rfl⟩
    · dsimp only
      split <;> exact ch.allocBlock_sameWork ..

/-- The contexts are in `b` as in `a`, and so are deck d's sequencing and staging. -/
def Chip.SameSeq (d : Deck) (a b : Chip) : Prop :=
  b.ctxs = a.ctxs ∧ (b.decks.get d).seq = (a.decks.get d).seq ∧ (b.decks.get d).staged = (a.decks.get d).staged

theorem Chip.SameWork.sameSeq {a b : Chip} (h : a.SameWork b) (d : Deck) : Chip.SameSeq d a b := by
  obtain ⟨h1, h2⟩ := h
  exact ⟨h1, by rw [h2], by rw [h2]⟩

theorem Chip.SameSeq.trans {d : Deck} {a b c : Chip} (h : Chip.SameSeq d a b) (g : Chip.SameSeq d b c) : Chip.SameSeq d a c := by
  obtain ⟨h1, h2, h3⟩ := h
  obtain ⟨g1, g2, g3⟩ := g
  exact ⟨g1.trans h1, g2.trans h2, g3.trans h3⟩

theorem Chip.pumpOrders_sameSeq (d : Deck) (n : Nat) (ch : Chip) : Chip.SameSeq d ch (Chip.pumpOrders d n ch) := by
  induction n generalizing ch with
  | zero => exact ⟨rfl, rfl, rfl⟩
  | succ n ih =>
    unfold Chip.pumpOrders
    dsimp only
    split
    · exact ⟨rfl, rfl, rfl⟩
    next ds rest _ =>
      split
      · exact ⟨rfl, rfl, rfl⟩
      · have hd := (ch.drawBuffer_sameWork d true).sameSeq d
        split
        next c1 h => rw [h] at hd; exact hd
        next c1 bs h =>
          rw [h] at hd
          exact hd.trans (Chip.SameSeq.trans (a := c1) (b := c1.modDeck d _) ⟨rfl, by simp, by simp⟩ (ih _))

/-- Roller takes what it can: with nothing staged that is orders only, and none while its domain is off. -/
theorem Chip.pump_sameSeq {ch : Chip} {d : Deck} (h : (ch.decks.get d).staged = []) : Chip.SameSeq d ch (ch.pump d) := by
  have ho := Chip.pumpOrders_sameSeq d 4 ch
  unfold Chip.pump
  split
  · unfold Chip.pumpStaged
    dsimp only
    rw [ho.2.2, h]
    exact ho
  · exact ⟨rfl, rfl, rfl⟩

theorem Chip.pump_off {ch : Chip} {d : Deck} (h : ch.domOn (50 + 6 * d.val) = false) : ch.pump d = ch := by
  unfold Chip.pump
  rw [engineUnit_roller, h]
  rfl

/-! ### Work that ends early: nothing, on a deck that does nothing (R178) -/

/-- A deck on which nothing reads, tunes, runs or waits for durability. -/
structure DeckAll.Quiet (k : DeckAll) : Prop where
  op : k.seq.op = none
  waiters : k.seq.waiters = []
  reading : k.endReading = k
  tuning : k.failTune = k

theorem DeckAll.Quiet.blocks {k : DeckAll} (h : k.Quiet) : k.strainer.blocks = [] := by
  rw [← h.reading]
  rfl

theorem Chip.abortWork_quiet {ch : Chip} {d : Deck} (h : (ch.decks.get d).Quiet) (hr : ch.kettle.raising = []) (st : Stat) :
    ch.abortWork d st = ch := by
  have hk : ch.modKettle (fun q => { q with raising := q.raising.filter (fun r => !r.waitsFor d) }) = ch := by
    rw [Chip.modKettle, hr, List.filter_nil, ← hr]
  have h1 : ch.dropRaises d st = ch := by simp [Chip.dropRaises, hr, hk]
  have h2 : ch.modDeck d DeckAll.failTune = ch := Chip.modDeck_fixed h.tuning
  have h3 : ch.endOp d st [] = ch := by simp [Chip.endOp, h.op]
  have h4 : ch.modDeck d (fun k => k.modSeq (fun q => { q with waiters := [] })) = ch :=
    Chip.modDeck_fixed (by simp only [DeckAll.modSeq, ← h.waiters])
  have h5 : ch.endWaiters d st = ch := by simp [Chip.endWaiters, h.waiters, h4]
  have h6 : ch.stopReading d = ch := by
    simp [Chip.stopReading, Chip.modDeck_fixed h.reading, h.blocks, Chip.releaseBlocks]
  have hw : (ch.decks.get d).writesStructures = false := by simp [DeckAll.writesStructures, h.op]
  simp [Chip.abortWork, h1, h2, h3, h5, h6, hw]

theorem DeckAll.Idle.quiet {k : DeckAll} (h : k.Idle) : k.Quiet := by
  obtain ⟨-, hop, hwait, -, -, -, -, -, -, -, -, -, -, -, -, hq, hx, -, hw, hr, hrows, hpass, hstall, hblocks, htune⟩ := h
  refine ⟨hop, hwait, ?_, ?_⟩
  · have htape : { k.tape with walk := none } = k.tape := by rw [← hw]
    have hstr : { k.strainer with reading := false, rows := [], pass := 0, stalled := false, blocks := [] } = k.strainer := by
      generalize k.strainer = x at *
      cases x
      simp_all
    rw [DeckAll.endReading, htape, hstr]
    cases k
    simp_all
  · have ht : k.loops.slots.map (fun s => s.endTune .failed) = k.loops.slots := by
      apply Vector.ext
      intro i hi
      rw [Vector.getElem_map]
      exact if_neg (htune ⟨i, hi⟩)
    rw [DeckAll.failTune, ht]

/-! ### The checks of the motion opcodes (Table 18-5) -/

/-- A still deck that its holder may command: no hold, a LOCKED reference, no engine held, no trip. -/
structure State.AtRest (s : State) (h : CmdHdr) (d : Deck) : Prop where
  locked : s.Locked h d
  still : s.Still d
  ref : s.chip.timebase.refState = .locked
  held : s.chip.log.held = []
  trip : ∀ a, ((s.chip.decks.get d).io.axes.get a).trip = false

def restOps : List Op := [.load, .home, .unload, .deckStop, .autotune]

theorem restOps_class : ∀ op ∈ restOps, op.onTape = false ∧ op ≠ .positionRead ∧ op ≠ .ctxOpen ∧ op ≠ .loopOpen ∧ op ≠ .loopClose ∧
    op ≠ .writeRecord ∧ op ≠ .writeFilemark ∧ op.writeSide = false ∧ op.readSide = false ∧ op ≠ .space ∧ op ≠ .compressionSet := by
  decide

theorem Chip.order9bcd_off {ch : Chip} {op : Op} (h1 : op.onTape = false) (h2 : op ≠ .positionRead) (d : Deck) : ch.order9bcd op d = none := by
  unfold Chip.order9bcd
  rw [if_pos (by simp [h1, h2])]

section
variable {s : State} {h : CmdHdr} {rest : List Cmd} {d : Deck} {op : Op} {p : List Byte} (hr : s.AtRest h d)
include hr

theorem State.AtRest.state : (s.chip.decks.get d).seq.state = .empty ∨ (s.chip.decks.get d).seq.state = .present ∨
    (s.chip.decks.get d).seq.state = .ready := hr.still.1.1

theorem State.AtRest.baseState : (s.chip.decks.get d).seq.baseState = (s.chip.decks.get d).seq.state := by
  rcases hr.state with e | e | e <;> simp [DeckSeq.baseState, e]

theorem State.AtRest.early (hcart : op.order6 = true → (s.chip.decks.get d).io.cart = true)
    (hprof : op.order7 = true → (s.chip.decks.get d).profile.isSome = true) : (s.started h rest op d).chip.Early (cmdOf op h p) d where
  held := hr.locked.2.1
  lock := hr.locked.2.2.1
  state := by
    show (s.chip.decks.get d).seq.state ≠ .dormant
    rcases hr.state with e | e | e <;> rw [e] <;> decide
  cart := hcart
  profile := hprof
  trip := fun _ => hr.trip

/-- A motion opcode that order 9 lets through comes to order 11. -/
theorem State.AtRest.run (hop : op ∈ restOps) (hcart : op.order6 = true → (s.chip.decks.get d).io.cart = true)
    (hprof : op.order7 = true → (s.chip.decks.get d).profile.isSome = true) (h9 : s.chip.order9 op p d = none) :
    (s.started h rest op d).chip.run (cmdOf op h p) d = (s.started h rest op d).chip.declareAndAct (cmdOf op h p) d := by
  obtain ⟨ht, hpos, -, ho1, ho2, hw1, hw2, -⟩ := restOps_class op hop
  obtain ⟨⟨-, hop0, -, -, -, -, -, -, -, -, -, -, -, -, -, -, -, hcook, -⟩, hraise, -⟩ := hr.still
  have hns : (s.chip.decks.get d).seq.state.inSequence = false := by
    rcases hr.state with e | e | e <;> rw [e] <;> rfl
  have hend : (s.chip.decks.get d).opEnding = false := by simp [DeckAll.opEnding, hcook]
  exact Chip.run_none (Chip.judge_none (hr.early hcart hprof) h9 (Chip.order9bcd_off ht hpos d)
    (Chip.deckBusy_idle ho1 ho2 hop0 hraise hns hend p)) (Chip.engineHeld_none hr.held ..) (Chip.ticketRefuses_none hw1 hw2)

/-- One that order 9 finds done already completes so. -/
theorem State.AtRest.run_already (hs : s.Heads op h p rest) (hop : op ≠ .load) (hcart : op.order6 = true → (s.chip.decks.get d).io.cart = true)
    (hprof : op.order7 = true → (s.chip.decks.get d).profile.isSome = true) (h9 : s.chip.order9 op p d = some Stat.already) :
    (s.started h rest op d).chip.run (cmdOf op h p) d = (s.deckAnswered h rest d (s.chip.decks.get d) Stat.already []).chip := by
  have hj : (s.started h rest op d).chip.judge (cmdOf op h p) d = some Stat.already := Chip.judge_order9 (hr.early hcart hprof) h9
  unfold Chip.run
  simp only [hj]
  rw [if_neg fun e => hop e.2]
  exact State.started_answerCmd hs.2.1 hr.locked.1 ..

end

/-! ### Declarations (R34, R60, Table 18-3) -/

theorem Chip.loadFor_loops {ch : Chip} {op : Op} {h : CmdHdr} {p : List Byte} {d : Deck} (hop : op = .load ∨ op = .home) {f : Profile}
    (hp : (ch.decks.get d).profile = some f) (hrun : (ch.decks.get d).loops.running = false) :
    ch.loadFor (cmdOf op h p) d = some { ch.kettle.decks.get d with loopPeriod := BitVec.ofNat 12 f.loopPeriod } := by
  unfold Chip.loadFor
  rcases hop with rfl | rfl <;> simp [hp, hrun, cmdOf]

theorem Chip.loadFor_rest {ch : Chip} {op : Op} {h : CmdHdr} {p : List Byte} {d : Deck} (hop : op ∈ restOps)
    (hrun : op = .load ∨ op = .home → (ch.decks.get d).loops.running = true) (hst : (ch.decks.get d).seq.state ≠ .faultStop) :
    ch.loadFor (cmdOf op h p) d = none := by
  obtain ⟨-, -, -, -, -, -, -, hw, hrd, -, hcomp⟩ := restOps_class op hop
  have e : (cmdOf op h p).op = op := rfl
  unfold Chip.loadFor
  cases hp : (ch.decks.get d).profile with
  | none => simp only [hp]
  | some f =>
    simp only [hp, e, hw, hrd, hcomp, hst, false_and, if_false, Bool.false_eq_true, decide_false, Bool.and_false]
    split <;> simp_all

theorem loadRaises_self (l : DeckLoad) : loadRaises l l = false := by
  simp [loadRaises, demandsOf]

/-- A declaration that changes nothing takes effect at once. -/
theorem Chip.declare_same {ch : Chip} {d : Deck} {l : DeckLoad} (hr : ch.kettle.raising = []) (hl : ch.kettle.decks.get d = l) (cmd : Option Cmd) :
    ch.declare (.deck d l) cmd = (ch, .applied) := by
  have hn : ch.kettle.isRaise (.deck d l) = false := by simp [Kettle.isRaise, hl, loadRaises_self]
  have hk : ch.kettle.raising.filterMap (fun r => r.after ch.kettle (.deck d l)) = ch.kettle.raising := by rw [hr]; rfl
  have ha : ch.kettle.apply (.deck d l) = ch.kettle := by
    rw [Kettle.apply, ← hl, vector_set_get]
  unfold Chip.declare
  simp only [hn, Bool.false_eq_true, not_false_eq_true, if_true, Chip.modKettle, hk]
  exact congrArg (fun k => (({ ch with kettle := k } : Chip), Declared.applied)) ha

/-- A raise waits for Kettle. -/
theorem Chip.declare_raise {ch : Chip} {x : Declaration} (hr : ch.kettle.raising = []) (hx : ch.kettle.isRaise x = true)
    (ht : ch.temp.limited = false) (cmd : Option Cmd) :
    ch.declare x cmd = ({ ch with kettle := { ch.kettle with raising := [{ decl := x, cmd := cmd }] } }, .waiting) := by
  unfold Chip.declare
  simp [hx, ht, Chip.modKettle, hr]

theorem Chip.drawStanding_none {ch : Chip} {op : Op} (h1 : op.writeSide = false) (h2 : op.readSide = false) (h : CmdHdr) (p : List Byte) (d : Deck) :
    ch.drawStanding (cmdOf op h p) d = (ch, true) := by
  unfold Chip.drawStanding
  rw [if_neg (by simp [cmdOf, h1, h2])]

section
variable {s : State} {h : CmdHdr} {rest : List Cmd} {d : Deck} {op : Op} {p : List Byte}

theorem State.AtRest.act (hop : op ∈ restOps) :
    (s.started h rest op d).chip.act (cmdOf op h p) d = (s.started h rest op d).chip.effect (cmdOf op h p) d := by
  obtain ⟨-, -, -, -, -, -, -, hw, hrd, -⟩ := restOps_class op hop
  have hn : (s.started h rest op d).chip.noteDeclared op d = (s.started h rest op d).chip := Chip.noteDeclared_same (by simp [hw, hrd])
  exact congrArg (fun c => c.effect (cmdOf op h p) d) hn

/-- The loop load that LOAD and HOME need stands declared (R441). -/
abbrev State.LoopsCovered (s : State) (d : Deck) (f : Profile) : Prop :=
  (s.chip.decks.get d).loops.running = true ∨
    s.chip.kettle.decks.get d = { s.chip.kettle.decks.get d with loopPeriod := BitVec.ofNat 12 f.loopPeriod }

/-- A motion opcode that has nothing new to declare takes effect. -/
theorem State.AtRest.declareAndAct (hr : s.AtRest h d) (hop : op ∈ restOps)
    (hc : op = .load ∨ op = .home → ∃ f, (s.chip.decks.get d).profile = some f ∧ s.LoopsCovered d f) :
    (s.started h rest op d).chip.declareAndAct (cmdOf op h p) d = (s.started h rest op d).chip.effect (cmdOf op h p) d := by
  have hst : (s.chip.decks.get d).seq.state ≠ .faultStop := by rcases hr.state with e | e | e <;> rw [e] <;> decide
  obtain ⟨-, -, -, -, -, -, -, hw, hrd, -⟩ := restOps_class op hop
  by_cases hrun : op = .load ∨ op = .home → (s.chip.decks.get d).loops.running = true
  · rw [Chip.declareAndAct_none (Chip.loadFor_rest hop (by exact hrun) (by exact hst))]
    exact State.AtRest.act hop
  · obtain ⟨ho, hn⟩ := Classical.not_imp.mp hrun
    obtain ⟨f, hp, hcov⟩ := hc ho
    have hl : (s.started h rest op d).chip.loadFor (cmdOf op h p) d = some _ := Chip.loadFor_loops ho hp (Bool.eq_false_iff.mpr hn)
    have hd := Chip.declare_same (ch := (s.started h rest op d).chip) hr.still.2.1 (hcov.resolve_left hn) (some (cmdOf op h p))
    unfold Chip.declareAndAct
    simp only [hl, Chip.drawStanding_none hw hrd]
    rw [show (s.started h rest op d).chip.kettle = s.chip.kettle from rfl, hd]
    exact State.AtRest.act hop

/-- LOAD and HOME wait for the raise of the loop load (R60). -/
theorem State.AtRest.declare_waits (hr : s.AtRest h d) (ho : op = .load ∨ op = .home) {f : Profile} (hp : (s.chip.decks.get d).profile = some f)
    (hn : (s.chip.decks.get d).loops.running = false)
    (hx : s.chip.kettle.isRaise (.deck d { s.chip.kettle.decks.get d with loopPeriod := BitVec.ofNat 12 f.loopPeriod }) = true)
    (ht : s.chip.temp.limited = false) :
    (s.started h rest op d).chip.declareAndAct (cmdOf op h p) d = ({ s.started h rest op d with
      chip.kettle.raising := [{ decl := .deck d { s.chip.kettle.decks.get d with loopPeriod := BitVec.ofNat 12 f.loopPeriod },
                                cmd := some (cmdOf op h p) }] } : State).chip := by
  have hw : op.writeSide = false ∧ op.readSide = false := by rcases ho with rfl | rfl <;> decide
  have hl : (s.started h rest op d).chip.loadFor (cmdOf op h p) d = some _ := Chip.loadFor_loops ho hp hn
  have hd := Chip.declare_raise (ch := (s.started h rest op d).chip) hr.still.2.1 hx ht (some (cmdOf op h p))
  unfold Chip.declareAndAct
  simp only [hl, Chip.drawStanding_none hw.1 hw.2]
  rw [show (s.started h rest op d).chip.kettle = s.chip.kettle from rfl, hd]
  rfl

end

/-! ### The effects of the motion opcodes -/

/-- The deck `k1` with the operation of the command running, begun in the state of deck `k`. -/
def DeckAll.begun (k k1 : DeckAll) (op : Op) (h : CmdHdr) (p : List Byte) (flushing moving : Bool) : DeckAll :=
  { k1 with seq := { k.seq with base := k.seq.state, op := some { runningOp op h p 0 moving with flushing := flushing } } }

/-- The state in which the operation of the command has begun, with deck d become `k1` beside that. -/
def State.hasBegun (s : State) (h : CmdHdr) (rest : List Cmd) (op : Op) (d : Deck) (p : List Byte) (flushing moving : Bool) (k1 : DeckAll) : State :=
  { s.started h rest op d with
    chip.decks := s.chip.decks.set d ((s.chip.decks.get d).begun k1 op h p flushing moving) }

section
variable {s : State} {h : CmdHdr} {rest : List Cmd} {d : Deck} {op : Op} {p : List Byte} (hr : s.AtRest h d)

theorem State.hasBegun_of {f : DeckAll → DeckAll} {flushing moving : Bool} {k1 : DeckAll}
    (hf : f (s.chip.decks.get d) = (s.chip.decks.get d).begun k1 op h p flushing moving) :
    (s.started h rest op d).chip.modDeck d f = (s.hasBegun h rest op d p flushing moving k1).chip := by
  unfold State.hasBegun
  rw [← hf]
  rfl

include hr

/-- A deck operation that has begun asks deck sequencing for its motion (R20). -/
theorem State.AtRest.runs_ask (hsp : op ≠ .space) (m : Motion) :
    ((s.started h rest op d).chip.modDeck d (·.runs (runningOp op h p (spaceCount op p) false))).ask d m
      = (s.hasBegun h rest op d p false false { s.chip.decks.get d with workQ := (s.chip.decks.get d).workQ ++ [m] }).chip := by
  rw [Chip.ask_eq, Chip.modDeck_modDeck, spaceCount, if_neg hsp]
  refine State.hasBegun_of ?_
  simp only [DeckAll.runs, hr.baseState]
  rfl

theorem State.AtRest.effect_load : (s.started h rest .load d).chip.effect (cmdOf .load h p) d
    = (s.hasBegun h rest .load d p false false
        { s.chip.decks.get d with workQ := (s.chip.decks.get d).workQ ++ [.load false] }).chip :=
  hr.runs_ask (by decide) _

theorem State.AtRest.effect_home : (s.started h rest .home d).chip.effect (cmdOf .home h p) d
    = (s.hasBegun h rest .home d p false false { s.chip.decks.get d with workQ := (s.chip.decks.get d).workQ ++ [.home] }).chip := by
  have ho : (((s.started h rest .home d).chip.modDeck d (·.runs (runningOp .home h p (spaceCount .home p) false))).decks.get d).seq.op
      = some (runningOp .home h p (spaceCount .home p) false) := by simp [DeckAll.runs]
  show (s.started h rest .home d).chip.actOp (cmdOf .home h p) d = _
  rw [hr.still.actOp, ← hr.runs_ask (by decide)]
  unfold Chip.begin
  simp only [ho, Chip.modOp_unflushed ho rfl]
  rfl

theorem State.AtRest.effect_autotune {j : SlotIx} {cycles : Nat} {swing band : W16} (hj : (byteAt p 1).toNat = j.val)
    (hc : (byteAt p 2).toNat = cycles) (hsw : leAt p 4 2 = swing.toNat) (hbd : leAt p 6 2 = band.toNat) :
    (s.started h rest .autotune d).chip.effect (cmdOf .autotune h p) d
      = (s.hasBegun h rest .autotune d p false false { s.chip.decks.get d with
          loops.slots := (s.chip.decks.get d).loops.slots.set j
            (((s.chip.decks.get d).loops.slots.get j).startTune cycles swing.toNat band.toNat) }).chip := by
  have ho : (((s.started h rest .autotune d).chip.modDeck d (·.runs (runningOp .autotune h p (spaceCount .autotune p) false))).decks.get d).seq.op
      = some (runningOp .autotune h p (spaceCount .autotune p) false) := by simp [DeckAll.runs]
  have hjf : Fin.ofNat 12 (byteAt p 1).toNat = j := Fin.ext (by simp [hj])
  show (s.started h rest .autotune d).chip.actOp (cmdOf .autotune h p) d = _
  rw [hr.still.actOp]
  unfold Chip.begin
  simp only [ho, Chip.modOp_unflushed ho rfl]
  simp only [runningOp, Chip.startTune, Chip.modSlot, hjf, hc, hsw, hbd]
  rw [Chip.modDeck_modDeck]
  refine State.hasBegun_of ?_
  simp only [DeckAll.runs, hr.baseState]
  rfl

end

/-! ### UNLOAD and DECK_STOP of a still deck (R188, R340, R458) -/

section
variable {s : State} {h : CmdHdr} {rest : List Cmd} {d : Deck} {op : Op} {p : List Byte} (hr : s.AtRest h d)
include hr

/-- Nothing is on its way to tape once the operation has begun. -/
theorem State.AtRest.writeIdle (o : DeckOp) :
    ((s.started h rest op d).chip.modDeck d (·.runs o)).stagedObjects d = 0 ∧ ((s.started h rest op d).chip.modDeck d (·.runs o)).writeIdle d = true := by
  have h0 : ((s.started h rest op d).chip.modDeck d (·.runs o)).stagedObjects d = 0 :=
    hr.still.stagedObjects (by simp [State.started, DeckAll.runs]) (by simp [State.started, DeckAll.runs]) (by simp [State.started, DeckAll.runs]) rfl
      (s.started_wdata h rest op d)
  obtain ⟨⟨-, -, -, -, -, -, -, -, hord, hopen, -, -, hbuf, -⟩, -⟩ := hr.still
  refine ⟨h0, ?_⟩
  unfold Chip.writeIdle
  rw [h0]
  simp [State.started, DeckAll.runs, hord, hopen, hbuf]

/-- Nothing of the deck ends early with an UNLOAD or a DECK_STOP. -/
theorem State.AtRest.abortWork (st : Stat) : (s.started h rest op d).chip.abortWork d st = (s.started h rest op d).chip := by
  have hq : (s.chip.decks.get d).Quiet := DeckAll.Idle.quiet hr.still.1
  have hraise : s.chip.kettle.raising = [] := hr.still.2.1
  exact Chip.abortWork_quiet (ch := (s.started h rest op d).chip) hq hraise st

theorem State.AtRest.effect_unload (hst : (s.chip.decks.get d).seq.state = .ready) :
    (s.started h rest .unload d).chip.effect (cmdOf .unload h p) d
      = ((s.started h rest .unload d).chip.modDeck d (·.runs { runningOp .unload h p 0 false with flushing := true })).flushStep d := by
  show (s.started h rest .unload d).chip.actUnload (cmdOf .unload h p) d = _
  unfold Chip.actUnload
  have hst' : ((s.started h rest .unload d).chip.decks.get d).seq.state = .ready := hst
  simp only [hr.abortWork, hst']
  rfl

/-- With the label clean, or none, UNLOAD has nothing to write first. -/
theorem State.AtRest.effect_unload_clean (hst : (s.chip.decks.get d).seq.state = .ready)
    (hl : ∀ l, (s.chip.decks.get d).tape.label = some l → l.isOpen = false) :
    (s.started h rest .unload d).chip.effect (cmdOf .unload h p) d
      = (s.hasBegun h rest .unload d p false false { s.chip.decks.get d with workQ := (s.chip.decks.get d).workQ ++ [.unload] }).chip := by
  obtain ⟨h0, hw⟩ := hr.writeIdle (rest := rest) (op := .unload) { runningOp .unload h p 0 false with flushing := true }
  obtain ⟨⟨-, -, -, -, -, -, -, -, -, -, -, -, -, hgate, hmark, -⟩, -⟩ := hr.still
  rw [hr.effect_unload hst]
  generalize hc : (s.started h rest .unload d).chip.modDeck d (·.runs { runningOp .unload h p 0 false with flushing := true }) = c at h0 hw
  have hd : c.decks.get d = (s.chip.decks.get d).runs { runningOp .unload h p 0 false with flushing := true } := by
    simp [← hc, State.started]
  have hb : c.flushStep d = c.begin d := by
    unfold Chip.flushStep
    simp only [hd, DeckAll.runs, runningOp, h0, hw, hmark, hgate, not_true_eq_false, if_false, lt_irrefl, Bool.false_eq_true]
    split
    next l hlab =>
      rw [if_neg]
      rw [hl l hlab]
      exact fun e => Bool.false_ne_true e.2
    · rfl
  have hbegin : c.begin d = (c.modOp d (fun o => { o with flushing := false })).ask d .unload := by
    unfold Chip.begin
    simp only [hd, DeckAll.runs, runningOp]
  rw [hb, hbegin, ← hc, Chip.modOp, Chip.modDeck_modDeck, Chip.modDeck_ask]
  refine State.hasBegun_of ?_
  simp only [DeckAll.runs, hr.baseState]
  rfl

/-- With the label open, UNLOAD orders the clean one first (R340). -/
theorem State.AtRest.effect_unload_open (hst : (s.chip.decks.get d).seq.state = .ready) {l : Label}
    (hl : (s.chip.decks.get d).tape.label = some l) (hopen : l.isOpen = true) :
    (s.started h rest .unload d).chip.effect (cmdOf .unload h p) d
      = (s.hasBegun h rest .unload d p true false { s.chip.decks.get d with
          tape.label := some ((s.chip.decks.get d).tape.newLabel l false)
          orders := [labelDataset ((s.chip.decks.get d).tape.newLabel l false) ((s.chip.decks.get d).tape.gen.get 0)] }).chip.pump d := by
  obtain ⟨h0, hw⟩ := hr.writeIdle (rest := rest) (op := .unload) { runningOp .unload h p 0 false with flushing := true }
  obtain ⟨⟨-, -, -, -, -, -, -, -, hord, -, -, -, -, hgate, hmark, -⟩, -⟩ := hr.still
  rw [hr.effect_unload hst]
  generalize hc : (s.started h rest .unload d).chip.modDeck d (·.runs { runningOp .unload h p 0 false with flushing := true }) = c at h0 hw
  have hd : c.decks.get d = (s.chip.decks.get d).runs { runningOp .unload h p 0 false with flushing := true } := by
    simp [← hc, State.started]
  unfold Chip.flushStep
  conv_lhs =>
    simp only [hd, DeckAll.runs, runningOp, h0, hw, hmark, hl, hopen, not_true_eq_false, if_false, lt_irrefl, Bool.false_eq_true, and_self, if_true]
  rw [← hc, Chip.modDeck_modDeck]
  refine congrArg (fun c => Chip.pump c d) (State.hasBegun_of ?_)
  simp only [DeckAll.runs, hr.baseState, hord, List.nil_append]
  rfl

theorem State.AtRest.effect_deckStop (hs : s.Heads .deckStop h p rest) :
    (s.started h rest .deckStop d).chip.effect (cmdOf .deckStop h p) d
      = (s.deckAnswered h rest d (s.chip.decks.get d) Stat.already []).chip := by
  have hn : ((s.started h rest .deckStop d).chip.decks.get d).seq.op = none := hr.still.1.2.1
  have hrp : (s.started h rest .deckStop d).chip.raisePending d = false := by
    have : (s.started h rest .deckStop d).chip.kettle.raising = [] := hr.still.2.1
    simp [Chip.raisePending, this]
  have hst : ((s.started h rest .deckStop d).chip.decks.get d).seq.state = (s.chip.decks.get d).seq.state := rfl
  rw [← State.started_answerCmd hs.2.1 hr.locked.1 rest .deckStop d p]
  show (s.started h rest .deckStop d).chip.actStop (cmdOf .deckStop h p) d = _
  unfold Chip.actStop
  simp only [hr.abortWork, hn, hrp, hst]
  rcases hr.state with e | e | e <;> simp only [e] <;> rfl

end

/-! ### ERASE_FROM_HERE and FORMAT_TAPE (R217, R218, R340, R341) -/

/-- The tape truncated at the position: a new generation whose end of data is the position, and whose first dataset is `next` (R205, R325). -/
def TapeInfo.truncated (t : TapeInfo) (next : W64) : TapeInfo :=
  let q : Fin 4 := Fin.ofNat 4 t.partition.toNat
  { t with
    gen := t.gen.set q (t.gen.get q + 1), eodDs := t.eodDs.set q next, eodObj := t.eodObj.set q t.object, eodWrap := t.eodWrap.set q t.wrap
    incomplete := t.incomplete.set q false, dataset := next, durObj := t.object, offset := 0
    ds := none, ahead := .unknown, walk := none, current := none }

section
variable {s : State} {h : CmdHdr} {rest : List Cmd} {d : Deck} {op : Op} {p : List Byte} (hr : s.AtRest h d)
include hr

/-- An operation begun on a still deck is the one that runs. -/
theorem State.AtRest.effect_begins (hop : op = .eraseFromHere ∨ op = .home ∨ op = .autotune) :
    (s.started h rest op d).chip.effect (cmdOf op h p) d
      = ((s.started h rest op d).chip.modDeck d (·.runs (runningOp op h p (spaceCount op p) false))).begin d := by
  rw [← hr.still.actOp]
  rcases hop with rfl | rfl | rfl <;> rfl

omit hr in
theorem Chip.begin_erase {ch : Chip} {o : DeckOp} (ho : (ch.decks.get d).seq.op = some o) (hop : o.op = .eraseFromHere) (hf : o.flushing = false) :
    ch.begin d = if ¬ o.long = true ∧ (ch.decks.get d).tape.atEod = true then ch.finish d Stat.already []
      else ((ch.modOp d (fun o => { o with moving := true })).truncate d).orderEod d := by
  unfold Chip.begin
  simp only [ho, Chip.modOp_unflushed ho hf, hop]

/-- The structures of ERASE_FROM_HERE are ordered, unless there is nothing to write. -/
theorem State.AtRest.effect_erase (hlong : (byteAt p 1).getLsbD 0 = true ∨ (s.chip.decks.get d).tape.atEod = false) :
    (s.started h rest .eraseFromHere d).chip.effect (cmdOf .eraseFromHere h p) d
      = (((s.started h rest .eraseFromHere d).chip.modDeck d (·.runs (runningOp .eraseFromHere h p 0 true))).truncate d).orderEod d := by
  have ho : (((s.started h rest .eraseFromHere d).chip.modDeck d (·.runs (runningOp .eraseFromHere h p (spaceCount .eraseFromHere p) false))).decks.get
      d).seq.op = some (runningOp .eraseFromHere h p (spaceCount .eraseFromHere p) false) := by simp [DeckAll.runs]
  have ht : (((s.started h rest .eraseFromHere d).chip.modDeck d (·.runs (runningOp .eraseFromHere h p (spaceCount .eraseFromHere p) false))).decks.get
      d).tape = (s.chip.decks.get d).tape := by simp [DeckAll.runs, State.started]
  have hl : ¬ (¬ (runningOp .eraseFromHere h p (spaceCount .eraseFromHere p) false).long = true ∧ (s.chip.decks.get d).tape.atEod = true) :=
    fun ⟨h1, h2⟩ => hlong.elim h1 fun e => by rw [e] at h2; exact Bool.false_ne_true h2
  rw [hr.effect_begins (.inl rfl), Chip.begin_erase ho rfl rfl, ht, if_neg hl, Chip.modOp, Chip.modDeck_modDeck]
  rfl

theorem State.AtRest.effect_erase_short (hs : s.Heads .eraseFromHere h p rest) (hshort : (byteAt p 1).getLsbD 0 = false)
    (he : (s.chip.decks.get d).tape.atEod = true) :
    (s.started h rest .eraseFromHere d).chip.effect (cmdOf .eraseFromHere h p) d
      = (s.deckAnswered h rest d { s.chip.decks.get d with seq.base := (s.chip.decks.get d).seq.state } Stat.already []).chip := by
  have ho : (((s.started h rest .eraseFromHere d).chip.modDeck d (·.runs (runningOp .eraseFromHere h p (spaceCount .eraseFromHere p) false))).decks.get
      d).seq.op = some (runningOp .eraseFromHere h p (spaceCount .eraseFromHere p) false) := by simp [DeckAll.runs]
  have ht : (((s.started h rest .eraseFromHere d).chip.modDeck d (·.runs (runningOp .eraseFromHere h p (spaceCount .eraseFromHere p) false))).decks.get
      d).tape = (s.chip.decks.get d).tape := by simp [DeckAll.runs, State.started]
  have hl : ¬ (runningOp .eraseFromHere h p (spaceCount .eraseFromHere p) false).long = true ∧ (s.chip.decks.get d).tape.atEod = true :=
    ⟨fun e => Bool.false_ne_true (hshort.symm.trans e), he⟩
  rw [hr.effect_begins (.inl rfl), Chip.begin_erase ho rfl rfl, ht, if_pos hl, ← hr.baseState]
  exact State.started_finish hs.2.1 hr.locked.1 hr.still.1.2.1 (by decide) ..

omit hr in
/-- No record is open at the position then. -/
theorem TapeInfo.truncated_mid {t : TapeInfo} (h : t.mid = false) (next : W64) : t.truncated next = { t.truncated next with mid := false } := by
  cases t
  cases h
  rfl

/-- Before EOD the position becomes the end of data, and its label and marker are ordered. -/
theorem State.AtRest.effect_erase_truncates {l : Label} (hl : (s.chip.decks.get d).tape.label = some l)
    (hmid : (s.chip.decks.get d).tape.mid = false) (he : (s.chip.decks.get d).tape.atEod = false) {next : W64}
    (hn : next = if (s.chip.decks.get d).tape.object = 0 then 0 else (s.chip.decks.get d).tape.dataset + 1) :
    (s.started h rest .eraseFromHere d).chip.effect (cmdOf .eraseFromHere h p) d
      = (s.hasBegun h rest .eraseFromHere d p false true { s.chip.decks.get d with
          tape := { (s.chip.decks.get d).tape.truncated next with label := some (((s.chip.decks.get d).tape.truncated next).newLabel l true) }
          roller.next := next
          orders := [labelDataset (((s.chip.decks.get d).tape.truncated next).newLabel l true) (((s.chip.decks.get d).tape.truncated next).gen.get 0),
                     ({ (s.chip.decks.get d).tape.truncated next with
                       label := some (((s.chip.decks.get d).tape.truncated next).newLabel l true) } : TapeInfo).eodDataset'
                         (Fin.ofNat 4 (s.chip.decks.get d).tape.partition.toNat) next (s.chip.decks.get d).tape.object] }).chip.pump d := by
  obtain ⟨⟨-, -, -, -, -, -, -, -, hord, -⟩, -⟩ := hr.still
  have hd : (((s.started h rest .eraseFromHere d).chip.modDeck d (·.runs (runningOp .eraseFromHere h p 0 true))).decks.get d).tape
      = (s.chip.decks.get d).tape := by simp [DeckAll.runs, State.started]
  rw [hr.effect_erase (.inr he)]
  unfold Chip.truncate Chip.orderEod
  simp only [hd, he, hl, Bool.false_eq_true, if_false]
  rw [← hn, Chip.modDeck_modDeck, Chip.modDeck_modDeck, TapeInfo.truncated_mid hmid]
  refine congrArg (fun c => Chip.pump c d) (State.hasBegun_of ?_)
  simp only [DeckAll.runs, hr.baseState, hord, List.nil_append]
  rfl

/-- At EOD ERASE_FROM_HERE with long orders the marker again. -/
theorem State.AtRest.effect_erase_long (hlong : (byteAt p 1).getLsbD 0 = true) (he : (s.chip.decks.get d).tape.atEod = true) :
    (s.started h rest .eraseFromHere d).chip.effect (cmdOf .eraseFromHere h p) d
      = (s.hasBegun h rest .eraseFromHere d p false true { s.chip.decks.get d with
          tape.durObj := (s.chip.decks.get d).tape.object
          roller.next := (s.chip.decks.get d).tape.eodDs.get (Fin.ofNat 4 (s.chip.decks.get d).tape.partition.toNat)
          orders := [(s.chip.decks.get d).tape.eodDataset' (Fin.ofNat 4 (s.chip.decks.get d).tape.partition.toNat)
            ((s.chip.decks.get d).tape.eodDs.get (Fin.ofNat 4 (s.chip.decks.get d).tape.partition.toNat)) (s.chip.decks.get d).tape.object] }).chip.pump
              d := by
  obtain ⟨⟨-, -, -, -, -, -, -, -, hord, -⟩, -⟩ := hr.still
  have hd : (((s.started h rest .eraseFromHere d).chip.modDeck d (·.runs (runningOp .eraseFromHere h p 0 true))).decks.get d).tape
      = (s.chip.decks.get d).tape := by simp [DeckAll.runs, State.started]
  have hw := (hr.writeIdle (rest := rest) (op := .eraseFromHere) (runningOp .eraseFromHere h p 0 true)).2
  rw [hr.effect_erase (.inl hlong)]
  unfold Chip.truncate Chip.orderEod
  simp only [hd, he, hw, if_true]
  rw [Chip.modDeck_modDeck, Chip.modDeck_modDeck]
  refine congrArg (fun c => Chip.pump c d) (State.hasBegun_of ?_)
  simp only [DeckAll.runs, hr.baseState, hord, List.nil_append]
  rfl

/-- The deck as FORMAT_TAPE of the request `p` leaves it to Roller: the tape unreadable until the structures `ds` are written (R218). -/
def DeckAll.toFormat (k : DeckAll) (p : List Byte) (ds : List Dataset) : DeckAll :=
  DeckAll.formatBounds { k with
    tape := { k.tape with media := some .unreadable, label := formatLabel ds, partition := 0, wrap := 0 }
    roller := { k.roller with cellLen := leAt p 4 4, nextP0 := none, eraseFrom := none }
    orders := k.orders ++ ds }

omit hr in
theorem DeckAll.toFormat_bare {k : DeckAll} (h : k.orders = []) (ds : List Dataset) : k.toFormat p ds = DeckAll.formatBounds { k with
    tape := { k.tape with media := some .unreadable, label := formatLabel ds, partition := 0, wrap := 0 }
    roller := { k.roller with cellLen := leAt p 4 4, nextP0 := none, eraseFrom := none }
    orders := ds } := by
  rw [DeckAll.toFormat, h, List.nil_append]

omit hr in
/-- What FORMAT_TAPE leaves to Roller does not hang on what runs. -/
theorem DeckAll.toFormat_runs (k : DeckAll) (o : DeckOp) (ds : List Dataset) :
    (k.runs o).toFormat p ds = { k.toFormat p ds with seq := (k.runs o).seq } := by
  cases hp : k.profile <;> cases hl : formatLabel ds <;> simp only [DeckAll.toFormat, DeckAll.formatBounds, DeckAll.runs, hp, hl]

omit hr in
theorem Chip.begin_format {ch : Chip} {o : DeckOp} {f : Profile} (ho : (ch.decks.get d).seq.op = some o) (hop : o.op = .formatTape)
    (hf : o.flushing = false) (hp : (ch.decks.get d).profile = some f) :
    ch.begin d = (ch.modDeck d (fun k =>
      (k.toFormat o.payload (formatOrders ch.now f.linePitch o.payload)).modSeq (fun q =>
        { q with op := q.op.map (fun o => { o with moving := true }) }))).pump d := by
  unfold Chip.begin
  simp only [ho, Chip.modOp_unflushed ho hf, hop, hp]
  rw [Chip.modTape, Chip.modOp, Chip.modDeck_modDeck, Chip.modDeck_modDeck]
  rfl

/-- FORMAT_TAPE takes the new label and orders the new structures (R218, R340). -/
theorem State.AtRest.effect_format {f : Profile} (hp : (s.chip.decks.get d).profile = some f) :
    (s.started h rest .formatTape d).chip.effect (cmdOf .formatTape h p) d
      = (s.hasBegun h rest .formatTape d p false true
          ((s.chip.decks.get d).toFormat p (formatOrders s.chip.now f.linePitch p))).chip.pump d := by
  have h0 : (s.started h rest .formatTape d).chip.stagedObjects d = 0 :=
    hr.still.stagedObjects rfl rfl rfl rfl (s.started_wdata h rest .formatTape d)
  have ho : (((s.started h rest .formatTape d).chip.modDeck d (·.runs (runningOp .formatTape h p 0 false))).decks.get d).seq.op
      = some (runningOp .formatTape h p 0 false) := by simp [DeckAll.runs]
  have hprof : (((s.started h rest .formatTape d).chip.modDeck d (·.runs (runningOp .formatTape h p 0 false))).decks.get d).profile = some f := by
    simpa [DeckAll.runs, State.started] using hp
  have hb : (s.started h rest .formatTape d).chip.effect (cmdOf .formatTape h p) d
      = ((s.started h rest .formatTape d).chip.modDeck d (·.runs (runningOp .formatTape h p 0 false))).begin d := by
    show (s.started h rest .formatTape d).chip.actFormat (cmdOf .formatTape h p) d = _
    unfold Chip.actFormat
    rw [h0, if_neg (lt_irrefl 0)]
    rfl
  rw [hb, Chip.begin_format ho rfl rfl hprof, Chip.modDeck_modDeck]
  refine congrArg (fun c => Chip.pump c d) (State.hasBegun_of ?_)
  show DeckAll.modSeq (((s.chip.decks.get d).runs (runningOp .formatTape h p 0 false)).toFormat p _) _ = _
  rw [DeckAll.toFormat_runs, DeckAll.runs, hr.baseState]
  rfl

end

/-! ### The commands -/

/-- The command has begun its operation and ordered structures of Roller, which takes them at once when its domain is on (R23): deck
sequencing, the contexts and, with the domain off, everything else are as in `t`. -/
def State.OrderedAs (t : State) (d : Deck) (o : Host.Outcome State Fault Refusal) : Prop :=
  ∃ u, o = .next u ∧ u.chip.ctxs = t.chip.ctxs ∧ (u.chip.decks.get d).seq = (t.chip.decks.get d).seq ∧
    (t.chip.domOn (50 + 6 * d.val) = false → u = t)

theorem State.orderedAs_of {s t : State} {d : Deck} {f : Chip → Chip} (hf : f s.chip = t.chip.pump d) (hp : t.pending = s.pending)
    (ht : (t.chip.decks.get d).staged = []) : t.OrderedAs d (s.onChip f) := by
  obtain ⟨h1, h2, -⟩ := Chip.pump_sameSeq ht
  refine ⟨{ t with chip := t.chip.pump d }, State.onChip_to hf hp.symm, h1, h2, fun h => ?_⟩
  rw [Chip.pump_off h]

section
variable {s : State} {h : CmdHdr} {rest : List Cmd} {d : Deck} {op : Op} {p : List Byte} (hr : s.AtRest h d)
include hr

/-- What a motion opcode does once it is in order is what order 11 and its effect do. -/
theorem State.AtRest.deckEffect_run (hs : s.Heads op h p rest) (hop : op ∈ restOps) (hd : deckOf p = some d) (h1 : reservedBad op p = false)
    (h2 : s.chip.rangeBad op p = false) (hcart : op.order6 = true → (s.chip.decks.get d).io.cart = true)
    (hprof : op.order7 = true → (s.chip.decks.get d).profile.isSome = true) (h9 : s.chip.order9 op p d = none) :
    deckEffect op h p s.chip = (s.started h rest op d).chip.declareAndAct (cmdOf op h p) d := by
  obtain ⟨-, -, ho, -⟩ := restOps_class op hop
  rw [Machine.deckEffect_run hs hr.locked ho hd h1 h2, hr.run hop hcart hprof h9]

theorem State.AtRest.staged (k1 : DeckAll) (hk : k1.staged = (s.chip.decks.get d).staged) (flushing moving : Bool) :
    ((s.hasBegun h rest op d p flushing moving k1).chip.decks.get d).staged = [] := by
  obtain ⟨⟨-, -, -, -, hst, -⟩, -⟩ := hr.still
  simp [State.hasBegun, DeckAll.begun, hk, hst]

end

theorem rangeBad_motion {op : Op} (hop : op = .load ∨ op = .home ∨ op = .unload ∨ op = .deckStop) (ch : Chip) (d : Deck) :
    ch.rangeBad op [BitVec.ofNat 8 d.val, 0, 0, 0] = false := by
  unfold Chip.rangeBad
  rcases hop with rfl | rfl | rfl | rfl <;> simp only [deckOf_cons, Bool.not_true]

section
variable {s : State} {h : CmdHdr} {rest : List Cmd} {d : Deck} (hr : s.AtRest h d)
include hr

theorem State.AtRest.order9_load (hst : (s.chip.decks.get d).seq.state = .present) (hdoor : (s.chip.decks.get d).io.door = true) (p : List Byte) :
    s.chip.order9 .load p d = none := by
  simp [Chip.order9, hr.baseState, hst, hdoor, hr.ref]

theorem State.AtRest.order9_home (p : List Byte) : s.chip.order9 .home p d = none := by
  unfold Chip.order9
  rcases hr.state with e | e | e <;> simp [hr.baseState, e, hr.ref]

theorem State.AtRest.order9_unload (p : List Byte) :
    s.chip.order9 .unload p d = if (s.chip.decks.get d).seq.state = .ready then none else some Stat.already := by
  unfold Chip.order9
  rcases hr.state with e | e | e <;> simp [hr.baseState, e, hr.ref]

theorem exec_load_begins {f : Profile} (hp : (s.chip.decks.get d).profile = some f) (hst : (s.chip.decks.get d).seq.state = .present)
    (hcart : (s.chip.decks.get d).io.cart = true) (hdoor : (s.chip.decks.get d).io.door = true) (hc : s.LoopsCovered d f)
    (hs : s.Heads .load h [BitVec.ofNat 8 d.val, 0, 0, 0] rest) :
    exec (.load h [BitVec.ofNat 8 d.val, 0, 0, 0]) s = .next (s.hasBegun h rest .load d [BitVec.ofNat 8 d.val, 0, 0, 0] false false
      { s.chip.decks.get d with workQ := (s.chip.decks.get d).workQ ++ [.load false] }) := by
  refine State.onChip_to ?_ rfl
  rw [hr.deckEffect_run hs (by decide) (deckOf_cons ..) rfl (rangeBad_motion (.inl rfl) ..) (fun _ => hcart) (fun _ => by rw [hp]; rfl)
    (hr.order9_load hst hdoor _), hr.declareAndAct (by decide) (fun _ => ⟨f, hp, hc⟩)]
  exact hr.effect_load

theorem exec_home_begins {f : Profile} (hp : (s.chip.decks.get d).profile = some f) (hc : s.LoopsCovered d f)
    (hs : s.Heads .home h [BitVec.ofNat 8 d.val, 0, 0, 0] rest) :
    exec (.home h [BitVec.ofNat 8 d.val, 0, 0, 0]) s = .next (s.hasBegun h rest .home d [BitVec.ofNat 8 d.val, 0, 0, 0] false false
      { s.chip.decks.get d with workQ := (s.chip.decks.get d).workQ ++ [.home] }) := by
  refine State.onChip_to ?_ rfl
  rw [hr.deckEffect_run hs (by decide) (deckOf_cons ..) rfl (rangeBad_motion (.inr (.inl rfl)) ..) (fun e => nomatch e) (fun _ => by rw [hp]; rfl)
    (hr.order9_home _), hr.declareAndAct (by decide) (fun _ => ⟨f, hp, hc⟩)]
  exact hr.effect_home

/-- LOAD and HOME leave the command executing while the raise waits (R60). -/
theorem State.AtRest.exec_raise {op : Op} (ho : op = .load ∨ op = .home) {f : Profile} (hp : (s.chip.decks.get d).profile = some f)
    (hcart : op.order6 = true → (s.chip.decks.get d).io.cart = true) (h9 : s.chip.order9 op [BitVec.ofNat 8 d.val, 0, 0, 0] d = none)
    (hs : s.Heads op h [BitVec.ofNat 8 d.val, 0, 0, 0] rest) (hn : (s.chip.decks.get d).loops.running = false)
    (hx : s.chip.kettle.isRaise (.deck d { s.chip.kettle.decks.get d with loopPeriod := BitVec.ofNat 12 f.loopPeriod }) = true)
    (ht : s.chip.temp.limited = false) :
    s.onChip (deckEffect op h [BitVec.ofNat 8 d.val, 0, 0, 0]) = .next { s.started h rest op d with
      chip.kettle.raising := [{ decl := .deck d { s.chip.kettle.decks.get d with loopPeriod := BitVec.ofNat 12 f.loopPeriod },
                                cmd := some (cmdOf op h [BitVec.ofNat 8 d.val, 0, 0, 0]) }] } := by
  refine State.onChip_to ?_ rfl
  rw [hr.deckEffect_run hs (by rcases ho with rfl | rfl <;> decide) (deckOf_cons ..) (by rcases ho with rfl | rfl <;> rfl)
    (rangeBad_motion (by rcases ho with rfl | rfl <;> simp) ..) hcart (fun _ => by rw [hp]; rfl) h9]
  exact hr.declare_waits ho hp hn hx ht

theorem exec_unload_already (hst : (s.chip.decks.get d).seq.state ≠ .ready) (hs : s.Heads .unload h [BitVec.ofNat 8 d.val, 0, 0, 0] rest) :
    exec (.unload h [BitVec.ofNat 8 d.val, 0, 0, 0]) s = .next (s.deckAnswered h rest d (s.chip.decks.get d) Stat.already []) := by
  refine State.onChip_to ?_ rfl
  rw [Machine.deckEffect_run hs hr.locked (by decide) (deckOf_cons ..) rfl (rangeBad_motion (.inr (.inr (.inl rfl))) ..)]
  exact hr.run_already hs (by decide) (fun e => nomatch e) (fun e => nomatch e) (by rw [hr.order9_unload, if_neg hst])

/-- UNLOAD of a READY deck comes to its effect. -/
theorem State.AtRest.deckEffect_unload (hst : (s.chip.decks.get d).seq.state = .ready)
    (hs : s.Heads .unload h [BitVec.ofNat 8 d.val, 0, 0, 0] rest) :
    deckEffect .unload h [BitVec.ofNat 8 d.val, 0, 0, 0] s.chip
      = (s.started h rest .unload d).chip.effect (cmdOf .unload h [BitVec.ofNat 8 d.val, 0, 0, 0]) d := by
  rw [hr.deckEffect_run hs (by decide) (deckOf_cons ..) rfl (rangeBad_motion (.inr (.inr (.inl rfl))) ..) (fun e => nomatch e) (fun e => nomatch e)
    (by rw [hr.order9_unload, if_pos hst]), hr.declareAndAct (by decide) (by simp)]

theorem exec_unload_clean (hst : (s.chip.decks.get d).seq.state = .ready)
    (hl : ∀ l, (s.chip.decks.get d).tape.label = some l → l.isOpen = false) (hs : s.Heads .unload h [BitVec.ofNat 8 d.val, 0, 0, 0] rest) :
    exec (.unload h [BitVec.ofNat 8 d.val, 0, 0, 0]) s = .next (s.hasBegun h rest .unload d [BitVec.ofNat 8 d.val, 0, 0, 0] false false
      { s.chip.decks.get d with workQ := (s.chip.decks.get d).workQ ++ [.unload] }) :=
  State.onChip_to ((hr.deckEffect_unload hst hs).trans (hr.effect_unload_clean hst hl)) rfl

theorem exec_unload_open (hst : (s.chip.decks.get d).seq.state = .ready) {l : Label} (hl : (s.chip.decks.get d).tape.label = some l)
    (ho : l.isOpen = true) (hs : s.Heads .unload h [BitVec.ofNat 8 d.val, 0, 0, 0] rest) :
    (s.hasBegun h rest .unload d [BitVec.ofNat 8 d.val, 0, 0, 0] true false { s.chip.decks.get d with
      tape.label := some ((s.chip.decks.get d).tape.newLabel l false)
      orders := [labelDataset ((s.chip.decks.get d).tape.newLabel l false) ((s.chip.decks.get d).tape.gen.get 0)] }).OrderedAs d
        (exec (.unload h [BitVec.ofNat 8 d.val, 0, 0, 0]) s) :=
  State.orderedAs_of ((hr.deckEffect_unload hst hs).trans (hr.effect_unload_open hst hl ho)) rfl (hr.staged _ (by rfl) ..)

theorem exec_deckStop_idle (hs : s.Heads .deckStop h [BitVec.ofNat 8 d.val, 0, 0, 0] rest) :
    exec (.deckStop h [BitVec.ofNat 8 d.val, 0, 0, 0]) s = .next (s.deckAnswered h rest d (s.chip.decks.get d) Stat.already []) := by
  refine State.onChip_to ?_ rfl
  rw [hr.deckEffect_run hs (by decide) (deckOf_cons ..) rfl (rangeBad_motion (.inr (.inr (.inr rfl))) ..) (fun e => nomatch e) (fun e => nomatch e)
    rfl, hr.declareAndAct (by decide) (by simp)]
  exact hr.effect_deckStop hs

end

/-! ### The operations on a loaded tape -/

section
variable {s : State} {h : CmdHdr} {rest : List Cmd} {d : Deck} (hr : s.AtRest h d) (hl : s.Loaded d)
include hr hl

theorem exec_autotune_begins {j : SlotIx} {cycles : Nat} {swing band : W16} (hc1 : 8 ≤ cycles) (hc2 : cycles ≤ 64) (hs1 : 1 ≤ swing.toNat)
    (hs2 : swing.toNat ≤ 32767) (hb : band.toNat ≤ 32767)
    (hs : s.Heads .autotune h ([BitVec.ofNat 8 d.val, BitVec.ofNat 8 j.val, BitVec.ofNat 8 cycles, 0] ++ leBytes 2 swing.toNat ++ leBytes 2 band.toNat)
      rest) :
    exec (.autotune h ([BitVec.ofNat 8 d.val, BitVec.ofNat 8 j.val, BitVec.ofNat 8 cycles, 0] ++ leBytes 2 swing.toNat ++ leBytes 2 band.toNat)) s
      = .next (s.hasBegun h rest .autotune d
          ([BitVec.ofNat 8 d.val, BitVec.ofNat 8 j.val, BitVec.ofNat 8 cycles, 0] ++ leBytes 2 swing.toNat ++ leBytes 2 band.toNat) false false
          { s.chip.decks.get d with
            loops.slots := (s.chip.decks.get d).loops.slots.set j
              (((s.chip.decks.get d).loops.slots.get j).startTune cycles swing.toNat band.toNat) }) := by
  generalize hp : [BitVec.ofNat 8 d.val, BitVec.ofNat 8 j.val, BitVec.ofNat 8 cycles, 0] ++ leBytes 2 swing.toNat ++ leBytes 2 band.toNat = p at hs
  have hj : (byteAt p 1).toNat = j.val := by
    have := j.isLt
    subst hp
    show (BitVec.ofNat 8 j.val).toNat = j.val
    simp; omega
  have hcy : (byteAt p 2).toNat = cycles := by
    subst hp
    show (BitVec.ofNat 8 cycles).toNat = cycles
    simp; omega
  have hsw : leAt p 4 2 = swing.toNat := by
    rw [← hp, List.append_assoc]
    exact leAt_field (a := [BitVec.ofNat 8 d.val, BitVec.ofNat 8 j.val, BitVec.ofNat 8 cycles, 0]) (k := 2) swing.isLt
  have hbd : leAt p 6 2 = band.toNat := by
    rw [← hp]
    simpa using leAt_field (a := [BitVec.ofNat 8 d.val, BitVec.ofNat 8 j.val, BitVec.ofNat 8 cycles, 0] ++ leBytes 2 swing.toNat) (k := 2) (c := [])
      band.isLt
  have hd : deckOf p = some d := by rw [← hp]; exact deckOf_cons ..
  have h1 : reservedBad .autotune p = false := by rw [← hp]; rfl
  have h2 : s.chip.rangeBad .autotune p = false := by
    unfold Chip.rangeBad
    simp only [hd, slotOk, hj, hcy, hsw, hbd, within, j.isLt, hc1, hc2, hs1, hs2, hb, decide_true, Bool.and_self, Bool.not_true]
  have h9 : s.chip.order9 .autotune p d = none := by
    simp [Chip.order9, hr.baseState, hl.ready hr.still, hr.ref]
  refine State.onChip_to ?_ rfl
  rw [hr.deckEffect_run hs (by decide) hd h1 h2 (fun e => nomatch e) (fun _ => hl.2.2.1) h9, hr.declareAndAct (by decide) (by simp)]
  exact hr.effect_autotune hj hcy hsw hbd

/-- ERASE_FROM_HERE outside a record, and FORMAT_TAPE, come to their effect under the write declaration. -/
theorem State.AtRest.deckEffect_structures {op : Op} {p : List Byte} (hop : op = .eraseFromHere ∨ op = .formatTape)
    (hdecl : (s.chip.decks.get d).tape.declared = some true)
    (hw : op = .eraseFromHere → (s.chip.decks.get d).tape.mid = false ∧ ∀ f l, (s.chip.decks.get d).profile = some f →
      (s.chip.decks.get d).tape.label = some l → lagCells f.rwOffset l.cellLength ≤ 2232)
    (hs : s.Heads op h p rest) (hd : deckOf p = some d) (h1 : reservedBad op p = false) (h2 : s.chip.rangeBad op p = false) :
    deckEffect op h p s.chip = (s.started h rest op d).chip.effect (cmdOf op h p) d := by
  have hws : op.writeSide = true := by rcases hop with rfl | rfl <;> rfl
  rw [Machine.deckEffect_run hs hr.locked (by rcases hop with rfl | rfl <;> decide) hd h1 h2]
  exact hl.run_tapeOp hr.still hr.locked (by rcases hop with rfl | rfl <;> decide) rest (fun _ hn => hw (hop.resolve_right hn))
    (by rcases hop with rfl | rfl <;> exact fun e => nomatch e) (hdecl.trans (congrArg some hws.symm))

end

/-- ERASE_FROM_HERE's flag, and the checks of its fields. -/
theorem erase_payload (d : Deck) (long : Bool) (ch : Chip) :
    (byteAt [BitVec.ofNat 8 d.val, if long then 1 else 0, 0, 0] 1).getLsbD 0 = long ∧
    reservedBad .eraseFromHere [BitVec.ofNat 8 d.val, if long then 1 else 0, 0, 0] = false ∧
    ch.rangeBad .eraseFromHere [BitVec.ofNat 8 d.val, if long then 1 else 0, 0, 0] = false := by
  refine ⟨?_, by cases long <;> rfl, ?_⟩
  · show (if long then (1 : Byte) else 0).getLsbD 0 = long
    cases long <;> decide
  unfold Chip.rangeBad
  simp only [deckOf_cons, Bool.not_true]

section
variable {s : State} {h : CmdHdr} {rest : List Cmd} {d : Deck} (hr : s.AtRest h d) (hl : s.Loaded d)
  (hdecl : (s.chip.decks.get d).tape.declared = some true) {f : Profile} (hp : (s.chip.decks.get d).profile = some f)
include hr hl hdecl hp

theorem exec_format_begins {p : List Byte} (hd : p.head? = some (BitVec.ofNat 8 d.val)) (h1 : fieldZero p 3 1 = true)
    (h2 : formatOk (s.chip.decks.get d).profile p = true) (hs : s.Heads .formatTape h p rest) :
    (s.hasBegun h rest .formatTape d p false true (DeckAll.formatBounds { s.chip.decks.get d with
      tape := { (s.chip.decks.get d).tape with
        media := some .unreadable, label := formatLabel (formatOrders s.chip.now f.linePitch p), partition := 0, wrap := 0 }
      roller := { (s.chip.decks.get d).roller with cellLen := leAt p 4 4, nextP0 := none, eraseFrom := none }
      orders := formatOrders s.chip.now f.linePitch p })).OrderedAs d
      (exec (.formatTape h p) s) := by
  have hdk : deckOf p = some d := by
    obtain ⟨tl, rfl⟩ := List.head?_eq_some_iff.mp hd
    exact deckOf_cons ..
  have hres : reservedBad .formatTape p = false := by simp [reservedBad, h1]
  have hrange : s.chip.rangeBad .formatTape p = false := by
    unfold Chip.rangeBad
    simp only [hdk, h2, Bool.not_true]
  have hord : (s.chip.decks.get d).orders = [] := by
    obtain ⟨⟨-, -, -, -, -, -, -, -, hord, -⟩, -⟩ := hr.still
    exact hord
  rw [← DeckAll.toFormat_bare hord]
  refine State.orderedAs_of ((hr.deckEffect_structures hl (.inr rfl) hdecl (fun e => nomatch e) hs hdk hres hrange).trans (hr.effect_format hp)) rfl
    (hr.staged _ ?_ ..)
  cases hprof : (s.chip.decks.get d).profile <;> cases hlab : formatLabel (formatOrders s.chip.now f.linePitch p) <;>
    simp only [DeckAll.toFormat, DeckAll.formatBounds, hprof, hlab]

variable {l : Label} (hlab : (s.chip.decks.get d).tape.label = some l) (hlag : lagCells f.rwOffset l.cellLength ≤ 2232)
  (hmid : (s.chip.decks.get d).tape.mid = false) {long : Bool}
include hlab hlag hmid

theorem State.AtRest.deckEffect_erase (hs : s.Heads .eraseFromHere h [BitVec.ofNat 8 d.val, if long then 1 else 0, 0, 0] rest) :
    deckEffect .eraseFromHere h [BitVec.ofNat 8 d.val, if long then 1 else 0, 0, 0] s.chip
      = (s.started h rest .eraseFromHere d).chip.effect
          (cmdOf .eraseFromHere h [BitVec.ofNat 8 d.val, if long then 1 else 0, 0, 0]) d := by
  obtain ⟨-, h1, h2⟩ := erase_payload d long s.chip
  refine hr.deckEffect_structures hl (.inl rfl) hdecl (fun _ => ⟨hmid, fun f' l' hf' hl' => ?_⟩) hs (deckOf_cons ..) h1 h2
  rw [hp] at hf'
  rw [hlab] at hl'
  cases hf'
  cases hl'
  exact hlag

theorem exec_erase_truncates (he : (s.chip.decks.get d).tape.atEod = false)
    (hs : s.Heads .eraseFromHere h [BitVec.ofNat 8 d.val, if long then 1 else 0, 0, 0] rest) {next : W64}
    (hn : next = if (s.chip.decks.get d).tape.object = 0 then 0 else (s.chip.decks.get d).tape.dataset + 1) :
    (s.hasBegun h rest .eraseFromHere d [BitVec.ofNat 8 d.val, if long then 1 else 0, 0, 0] false true { s.chip.decks.get d with
      tape := { (s.chip.decks.get d).tape.truncated next with label := some (((s.chip.decks.get d).tape.truncated next).newLabel l true) }
      roller.next := next
      orders := [labelDataset (((s.chip.decks.get d).tape.truncated next).newLabel l true) (((s.chip.decks.get d).tape.truncated next).gen.get 0),
                 ({ (s.chip.decks.get d).tape.truncated next with
                   label := some (((s.chip.decks.get d).tape.truncated next).newLabel l true) } : TapeInfo).eodDataset'
                     (Fin.ofNat 4 (s.chip.decks.get d).tape.partition.toNat) next (s.chip.decks.get d).tape.object] }).OrderedAs d
      (exec (.eraseFromHere h [BitVec.ofNat 8 d.val, if long then 1 else 0, 0, 0]) s) :=
  State.orderedAs_of ((hr.deckEffect_erase hl hdecl hp hlab hlag hmid hs).trans (hr.effect_erase_truncates hlab hmid he hn)) rfl (hr.staged _ (by rfl) ..)

theorem exec_erase_long (he : (s.chip.decks.get d).tape.atEod = true) (hlong : long = true)
    (hs : s.Heads .eraseFromHere h [BitVec.ofNat 8 d.val, if long then 1 else 0, 0, 0] rest) :
    (s.hasBegun h rest .eraseFromHere d [BitVec.ofNat 8 d.val, if long then 1 else 0, 0, 0] false true { s.chip.decks.get d with
      tape.durObj := (s.chip.decks.get d).tape.object
      roller.next := (s.chip.decks.get d).tape.eodDs.get (Fin.ofNat 4 (s.chip.decks.get d).tape.partition.toNat)
      orders := [(s.chip.decks.get d).tape.eodDataset' (Fin.ofNat 4 (s.chip.decks.get d).tape.partition.toNat)
        ((s.chip.decks.get d).tape.eodDs.get (Fin.ofNat 4 (s.chip.decks.get d).tape.partition.toNat)) (s.chip.decks.get d).tape.object] }).OrderedAs d
      (exec (.eraseFromHere h [BitVec.ofNat 8 d.val, if long then 1 else 0, 0, 0]) s) :=
  State.orderedAs_of ((hr.deckEffect_erase hl hdecl hp hlab hlag hmid hs).trans
    (hr.effect_erase_long ((erase_payload d long s.chip).1.trans hlong) he)) rfl (hr.staged _ (by rfl) ..)

theorem exec_erase_short (hs : s.Heads .eraseFromHere h [BitVec.ofNat 8 d.val, if long then 1 else 0, 0, 0] rest)
    (he : (s.chip.decks.get d).tape.atEod = true) (hshort : long = false) :
    exec (.eraseFromHere h [BitVec.ofNat 8 d.val, if long then 1 else 0, 0, 0]) s
      = .next (s.deckAnswered h rest d { s.chip.decks.get d with seq.base := .ready } Stat.already []) := by
  refine State.onChip_to ?_ rfl
  rw [hr.deckEffect_erase hl hdecl hp hlab hlag hmid hs, hr.effect_erase_short hs ((erase_payload d long s.chip).1.trans hshort) he,
    hl.ready hr.still]

end

/-- Settles O28: on a still deck every check lets these opcodes through, nothing runs that LOAD, UNLOAD or DECK_STOP could end, and nothing
waits for tape; so each begins at once, and what it orders of Roller it puts in Roller's queue, which moves while Roller's domain is on only. -/
theorem deckOperationsBegin : Obligations.DeckOperationsBegin := by
  unfold Obligations.DeckOperationsBegin
  intro s h rest d hk hi href hheld htrip k t q b load p0 runs asks orders
  have hr : s.AtRest h d := ⟨hk, hi, href, hheld, htrip⟩
  refine ⟨?_, fun hs hst => exec_unload_already hr hst hs, fun hst => ⟨exec_unload_clean hr hst, fun l hl ho => exec_unload_open hr hst hl ho⟩,
    fun hs => exec_deckStop_idle hr hs, ?_⟩
  · intro f hp loops covered raise
    refine ⟨fun hst hcart hdoor => ⟨fun hc => exec_load_begins hr hp hst hcart hdoor hc, ?_⟩, fun hc => exec_home_begins hr hp hc, ?_⟩
    · exact fun hs hn hx ht => hr.exec_raise (.inl rfl) hp (fun _ => hcart) (hr.order9_load hst hdoor _) hs hn hx ht
    · exact fun hs hn hx ht => hr.exec_raise (.inr rfl) hp (fun e => nomatch e) (hr.order9_home _) hs hn hx ht
  · intro hl f hp
    refine ⟨fun j cycles swing band hc1 hc2 hs1 hs2 hb => exec_autotune_begins hr hl hc1 hc2 hs1 hs2 hb, fun hdecl => ⟨?_, ?_⟩⟩
    · intro long l hlab hlag hmid p1 erase
      refine ⟨?_, fun he hlong => exec_erase_long hr hl hdecl hp hlab hlag hmid he hlong,
        fun hs he hshort => exec_erase_short hr hl hdecl hp hlab hlag hmid hs he hshort⟩
      intro he next t1 t2 hs
      exact exec_erase_truncates hr hl hdecl hp hlab hlag hmid he hs rfl
    · intro p1 hhead hres hok _ ds hs
      exact exec_format_begins hr hl hdecl hp hhead hres hok hs

end Sys2Proof.Machine
end

section
/-! SUPPORT. What deck sequencing does at a motion request, and DECK_STOP of a deck that moves or rests after a fault (R188, R190, R439–R458). -/

namespace Sys2Proof.Machine

/-! ### What the targets and modes of a state leave of the deck (R397, Table 18-2) -/

theorem DeckAll.retarget_eq (k : DeckAll) : ∃ slots groups, k.retarget = { k with loops := { k.loops with slots := slots, groups := groups } } := by
  unfold DeckAll.retarget
  split
  · exact ⟨k.loops.slots, k.loops.groups, rfl⟩
  · split
    · exact ⟨k.loops.slots, k.loops.groups, rfl⟩
    · exact ⟨_, _, rfl⟩

section
variable (k : DeckAll)

@[simp] theorem DeckAll.retarget_seq : k.retarget.seq = k.seq := by obtain ⟨_, _, e⟩ := k.retarget_eq; rw [e]
@[simp] theorem DeckAll.retarget_tape : k.retarget.tape = k.tape := by obtain ⟨_, _, e⟩ := k.retarget_eq; rw [e]
@[simp] theorem DeckAll.retarget_lock : k.retarget.lock = k.lock := by obtain ⟨_, _, e⟩ := k.retarget_eq; rw [e]
@[simp] theorem DeckAll.retarget_profile : k.retarget.profile = k.profile := by obtain ⟨_, _, e⟩ := k.retarget_eq; rw [e]
@[simp] theorem DeckAll.retarget_roller : k.retarget.roller = k.roller := by obtain ⟨_, _, e⟩ := k.retarget_eq; rw [e]
@[simp] theorem DeckAll.retarget_strainer : k.retarget.strainer = k.strainer := by obtain ⟨_, _, e⟩ := k.retarget_eq; rw [e]
@[simp] theorem DeckAll.retarget_staged : k.retarget.staged = k.staged := by obtain ⟨_, _, e⟩ := k.retarget_eq; rw [e]
@[simp] theorem DeckAll.retarget_pos : k.retarget.pos = k.pos := by obtain ⟨_, _, e⟩ := k.retarget_eq; rw [e]
@[simp] theorem DeckAll.retarget_workQ : k.retarget.workQ = k.workQ := by obtain ⟨_, _, e⟩ := k.retarget_eq; rw [e]
@[simp] theorem DeckAll.retarget_io : k.retarget.io = k.io := by obtain ⟨_, _, e⟩ := k.retarget_eq; rw [e]
@[simp] theorem DeckAll.retarget_running : k.retarget.loops.running = k.loops.running := by obtain ⟨_, _, e⟩ := k.retarget_eq; rw [e]
@[simp] theorem DeckAll.retarget_start : k.retarget.loops.start = k.loops.start := by obtain ⟨_, _, e⟩ := k.retarget_eq; rw [e]
@[simp] theorem DeckAll.retarget_period : k.retarget.loops.period = k.loops.period := by obtain ⟨_, _, e⟩ := k.retarget_eq; rw [e]

@[simp] theorem DeckAll.askModes_seq : k.askModes.seq = k.seq := rfl
@[simp] theorem DeckAll.askModes_tape : k.askModes.tape = k.tape := rfl
@[simp] theorem DeckAll.askModes_lock : k.askModes.lock = k.lock := rfl
@[simp] theorem DeckAll.askModes_profile : k.askModes.profile = k.profile := rfl
@[simp] theorem DeckAll.askModes_roller : k.askModes.roller = k.roller := rfl
@[simp] theorem DeckAll.askModes_strainer : k.askModes.strainer = k.strainer := rfl
@[simp] theorem DeckAll.askModes_staged : k.askModes.staged = k.staged := rfl
@[simp] theorem DeckAll.askModes_pos : k.askModes.pos = k.pos := rfl
@[simp] theorem DeckAll.askModes_workQ : k.askModes.workQ = k.workQ := rfl
@[simp] theorem DeckAll.askModes_loops : k.askModes.loops = k.loops := rfl
@[simp] theorem DeckAll.askModes_home : k.askModes.io.home = k.io.home := rfl
@[simp] theorem DeckAll.askModes_posLo : k.askModes.io.posLo = k.io.posLo := rfl

/-- No mode moves a trip input. -/
@[simp] theorem DeckAll.askModes_tripIn (a : Fin 4) : (k.askModes.io.axes.get a).tripIn = (k.io.axes.get a).tripIn := by
  have h : k.askModes.io.axes.get a = (k.io.axes.get a).ask (stateMode k.seq.state k.withTape (Fin.ofNat 4 a.val)) := by
    show ((k.io.axes.zipIdx).map (fun x => x.1.ask (stateMode k.seq.state k.withTape (Fin.ofNat 4 x.2))))[a.val] = _
    simp only [Vector.getElem_map, Vector.getElem_zipIdx, Nat.zero_add]
    rfl
  rw [h]
  unfold AxisState.ask
  split <;> rfl

end

/-! ### A deck enters a state (R439, R513, R523) -/

/-- The deck in state `st`, with the modes and targets of that state. -/
def DeckAll.inState (k : DeckAll) (st : DeckState) : DeckAll := ((k.modSeq (fun q => { q with state := st })).askModes).retarget

/-- Deck d has entered `st` and said so to its holder, and has become `k1`. -/
def State.enteredAs (s : State) (d : Deck) (i : Ctx) (st : DeckState) (k1 : DeckAll) : State :=
  { s.entered d i st with chip.decks := s.chip.decks.set d k1 }

theorem DeckState.code_shown (st : DeckState) : (BitVec.ofNat 32 st.code).setWidth 4 = BitVec.ofNat 4 st.code ∧
    (BitVec.ofNat 32 st.code = 11 ↔ st = .faultStop) := by
  cases st <;> decide

/-- DECK_STATE to a holder that hears the deck: the log, the event path and the deck's mirror. -/
theorem State.postDeck_state {s : State} {d : Deck} {i : Ctx} (h : s.Hears d i) (st : DeckState) :
    s.chip.postDeck d Ev.deckState (servoUnit d) (BitVec.ofNat 32 st.code) = (s.entered d i st).chip := by
  obtain ⟨h1, h2⟩ := st.code_shown
  have hm : (s.chip.emergency.mirror.get d).see (s.entry 1 Ev.deckState (servoUnit d) (deckObject d) 0xFF (BitVec.ofNat 32 st.code) 0 0)
      = { s.chip.emergency.mirror.get d with
          state := BitVec.ofNat 4 st.code, time := s.chip.now, cntState := (s.chip.emergency.mirror.get d).cntState + 1
          cntFault := if st = .faultStop then (s.chip.emergency.mirror.get d).cntFault + 1 else (s.chip.emergency.mirror.get d).cntFault } := by
    simp only [Mirror.see, State.entry, and_self, if_true, h1, h2]
  rw [State.postDeck_hears h, hm]
  rfl

theorem Chip.setDeckState_ne {ch : Chip} {d : Deck} {st : DeckState} (h : (ch.decks.get d).seq.state ≠ st) :
    ch.setDeckState d st = ((ch.modDeck d (·.inState st)).postDeck d Ev.deckState (servoUnit d) (BitVec.ofNat 32 st.code)).applyHold d := by
  unfold Chip.setDeckState
  rw [if_neg h]
  rfl

/-- A deck that no hold is to switch off enters another state. -/
theorem State.setDeckState_enters {s : State} {d : Deck} {i : Ctx} (h : s.Hears d i) (hp : s.chip.domains.holdPend.getLsbD d.val = false)
    {k : DeckAll} (hl : k.lock = (s.chip.decks.get d).lock) {st : DeckState} (hst : k.seq.state ≠ st) :
    (s.withDeck d k).chip.setDeckState d st = (s.enteredAs d i st (k.inState st)).chip := by
  have hk : (k.inState st).lock = (s.chip.decks.get d).lock := by simpa [DeckAll.inState] using hl
  have hne : ((s.withDeck d k).chip.decks.get d).seq.state ≠ st := by simpa [State.withDeck] using hst
  rw [Chip.setDeckState_ne hne, State.modDeck_withDeck]
  refine (congrArg (fun c => Chip.applyHold c d) (State.postDeck_state (h.withDeck hk) st)).trans ?_
  exact Chip.applyHold_not fun e => absurd (hp.symm.trans e) Bool.false_ne_true

@[simp] theorem State.enteredAs_modDeck (s : State) (d : Deck) (i : Ctx) (st : DeckState) (k1 : DeckAll) (f : DeckAll → DeckAll) :
    (s.enteredAs d i st k1).chip.modDeck d f = (s.enteredAs d i st (f k1)).chip := by
  simp [State.enteredAs, Chip.modDeck]

@[simp] theorem State.enteredAs_get (s : State) (d : Deck) (i : Ctx) (st : DeckState) (k1 : DeckAll) :
    (s.enteredAs d i st k1).chip.decks.get d = k1 := vector_get_set_self ..

/-- New motion targets, and the slot targets that follow (R397). -/
def DeckAll.steer (k : DeckAll) (g : DeckSeq → DeckSeq) : DeckAll := (k.modSeq g).retarget

@[simp] theorem State.drive_withDeck (s : State) (d : Deck) (k : DeckAll) (g : DeckSeq → DeckSeq) :
    (s.withDeck d k).chip.drive d g = (s.withDeck d (k.steer g)).chip := State.modDeck_withDeck ..

theorem State.withDeck_get (s : State) (d : Deck) (k : DeckAll) : (s.withDeck d k).chip.decks.get d = k := vector_get_set_self ..

/-- The head on the wrap `w`, for its direction (R443). -/
def DeckAll.aimed (k : DeckAll) (f : Profile) (w : BitVec 6) : DeckAll :=
  k.steer (fun q => { q with reverse := w.getLsbD 0, posTarget := wrapTarget f w.toNat 0, posRamp := approachRamp f, offset := 0 })

/-- The tape under way at `v` along the wrap `w`. -/
def DeckAll.along (k : DeckAll) (f : Profile) (w : BitVec 6) (v : Nat) : DeckAll := (k.aimed f w).steer (fun q => { q with capSpeed := v })

/-! ### The motion requests (R20) -/

section
variable {s : State} {d : Deck} {i : Ctx} (hh : s.Hears d i) (hp : s.chip.domains.holdPend.getLsbD d.val = false)
  {k : DeckAll} (hl : k.lock = (s.chip.decks.get d).lock)
include hh hp hl

theorem State.carryOut_stop (hst : k.seq.state = .streaming) :
    (s.withDeck d k).chip.carryOut d .stop
      = (s.enteredAs d i .stopping ((k.steer (fun q => { q with capSpeed := 0 })).inState .stopping)).chip := by
  have hc : (s.withDeck d k).chip.carryOut d .stop = (s.withDeck d k).chip.controlledStop d := by
    unfold Chip.carryOut
    simp only [State.withDeck_get, hst, if_true]
  rw [hc, Chip.controlledStop, State.drive_withDeck]
  exact State.setDeckState_enters hh hp (by simpa [DeckAll.steer] using hl) (by simp [DeckAll.steer, hst])

variable {f : Profile} (hf : k.profile = some f)
include hf

omit hh hp hl in
theorem State.aimAt_withDeck (w : BitVec 6) : (s.withDeck d k).chip.aimAt d w = (s.withDeck d (k.aimed f w)).chip := by
  unfold Chip.aimAt
  simp only [State.withDeck_get, hf, State.drive_withDeck]
  rfl

theorem State.startTape_along (hst : k.seq.state = .ready) (w : BitVec 6) (v : Nat) :
    ((s.withDeck d k).chip.aimAt d w).startTape d v = (s.enteredAs d i .streaming ((k.along f w v).inState .streaming)).chip := by
  rw [State.aimAt_withDeck hf, Chip.startTape, State.drive_withDeck]
  exact State.setDeckState_enters hh hp (by simpa [DeckAll.aimed, DeckAll.steer] using hl) (by simp [DeckAll.aimed, DeckAll.steer, hst])

theorem State.carryOut_start {buf : DsBuf} {bufs : List DsBuf} (hst : k.seq.state = .ready) (hb : k.roller.buffers = buf :: bufs)
    (hn : buf.started = false) :
    (s.withDeck d k).chip.carryOut d .start
      = (s.enteredAs d i .streaming ((k.along f (k.wrapFor buf.ds) (speedOf f k.matcher.target)).inState .streaming)).chip := by
  rw [← State.startTape_along hh hp hl hf hst]
  unfold Chip.carryOut
  simp [hf, hb, hst, hn, DeckState.runsTape]

theorem State.carryOut_move {o : DeckOp} (hst : k.seq.state = .ready) (ho : k.seq.op = some o) (hm : o.moving = true) (hpass : k.strainer.pass = 0)
    (v : Nat) : (s.withDeck d k).chip.carryOut d (.move v) = (s.enteredAs d i .streaming ((((k.aimed f k.tape.wrap).steer (fun q =>
      { q with posTarget := wrapTarget f k.tape.wrap.toNat 0, posRamp := approachRamp f, offset := 0 })).steer (fun q =>
      { q with capSpeed := v })).inState .streaming)).chip := by
  have hc : (s.withDeck d k).chip.carryOut d (.move v)
      = (((s.withDeck d k).chip.aimAt d k.tape.wrap).offsetHead d k.strainer.pass.toNat).startTape d v := by
    unfold Chip.carryOut
    simp only [State.withDeck_get, hst, ho, DeckState.runsTape, Option.any_some, hm]
    rfl
  have hoff : (s.withDeck d (k.aimed f k.tape.wrap)).chip.offsetHead d 0 = (s.withDeck d ((k.aimed f k.tape.wrap).steer (fun q =>
      { q with posTarget := wrapTarget f k.tape.wrap.toNat 0, posRamp := approachRamp f, offset := 0 }))).chip := by
    have hpf : (k.aimed f k.tape.wrap).profile = some f := by simpa [DeckAll.aimed, DeckAll.steer] using hf
    have htape : (k.aimed f k.tape.wrap).tape = k.tape := by simp [DeckAll.aimed, DeckAll.steer]
    unfold Chip.offsetHead
    simp only [State.withDeck_get, hpf, htape, State.drive_withDeck]
    rfl
  rw [hc, State.aimAt_withDeck hf, hpass, show (0 : BitVec _).toNat = 0 from rfl, hoff, Chip.startTape, State.drive_withDeck]
  exact State.setDeckState_enters hh hp (by simpa [DeckAll.aimed, DeckAll.steer] using hl) (by simp [DeckAll.aimed, DeckAll.steer, hst])

theorem State.carryOut_unload {o : DeckOp} (hst : k.seq.state = .ready) (ho : k.seq.op = some o) (hop : o.op = .unload) (hfl : o.flushing = false) :
    (s.withDeck d k).chip.carryOut d .unload = (s.enteredAs d i .unloading ((k.steer (fun q =>
      { q with stage := 1, unloadAfter := false, capSpeed := 0, posTarget := wrapTarget f 0 0, posRamp := approachRamp f })).inState .unloading)).chip := by
  have hc : (s.withDeck d k).chip.carryOut d .unload = (s.withDeck d k).chip.startUnload d := by
    unfold Chip.carryOut
    simp only [State.withDeck_get, hst, ho, DeckState.runsTape, Option.any_some, hop, hfl]
    rfl
  rw [hc]
  unfold Chip.startUnload
  simp only [State.withDeck_get, hf, State.drive_withDeck]
  exact State.setDeckState_enters hh hp (by simpa [DeckAll.steer] using hl) (by simp [DeckAll.steer, hst])

/-- The loops start on a deck whose trip inputs are all quiet (R423, R441). -/
def DeckAll.looped (k : DeckAll) (f : Profile) (t : W64) : DeckAll :=
  DeckAll.retarget (DeckAll.askModes { k with
    loops := k.loops.begin f.loopPeriod t
    io := { k.io with invalid := 0, posHold := none, anchor := true, axes := k.io.axes.map (fun x => { x with carryA := 0, carryB := 0 }) } })

omit hh hp hl in
theorem State.startLoops_quiet {st : DeckState} (ht : ∀ a, (k.io.axes.get a).tripIn = false) :
    (s.enteredAs d i st k).chip.startLoops d = (s.enteredAs d i st (k.looped f s.chip.now)).chip := by
  have hq : ∀ a, ((k.looped f s.chip.now).io.axes.get a).tripIn = false := by
    intro a
    simp [DeckAll.looped, ht]
  unfold Chip.startLoops
  simp only [State.enteredAs_get, hf]
  rw [State.enteredAs_modDeck]
  refine foldl_fixed_of_mem fun a _ => ?_
  refine if_neg fun h => ?_
  rw [State.enteredAs_get] at h
  exact Bool.false_ne_true ((hq a).symm.trans h.1)

/-- THREAD begins for a LOAD: a quarter of the tension, and no tape in place yet (R449). -/
def DeckAll.threaded (k : DeckAll) (f : Profile) : DeckAll :=
  ({ k with tape := { k.tape with
      media := none, mid := false, offset := 0, ds := none, ahead := .unknown, declared := none, walk := none, current := none } } : DeckAll).modSeq
    (fun q => { q with
      tension := f.tensionSet / 4, capSpeed := 0, reverse := false, posTarget := k.io.posRaw - k.io.home.offset, offset := 0
      posRamp := approachRamp f, rhoSup := none, rhoTku := none, stage := 0, unloadAfter := false, rest := false })

theorem State.carryOut_load {o : DeckOp} (hst : k.seq.state = .present) (ho : k.seq.op = some o) (hop : o.op = .load)
    (ht : ∀ a, (k.io.axes.get a).tripIn = false) :
    (s.withDeck d k).chip.carryOut d (.load false)
      = (s.enteredAs d i .thread (((k.threaded f).inState .thread).looped f s.chip.now)).chip := by
  have hc : (s.withDeck d k).chip.carryOut d (.load false) = (s.withDeck d k).chip.startLoad d false := by
    unfold Chip.carryOut
    simp only [State.withDeck_get, hst, ho, Option.any_some, hop]
    rfl
  have hm : (s.withDeck d k).chip.startLoad d false = ((s.withDeck d (k.threaded f)).chip.setDeckState d .thread).startLoops d := by
    unfold Chip.startLoad
    simp only [State.withDeck_get, hf]
    rw [State.modDeck_withDeck]
    rfl
  have he := State.setDeckState_enters hh hp (k := k.threaded f) (st := .thread) hl (by simp [DeckAll.threaded, hst])
  rw [hc, hm, he]
  exact State.startLoops_quiet (by simpa [DeckAll.inState, DeckAll.threaded] using hf) (by
    intro a
    simpa [DeckAll.inState, DeckAll.threaded] using ht a)

/-- Homing afresh from the present raw position (R434, Table 17-5). -/
def DeckAll.unhomed (k : DeckAll) : DeckAll :=
  { k with io := { k.io with
      posHold := none
      home := { step := 1, homed := false, offset := 0, latch1 := 0, latch2 := 0, latch2At := 0, glitches := 0, fromPos := k.io.posRaw } } }

/-- The first target of homing from the raw position `pos`: away from POSLO# when it is active, else toward it. -/
def DeckAll.homesFrom (k : DeckAll) (f : Profile) (pos : Int) : DeckAll :=
  if k.io.posLo.active then k.steer (fun q => { q with posTarget := pos + travelLimit f + 2000000, posRamp := approachRamp f })
  else ({ k with io := { k.io with home := { k.io.home with step := 2, fromPos := pos } } } : DeckAll).steer (fun q =>
    { q with posTarget := pos - travelLimit f - 2000000, posRamp := approachRamp f })

omit hf in
theorem State.beginHoming_withDeck (hst : k.seq.state ≠ .homing) :
    (s.withDeck d k).chip.beginHoming d f = (s.enteredAs d i .homing ((k.unhomed.inState .homing).homesFrom f k.io.posRaw)).chip := by
  have he : (s.withDeck d k.unhomed).chip.setDeckState d .homing = (s.enteredAs d i .homing (k.unhomed.inState .homing)).chip :=
    State.setDeckState_enters hh hp (by exact hl) (by exact hst)
  have hm : ((s.withDeck d k).chip.modIo d (fun io => { io with posHold := none, home :=
      { step := 1, homed := false, offset := 0, latch1 := 0, latch2 := 0, latch2At := 0, glitches := 0, fromPos := k.io.posRaw } }))
        = (s.withDeck d k.unhomed).chip := State.modDeck_withDeck ..
  unfold Chip.beginHoming
  simp only [State.withDeck_get, hm, he, State.enteredAs_get]
  unfold DeckAll.homesFrom
  split
  · exact State.enteredAs_modDeck ..
  · unfold Chip.approach Chip.modIo Chip.drive
    rw [State.enteredAs_modDeck, State.enteredAs_modDeck]
    rfl

/-- HOME on its own starts at rest. -/
def DeckAll.halted (k : DeckAll) : DeckAll :=
  k.modSeq (fun q => { q with capSpeed := 0, rest := false, posTarget := k.io.posRaw - k.io.home.offset })

theorem State.carryOut_home {o : DeckOp} (hst : k.seq.state = .empty ∨ k.seq.state = .present) (ho : k.seq.op = some o) (hop : o.op = .home)
    (hfl : o.flushing = false) (hrun : k.loops.running = false) (ht : ∀ a, (k.io.axes.get a).tripIn = false) :
    (s.withDeck d k).chip.carryOut d .home
      = (s.enteredAs d i .homing (((k.halted.unhomed.inState .homing).homesFrom f k.io.posRaw).looped f s.chip.now)).chip := by
  have hc : (s.withDeck d k).chip.carryOut d .home = (s.withDeck d k).chip.startHome d := by
    unfold Chip.carryOut
    rcases hst with e | e <;> simp [e, ho, hop, hfl]
  have hne : k.halted.seq.state ≠ .homing := by
    rcases hst with e | e <;> simp [DeckAll.halted, e]
  have hm : (s.withDeck d k).chip.startHome d = ((s.withDeck d k.halted).chip.beginHoming d f).startLoops d := by
    unfold Chip.startHome
    simp only [State.withDeck_get, hf, hrun, Bool.not_false, if_true]
    rw [State.modDeck_withDeck]
    rfl
  have hb := State.beginHoming_withDeck (k := k.halted) (f := f) hh hp hl hne
  rw [hc, hm, hb]
  refine State.startLoops_quiet ?_ ?_
  · unfold DeckAll.homesFrom
    split <;> simpa [DeckAll.steer, DeckAll.inState, DeckAll.unhomed, DeckAll.halted] using hf
  · intro a
    unfold DeckAll.homesFrom
    split <;> simpa [DeckAll.steer, DeckAll.inState, DeckAll.unhomed, DeckAll.halted] using ht a

end

/-! ### DECK_STOP (R188, R190, R452) -/

/-- A deck on which nothing but motion can stop (R178). -/
structure State.StopReady (s : State) (h : CmdHdr) (d : Deck) : Prop where
  locked : s.Locked h d
  raising : s.chip.kettle.raising = []
  quiet : (s.chip.decks.get d).Quiet

section
variable {s : State} {h : CmdHdr} {rest : List Cmd} {d : Deck} (hr : s.StopReady h d)
include hr

/-- DECK_STOP comes to its effect from every state but DORMANT. -/
theorem State.StopReady.deckEffect (hst : (s.chip.decks.get d).seq.state ≠ .dormant)
    (hs : s.Heads .deckStop h [BitVec.ofNat 8 d.val, 0, 0, 0] rest) :
    deckEffect .deckStop h [BitVec.ofNat 8 d.val, 0, 0, 0] s.chip
      = (s.started h rest .deckStop d).chip.actStop (cmdOf .deckStop h [BitVec.ofNat 8 d.val, 0, 0, 0]) d := by
  have he : (s.started h rest .deckStop d).chip.Early (cmdOf .deckStop h [BitVec.ofNat 8 d.val, 0, 0, 0]) d :=
    ⟨hr.locked.2.1, hr.locked.2.2.1, hst, (fun e => nomatch e), (fun e => nomatch e), (fun e => nomatch e)⟩
  have hl : (s.started h rest .deckStop d).chip.loadFor (cmdOf .deckStop h [BitVec.ofNat 8 d.val, 0, 0, 0]) d = none := by
    unfold Chip.loadFor
    cases hp : (s.chip.decks.get d).profile with
    | none => simp [State.started, hp]
    | some f => simp [State.started, hp, cmdOf, Op.writeSide, Op.readSide]
  rw [Machine.deckEffect_run hs hr.locked (by decide) (deckOf_cons ..) rfl (rangeBad_motion (by simp) ..),
    Chip.run_none (Chip.judge_none he rfl (Chip.order9bcd_off (op := .deckStop) rfl (by decide) d) rfl) rfl rfl, Chip.declareAndAct_none hl]
  rfl

theorem State.StopReady.abortWork (st : Stat) :
    (s.started h rest .deckStop d).chip.abortWork d st = (s.started h rest .deckStop d).chip :=
  Chip.abortWork_quiet (ch := (s.started h rest .deckStop d).chip) hr.quiet hr.raising st

/-- The DECK_STOP that waits for rest (R190). -/
def stopWaiter (h : CmdHdr) (already : Bool) : StopWaiter := { ctx := h.ctx, tag := h.tag, rcrc := h.rcrc, already := already, failed := false }

/-- The state in which DECK_STOP waits for rest, with the work queue become `work`. -/
def State.stopping (s : State) (h : CmdHdr) (rest : List Cmd) (d : Deck) (already : Bool) (work : List Motion) : State :=
  let k := s.chip.decks.get d
  { s.started h rest .deckStop d with
    chip.decks := s.chip.decks.set d { k with
      seq := { k.seq with stopAt := k.roller.next, stopWaiters := k.seq.stopWaiters ++ [stopWaiter h already] }, workQ := work } }

omit hr in
theorem State.started_waitStop (p : List Byte) (already : Bool) :
    (s.started h rest .deckStop d).chip.waitStop (cmdOf .deckStop h p) d already = (s.stopping h rest d already (s.chip.decks.get d).workQ).chip := rfl

theorem exec_deckStop_streaming (hst : (s.chip.decks.get d).seq.state = .streaming) (ho : (s.chip.decks.get d).roller.open_ = none)
    (hb : (s.chip.decks.get d).roller.buffers = []) (hg : (s.chip.decks.get d).roller.gate = false) (hw : .stop ∉ (s.chip.decks.get d).workQ)
    (hs : s.Heads .deckStop h [BitVec.ofNat 8 d.val, 0, 0, 0] rest) :
    exec (.deckStop h [BitVec.ofNat 8 d.val, 0, 0, 0]) s = .next (s.stopping h rest d false ((s.chip.decks.get d).workQ ++ [.stop])) := by
  have hst' : ((s.started h rest .deckStop d).chip.decks.get d).seq.state = .streaming := hst
  have hws : ((s.started h rest .deckStop d).chip.decks.get d).writesStructures = false := by
    have hop : ((s.started h rest .deckStop d).chip.decks.get d).seq.op = none := hr.quiet.op
    simp [DeckAll.writesStructures, hop]
  have hpad : (s.started h rest .deckStop d).chip.paddedClose d = (s.started h rest .deckStop d).chip := by
    have ho' : ((s.started h rest .deckStop d).chip.decks.get d).roller.open_ = none := ho
    unfold Chip.paddedClose
    simp only [ho']
  refine State.onChip_to ?_ rfl
  rw [hr.deckEffect (by rw [hst]; decide) hs]
  unfold Chip.actStop
  simp only [hr.abortWork, hst', hws, Bool.false_eq_true, if_false, hpad, State.started_waitStop]
  unfold Chip.stopIfDue
  rw [if_pos]
  · simp [Chip.ask, Chip.modDeck, State.stopping]
  · simp [State.stopping, hst, hb, hg, hw]

theorem exec_deckStop_faulted (hst : (s.chip.decks.get d).seq.state = .faultStop) (hrest : (s.chip.decks.get d).seq.rest = false)
    (hs : s.Heads .deckStop h [BitVec.ofNat 8 d.val, 0, 0, 0] rest) :
    exec (.deckStop h [BitVec.ofNat 8 d.val, 0, 0, 0]) s = .next (s.stopping h rest d true (s.chip.decks.get d).workQ) := by
  have hst' : ((s.started h rest .deckStop d).chip.decks.get d).seq.state = .faultStop := hst
  have hrest' : ((s.started h rest .deckStop d).chip.decks.get d).seq.rest = false := hrest
  refine State.onChip_to ?_ rfl
  rw [hr.deckEffect (by rw [hst]; decide) hs]
  unfold Chip.actStop
  simp only [hr.abortWork, hst', hrest', Bool.false_eq_true, if_false, State.started_waitStop]

theorem exec_deckStop_rested (hst : (s.chip.decks.get d).seq.state = .faultStop) (hrest : (s.chip.decks.get d).seq.rest = true)
    (hs : s.Heads .deckStop h [BitVec.ofNat 8 d.val, 0, 0, 0] rest) :
    exec (.deckStop h [BitVec.ofNat 8 d.val, 0, 0, 0]) s = .next (s.deckAnswered h rest d (s.chip.decks.get d) Stat.already []) := by
  have hst' : ((s.started h rest .deckStop d).chip.decks.get d).seq.state = .faultStop := hst
  have hrest' : ((s.started h rest .deckStop d).chip.decks.get d).seq.rest = true := hrest
  refine State.onChip_to ?_ rfl
  rw [hr.deckEffect (by rw [hst]; decide) hs]
  unfold Chip.actStop
  simp only [hr.abortWork, hst', hrest', if_true]
  exact State.started_answerCmd hs.2.1 hr.locked.1 ..

end

/-- A request that is carried out as `k1` answers it. -/
theorem exec_deckWorkRequest_as {s : State} {d : Deck} {i : Ctx} {m : Motion} {work : List Motion} {st : DeckState} {k1 : DeckAll}
    (hq : (s.chip.decks.get d).workQ = m :: work) (hs : s.chip.servoOn d = true)
    (hc : (s.withDeck d { s.chip.decks.get d with workQ := work }).chip.carryOut d m = (s.enteredAs d i st k1).chip) :
    exec (.deckWorkRequest d) s = .next (s.enteredAs d i st k1) := by
  rw [exec_deckWorkRequest hq hs, State.modDeck_eq, hc]
  rfl

/-- Settles O29: DECK_STOP finds no work to end but the motion itself, and at a request deck sequencing sets the targets, enters the state and
tells it; nothing of that touches what is written, read or locked. -/
theorem stopsAndMotionRequests : Obligations.StopsAndMotionRequests := by
  unfold Obligations.StopsAndMotionRequests
  intro s d k
  refine ⟨?_, ?_⟩
  · intro h rest hk hraise hop hwait hread htune p waiter stops hs
    have hr : s.StopReady h d := ⟨hk, hraise, hop, hwait, hread, htune⟩
    exact ⟨fun hst ho hb hg hw => exec_deckStop_streaming hr hst ho hb hg hw hs, fun hst hrest => exec_deckStop_faulted hr hst hrest hs,
      fun hst hrest => exec_deckStop_rested hr hst hrest hs⟩
  · intro i m work f hq hs hh hp hf ends
    refine ⟨fun hm hst => ?_, fun v o hm hst ho hmov hpass => ?_, fun buf bufs hm hst hb hn => ?_, fun o hm hst ho hop hfl => ?_, fun o ho hrun ht => ⟨?_, ?_⟩⟩
    · subst hm
      refine ⟨_, exec_deckWorkRequest_as hq hs (State.carryOut_stop (k := { s.chip.decks.get d with workQ := work }) hh hp rfl hst), ?_⟩
      simp [k, DeckAll.inState, DeckAll.steer]
    · subst hm
      refine ⟨_, exec_deckWorkRequest_as hq hs (State.carryOut_move (k := { s.chip.decks.get d with workQ := work }) hh hp rfl hf hst ho hmov hpass v), ?_⟩
      simp [k, DeckAll.inState, DeckAll.steer, DeckAll.aimed]
    · subst hm
      refine ⟨_, exec_deckWorkRequest_as hq hs (State.carryOut_start (k := { s.chip.decks.get d with workQ := work }) hh hp rfl hf hst hb hn), ?_⟩
      simp [k, DeckAll.inState, DeckAll.steer, DeckAll.aimed, DeckAll.along, DeckAll.wrapFor]
    · subst hm
      refine ⟨_, exec_deckWorkRequest_as hq hs (State.carryOut_unload (k := { s.chip.decks.get d with workQ := work }) hh hp rfl hf hst ho hop hfl), ?_⟩
      simp [k, DeckAll.inState, DeckAll.steer]
    · intro hm hop hst
      subst hm
      refine ⟨_, exec_deckWorkRequest_as hq hs (State.carryOut_load (k := { s.chip.decks.get d with workQ := work }) hh hp rfl hf hst ho hop ht), ?_⟩
      simp [k, DeckAll.inState, DeckAll.looped, DeckAll.threaded, Loops.begin]
    · intro hm hop hfl hst
      subst hm
      refine ⟨_, exec_deckWorkRequest_as hq hs (State.carryOut_home (k := { s.chip.decks.get d with workQ := work }) hh hp rfl hf hst ho hop hfl hrun ht), ?_⟩
      cases hpos : (s.chip.decks.get d).io.posLo.active <;>
        simp [k, DeckAll.inState, DeckAll.looped, DeckAll.homesFrom, DeckAll.steer, DeckAll.unhomed, DeckAll.halted, Loops.begin, hpos]

end Sys2Proof.Machine
end

section
/-! SUPPORT. Whisk's engines (R299, R300, R310, R211, R278): what Ladle and F-BANK do for them leaves the contexts and the decks as they are. -/

namespace Sys2Proof.Machine

/-! ### What an engine's accesses and its requests to Ladle can change (R227–R239, R276) -/

/-- From chip a to chip b only Ladle with its answer, the buffer memory, the cache, the fault log and the domains may change. -/
def Chip.LadleOnly (a b : Chip) : Prop :=
  ∃ l m k g o n, b = { a with ladle := l, sram := m, cache := k, log := g, domains := o, ladleAnswer := n }

namespace Chip.LadleOnly

theorem refl (a : Chip) : a.LadleOnly a := ⟨a.ladle, a.sram, a.cache, a.log, a.domains, a.ladleAnswer, rfl⟩

theorem trans {a b c : Chip} (h : a.LadleOnly b) (g : b.LadleOnly c) : a.LadleOnly c := by
  obtain ⟨_, _, _, _, _, _, rfl⟩ := h
  obtain ⟨l, m, k, g, o, n, rfl⟩ := g
  exact ⟨l, m, k, g, o, n, rfl⟩

theorem foldl {α : Type} {f : Chip → α → Chip} (h : ∀ (c : Chip) (x : α), c.LadleOnly (f c x)) (xs : List α) (a : Chip) :
    a.LadleOnly (xs.foldl f a) := by
  induction xs generalizing a with
  | nil => exact refl a
  | cons x xs ih => exact (h a x).trans (ih _)

theorem of_bufferOnly {a b : Chip} (h : a.BufferOnly b) : a.LadleOnly b := by
  obtain ⟨l, m, k, g, rfl⟩ := h
  exact ⟨l, m, k, g, a.domains, a.ladleAnswer, rfl⟩

theorem answer {a b : Chip} (h : a.LadleOnly b) (x : LadleAnswer) : a.LadleOnly (b.answer x) := by
  obtain ⟨l, m, k, g, o, n, rfl⟩ := h
  exact ⟨l, m, k, g, o, x, rfl⟩

theorem modLadle {a b : Chip} (h : a.LadleOnly b) (f : Ladle → Ladle) : a.LadleOnly (b.modLadle f) := by
  obtain ⟨l, m, k, g, o, n, rfl⟩ := h
  exact ⟨f l, m, k, g, o, n, rfl⟩

theorem relist {a b : Chip} (h : a.LadleOnly b) (f : Ladle → Ladle) : a.LadleOnly (b.relist f) := h.trans (of_bufferOnly (b.relist_bufferOnly f))

theorem logFault {a b : Chip} (h : a.LadleOnly b) (code : Byte) (unit : Nat) (x y z : W32) : a.LadleOnly (b.logFault code unit 0 x y z) :=
  h.trans (of_bufferOnly (b.logFault_bufferOnly code unit x y z))

/-- A change of a context goes along with what an engine's requests change. -/
theorem modCtx {a b : Chip} (h : a.LadleOnly b) (i : Ctx) (f : Context → Context) : (a.modCtx i f).LadleOnly (b.modCtx i f) := by
  obtain ⟨l, m, k, g, o, n, rfl⟩ := h
  exact ⟨l, m, k, g, o, n, rfl⟩

/-- So does a change of a deck. -/
theorem modDeck {a b : Chip} (h : a.LadleOnly b) (d : Deck) (f : DeckAll → DeckAll) : (a.modDeck d f).LadleOnly (b.modDeck d f) := by
  obtain ⟨l, m, k, g, o, n, rfl⟩ := h
  exact ⟨l, m, k, g, o, n, rfl⟩

theorem ctxs {a b : Chip} (h : a.LadleOnly b) : b.ctxs = a.ctxs := by
  obtain ⟨_, _, _, _, _, _, rfl⟩ := h
  rfl

theorem decks {a b : Chip} (h : a.LadleOnly b) : b.decks = a.decks := by
  obtain ⟨_, _, _, _, _, _, rfl⟩ := h
  rfl

theorem timebase {a b : Chip} (h : a.LadleOnly b) : b.timebase = a.timebase := by
  obtain ⟨_, _, _, _, _, _, rfl⟩ := h
  rfl

theorem held {a b : Chip} (h : a.LadleOnly b) : b.held = a.held := by
  obtain ⟨_, _, _, _, _, _, rfl⟩ := h
  rfl

/-- What a change of a context and a deck has made, whatever an engine's requests change beside it. -/
theorem made {a b : Chip} {i : Ctx} {g : Context → Context} {d : Deck} {f : DeckAll → DeckAll} (h : ((a.modCtx i g).modDeck d f).LadleOnly b) :
    b.ctxs.get i = g (a.ctxs.get i) ∧ (∀ j, j ≠ i → b.ctxs.get j = a.ctxs.get j) ∧
    b.decks.get d = f (a.decks.get d) ∧ (∀ e, e ≠ d → b.decks.get e = a.decks.get e) ∧ b.timebase = a.timebase := by
  rw [h.ctxs, h.decks]
  exact ⟨vector_get_set_self .., fun j hj => vector_get_set_ne _ _ _ _ hj, vector_get_set_self .., fun e he => vector_get_set_ne _ _ _ _ he,
    h.timebase⟩

end Chip.LadleOnly

/-- A change of a deck and one of a context do not touch each other. -/
theorem Chip.modDeck_modCtx (ch : Chip) (d : Deck) (f : DeckAll → DeckAll) (i : Ctx) (g : Context → Context) :
    (ch.modDeck d f).modCtx i g = (ch.modCtx i g).modDeck d f := rfl

/-! #### Accesses (R276, R285) -/

theorem Chip.storeWord_bufferOnly (a : Chip) (w : BitVec 18) (data : List Byte) (poison : Bool) : a.BufferOnly (a.storeWord w data poison) :=
  a.putSyms_bufferOnly _ _

theorem Chip.writeBytes_bufferOnly (a : Chip) (i : Nat) (w : BitVec 18) (mask : W16) (data : List Byte) (poison : Bool) (err : List Byte) :
    a.BufferOnly (a.writeBytes i w mask data poison err) := by
  have h0 : a.BufferOnly (if cookInput i then a else a.snoopWrite w) := by
    split
    · exact .refl a
    · exact a.snoopWrite_bufferOnly w
  unfold Chip.writeBytes
  dsimp only
  split
  · exact h0.trans (Chip.storeWord_bufferOnly ..)
  · exact ((h0.trans (Chip.modSram_bufferOnly ..)).trans (Chip.logRead_bufferOnly ..)).trans (Chip.storeWord_bufferOnly ..)

theorem Chip.readRuns_bufferOnly (a : Chip) (i : Nat) (dm : Damage) (runs : List (Nat × List Nat)) : a.BufferOnly (a.readRuns i dm runs).1 := by
  induction runs generalizing a with
  | nil => exact .refl a
  | cons x runs ih => exact (a.demandRead_bufferOnly ..).trans (ih _)

theorem Chip.writeRuns_bufferOnly (a : Chip) (i : Nat) (dm : Damage) (runs : List (Nat × List Nat)) (bs : List (Byte × Bool)) :
    a.BufferOnly (a.writeRuns i dm runs bs) := by
  induction runs generalizing a bs with
  | nil => exact .refl a
  | cons x runs ih => exact (a.writeBytes_bufferOnly ..).trans (ih _ _)

/-! #### Requests to Ladle (R236–R239, R490) -/

theorem Chip.badPtr_ladleOnly (a : Chip) (address reason requester op : Nat) : a.LadleOnly (a.badPtr address reason requester op) :=
  (((Chip.LadleOnly.refl a).modLadle _).logFault ..).answer _

theorem Chip.notHolder_ladleOnly (a : Chip) (address requester op : Nat) : a.LadleOnly (a.notHolder address requester op) :=
  (((Chip.LadleOnly.refl a).modLadle _).logFault ..).answer _

theorem Chip.badOwner_ladleOnly (a : Chip) (owner requester : Nat) : a.LadleOnly (a.badOwner owner requester) :=
  (((Chip.LadleOnly.refl a).modLadle _).logFault ..).answer _

theorem Chip.shareFullAnswer_ladleOnly (a : Chip) : a.LadleOnly a.shareFullAnswer := ((Chip.LadleOnly.refl a).modLadle _).answer _

/-- Naming a unit reads one header at most. -/
theorem Chip.nameUnit_ladleOnly (a : Chip) (address : Nat) (cellsOnly isRelease : Bool) :
    a.LadleOnly (a.nameUnit address cellsOnly isRelease).1 := by
  have hr := Chip.LadleOnly.of_bufferOnly (a.readHead_bufferOnly (16 * (address / 256)) (headerOk (address / 256)))
  unfold Chip.nameUnit
  dsimp only
  generalize (!isRelease && List.any _ _ : Bool) = r1
  generalize (!isRelease && blockRetired _ _ : Bool) = r2
  split
  · split
    · exact .refl a
    split
    · exact .refl a
    split
    · exact hr
    split <;> exact hr
  split
  · exact .refl a
  split
  · exact .refl a
  split
  · exact .refl a
  split
  · split
    · exact .refl a
    · split <;> exact .refl a
  · exact .refl a

theorem Chip.rehold_ladleOnly (a : Chip) (u : NamedUnit) (owner : Nat) (holders : List Nat) : a.LadleOnly (a.rehold u owner holders) := by
  cases u <;> unfold Chip.rehold
  case chain k => exact (Chip.LadleOnly.refl a).relist _
  case block j b => exact (Chip.LadleOnly.refl a).modLadle _

theorem Chip.freeUnit_ladleOnly (a : Chip) (u : NamedUnit) : a.LadleOnly (a.freeUnit u) := by
  cases u <;> unfold Chip.freeUnit
  case chain k => exact (Chip.LadleOnly.refl a).relist _
  case block j b =>
    dsimp only
    split <;> exact (Chip.LadleOnly.refl a).relist _

theorem Chip.settleSram_ladleOnly (a : Chip) : a.LadleOnly a.settleSram := by
  unfold Chip.settleSram
  split
  · exact .refl a
  · refine .foldl (fun c q => ?_) _ _
    dsimp only
    split
    · exact ⟨c.ladle, c.sram, c.cache, c.log, _, c.ladleAnswer, rfl⟩
    · exact .refl c

theorem Chip.releaseUnit_ladleOnly (a : Chip) (requester address : Nat) (lawful : Bool) :
    a.LadleOnly (a.releaseUnit requester address lawful) := by
  have hn := a.nameUnit_ladleOnly address false true
  unfold Chip.releaseUnit
  split
  next c0 reason e => rw [e] at hn; exact hn.trans (c0.badPtr_ladleOnly ..)
  next c0 u e =>
    rw [e] at hn
    split
    · exact hn.trans (c0.notHolder_ladleOnly ..)
    dsimp only
    split
    · exact ((hn.trans (c0.freeUnit_ladleOnly u)).trans (Chip.settleSram_ladleOnly _)).answer _
    · exact (hn.trans (c0.rehold_ladleOnly ..)).answer _

theorem Chip.handUnit_ladleOnly (a : Chip) (requester address holder : Nat) (critical lawful : Bool) :
    a.LadleOnly (a.handUnit requester address holder critical lawful) := by
  have hn := a.nameUnit_ladleOnly address false false
  unfold Chip.handUnit
  split
  next c0 reason e => rw [e] at hn; exact hn.trans (c0.badPtr_ladleOnly ..)
  next c0 u e =>
    rw [e] at hn
    split
    · exact hn.trans (c0.notHolder_ladleOnly ..)
    split
    · exact hn.trans (c0.badOwner_ladleOnly ..)
    split
    · exact hn.answer _
    split
    · exact hn.answer _
    generalize (if (critical && isInternal requester) = true then 1024 else 1008) = limit
    cases u with
    | chain k =>
      dsimp only
      split
      · exact hn.trans c0.shareFullAnswer_ladleOnly
      · exact (hn.trans (c0.rehold_ladleOnly ..)).answer _
    | block j b => exact (hn.trans (c0.rehold_ladleOnly ..)).answer _

theorem Chip.releaseCells_ladleOnly (a : Chip) (r : Nat) (cells : List Nat) : a.LadleOnly (a.releaseCells r cells) := by
  cases cells with
  | nil => exact .refl a
  | cons i is => exact a.releaseUnit_ladleOnly ..

theorem Chip.releaseBlocks_ladleOnly (a : Chip) (owner : Nat) (addresses : List Nat) : a.LadleOnly (a.releaseBlocks owner addresses) :=
  .foldl (fun c _ => c.releaseUnit_ladleOnly ..) _ _

theorem Chip.unreserve_ladleOnly (a : Chip) (n : Nat) : a.LadleOnly (a.unreserve n) := (Chip.LadleOnly.refl a).relist _

theorem Chip.dropRec_ladleOnly (a : Chip) (i : Ctx) (r : Rec) : a.LadleOnly (a.dropRec i r) :=
  (a.releaseCells_ladleOnly i.val r.chain).trans (Chip.unreserve_ladleOnly ..)

theorem Chip.drawReserved_ladleOnly (a : Chip) (r o n : Nat) : a.LadleOnly (a.drawReserved r o n) := by
  unfold Chip.drawReserved
  split
  · exact a.shareFullAnswer_ladleOnly
  · exact ((Chip.LadleOnly.of_bufferOnly (a.sweepCells_bufferOnly _)).relist _).answer _

theorem Chip.writeStored_ladleOnly (a : Chip) (d : Deck) (i : Ctx) (r : Rec) (st : Stored) (dm : Damage) :
    a.LadleOnly (a.writeStored d i r st dm).1 := by
  unfold Chip.writeStored
  dsimp only
  exact ((((a.drawReserved_ladleOnly ..).trans (.of_bufferOnly (Chip.writeRuns_bufferOnly ..))).trans (Chip.handUnit_ladleOnly ..)).trans
    (Chip.releaseUnit_ladleOnly ..)).trans (Chip.unreserve_ladleOnly ..)

/-! ### Roller with its three buffers in use takes nothing (R363, R489) -/

/-- Roller's three buffers are in use, no dataset is open, and no order, operation or completion waits on the deck. -/
structure DeckAll.Full (k : DeckAll) : Prop where
  orders : k.orders = []
  op : k.seq.op = none
  open_ : k.roller.open_ = none
  buffers : k.roller.buffers.length = 3

theorem DeckAll.Full.held {k : DeckAll} (h : k.Full) : k.roller.held = 3 := by simp [Roller.held, h.open_, h.buffers]

theorem Chip.pump_full {ch : Chip} {d : Deck} (h : (ch.decks.get d).Full) : ch.pump d = ch := by
  have ho : Chip.pumpOrders d 4 ch = ch := by simp [Chip.pumpOrders, h.orders]
  have hs : Chip.pumpStaged d 4096 ch = ch := by
    unfold Chip.pumpStaged
    dsimp only
    split
    · rfl
    split
    · rfl
    · simp [h.open_, h.held]
  unfold Chip.pump
  rw [ho, hs, ite_self]

theorem Chip.settle_full {ch : Chip} {d : Deck} (h : (ch.decks.get d).Full) : (ch.settle d).flushStep d = ch := by
  have hc : ch.closeDue d = false := by simp [Chip.closeDue, h.open_]
  have hs : ch.settle d = ch := by simp [Chip.settle, Chip.pump_full h, hc]
  rw [hs, Chip.flushStep, h.op]

/-! ### COMPRESS_RECORD (R299, R300, R310, R278) -/

/-- Whisk's compress engine of deck d (Table 19-3). -/
theorem engineUnit_compress (d : Deck) : engineUnit d 0 = 48 + 6 * d.val := rfl

/-- The words of the entry of the oldest record. -/
def Chip.entryWords (ch : Chip) (i : Ctx) (d : Deck) (slot : Option Nat) : List (BitVec 18) := slot.toList.flatMap (ch.placeWords i (3 + d.val))

theorem compressRecordEffect_free {ch : Chip} {d : Deck} (h : (ch.decks.get d).lock.state = .free) (slot : Option Nat) (dm : Damage) :
    compressRecordEffect d slot dm ch = ch := by
  simp [compressRecordEffect, DeckLock.owner, h]

theorem DeckAll.stage_poisoned (k : DeckAll) (r : StoredRec) : (k.stage r).poisoned =
    k.poisoned ++ (if r.marked then [{ object := r.object, atRoller := false, tag := r.tag }] else []) := by
  cases h : r.marked <;> simp [DeckAll.stage, h]

theorem DeckAll.stage_stored (k : DeckAll) (r : StoredRec) : (k.stage r).matcher.stored =
    k.matcher.stored + (if k.matcher.restAt.isSome then r.size else 0) := by
  cases h : k.matcher.restAt.isSome <;> simp [DeckAll.stage, h]

/-- What COMPRESS_RECORD of record r waits for: its domain, no SAFE, the cells and the entry's words served, and a free sharing entry. -/
structure Chip.Compresses (ch : Chip) (d : Deck) (i : Ctx) (r : Rec) (slot : Option Nat) : Prop where
  on : ch.domOn (48 + 6 * d.val) = true
  safe : ch.cook.safe = false
  cells : ch.cellsServed (r.chain ++ ch.outputCells r) = true
  entry : (ch.entryWords i d slot).all ch.bankServes = true
  shares : ch.ladle.sharesUsed < 1008

/-- The stored form that Whisk makes of record r, whose cells it reads (R299). -/
def Chip.storedForm (ch : Chip) (d : Deck) (r : Rec) (dm : Damage) : Stored :=
  let got := (ch.readRuns (4 + d.val) dm (wordRuns (partBytes r.parts r.chain))).2
  whiskStore (!r.raw) (fun b => ((got[b]?).map (·.2)).getD false) (got.map (·.1))

/-- What Whisk stages of record r, in the cells given (R363). -/
def Stored.item (st : Stored) (i : Ctx) (r : Rec) (cells : List Nat) : StoredRec :=
  { ctx := i, object := r.object, length := r.length, raw := st.raw, size := st.bytes.length, marked := st.poisonFrom.isSome,
    durable := r.durable, tag := r.tag, rcrc := r.rcrc, chain := cells, bytes := [] }

/-- The records that wait for Whisk of deck d become `q`. -/
def Context.withRecs (x : Context) (d : Deck) (q : List Rec) : Context := { x with wdata := x.wdata.set d q }

/-- Record r has been read, and its stored form written; the chip with the cells of the stored form. -/
def Chip.storing (ch : Chip) (d : Deck) (i : Ctx) (r : Rec) (rest : List Rec) (dm : Damage) : Chip × List Nat :=
  ((ch.readRuns (4 + d.val) dm (wordRuns (partBytes r.parts r.chain))).1.modCtx i (·.withRecs d rest)).writeStored d i r
    (ch.storedForm d r dm) dm

section
variable {ch : Chip} {d : Deck} {i : Ctx} {r : Rec} {rest : List Rec}

theorem Chip.storing_ladleOnly (dm : Damage) :
    (ch.modCtx i (·.withRecs d rest)).LadleOnly (ch.storing d i r rest dm).1 := by
  unfold Chip.storing
  exact ((Chip.LadleOnly.of_bufferOnly (ch.readRuns_bufferOnly ..)).modCtx i _).trans (Chip.writeStored_ladleOnly ..)

/-- Closing up over an object brings the next number down to it. -/
theorem closedUp_next {gone x : W64} (h : x.toNat = gone.toNat + 1) : closedUp gone x = gone := by
  rw [closedUp, if_pos (by omega)]
  bv_omega

/-- The number of a record that is lost passes to what follows on a deck where nothing is staged or waits. -/
def DeckAll.closesUp (k : DeckAll) (gone : W64) : DeckAll := { k with tape := { k.tape with object := gone } }

theorem Chip.endDurable_none (h : (ch.decks.get d).seq.waiters = []) : ch.endDurable d = ch := by
  have hm : ch.modDeck d (fun k => k.modSeq (fun q => { q with
      waiters := q.waiters.filter (fun w => !decide (w.upTo.toNat ≤ k.tape.durObj.toNat)) })) = ch :=
    Chip.modDeck_fixed (by simp only [DeckAll.modSeq, h, List.filter_nil]; rw [← h])
  unfold Chip.endDurable
  dsimp only
  rw [hm, h]
  rfl

/-- The last record leaves the queue, with nothing behind it and nothing waiting for it (R278). -/
theorem Chip.lostRecord_last (hheld : ch.held = []) (ht : (ch.ctxs.get i).ticket = none) (hs : (ch.decks.get d).staged = [])
    (hq : (ch.decks.get d).seq.waiters = []) (ho : (ch.decks.get d).tape.object.toNat = r.object.toNat + 1) :
    ((ch.modCtx i (·.withRecs d [])).modDeck d (·.closesUp r.object)).LadleOnly (ch.lostRecord d i r []) := by
  let c1 := (ch.modCtx i (·.withRecs d [])).dropRec i r
  have h1 : Chip.LadleOnly _ c1 := Chip.dropRec_ladleOnly _ i r
  have hk : c1.decks.get d = ch.decks.get d := by rw [h1.decks]; rfl
  have hh : c1.held = [] := h1.held.trans hheld
  suffices h : ch.lostRecord d i r [] = c1.modDeck d (·.closesUp r.object) from h ▸ h1.modDeck d _
  have hc : ch.modCtx i (fun x => { x with
      wdata := x.wdata.set d []
      ticket := x.ticket.map (fun t => if t.deck = d then { t with record := { t.record with object := closedUp r.object t.record.object } } else t) }) =
      ch.modCtx i (·.withRecs d []) := by
    simp [Chip.modCtx, ht, Context.withRecs]
  have hm : ∀ F, { c1 with held := c1.held.map F } = c1 := fun F => by rw [hh, List.map_nil, ← hh]
  have hd : ∀ F G H, c1.modDeck d (fun k => { k with
      staged := k.staged.map F
      tape := { k.tape with object := closedUp r.object k.tape.object }
      seq := { k.seq with waiters := (k.seq.waiters.filter G).map H } }) = c1.modDeck d (·.closesUp r.object) := fun F G H => by
    simp only [Chip.modDeck, hk, DeckAll.closesUp, hs, hq, closedUp_next ho, List.map_nil, List.filter_nil]
    rw [← hs, ← hq]
  unfold Chip.lostRecord
  dsimp only
  rw [List.map_nil, hc, hm, hd, hk, hq]
  exact Chip.endDurable_none (by simp [DeckAll.closesUp, hk, hq])

variable (hl : (ch.decks.get d).lock.owner = some i)
include hl

theorem compressRecordEffect_empty (h : (ch.ctxs.get i).wdata.get d = []) (slot : Option Nat) (dm : Damage) :
    compressRecordEffect d slot dm ch = ch := by
  simp [compressRecordEffect, hl, h]

variable (hw : (ch.ctxs.get i).wdata.get d = r :: rest)
include hw

theorem compressRecordEffect_waits {slot : Option Nat} (dm : Damage)
    (h : ch.domOn (48 + 6 * d.val) = false ∨ (ch.entryWords i d slot).all ch.bankServes = false) :
    compressRecordEffect d slot dm ch = ch := by
  unfold compressRecordEffect
  rw [hl]
  dsimp only
  rw [hw]
  refine if_pos ?_
  rcases h with h | h
  · exact .inl (by rw [engineUnit_compress, h]; exact Bool.false_ne_true)
  · exact .inr (.inr (.inr (by rw [← Chip.entryWords, h]; exact Bool.false_ne_true)))

variable {slot : Option Nat} (hg : ch.Compresses d i r slot)
include hg

/-- With all that it waits for, Whisk reads the entry; what follows depends on whether that is poison (R278). -/
theorem compressRecordEffect_works (dm : Damage) : compressRecordEffect d slot dm ch =
    let seen := ch.readEntry (4 + d.val) dm (ch.entryWords i d slot)
    if seen.2 then ((seen.1.lostRecord d i r rest).settle d).flushStep d
    else
      let out := seen.1.storing d i r rest dm
      (((out.1.releaseCells i.val r.chain).modDeck d (fun k => k.stage ((seen.1.storedForm d r dm).item i r out.2))).settle d).flushStep d := by
  obtain ⟨hon, hsafe, hcells, hentry, hshares⟩ := hg
  unfold compressRecordEffect
  rw [hl]
  dsimp only
  rw [hw]
  dsimp only
  rw [if_neg, if_neg (by omega)]
  · rfl
  · rw [← Chip.entryWords, engineUnit_compress, hon, hsafe, hcells, hentry]
    decide

/-- A last record whose entry reads as poison leaves, and its number passes on (R278). -/
theorem compressRecordEffect_lost (dm : Damage) (hp : (ch.readEntry (4 + d.val) dm (ch.entryWords i d slot)).2 = true) (hrest : rest = [])
    (hf : (ch.decks.get d).Full) (hheld : ch.held = []) (ht : (ch.ctxs.get i).ticket = none) (hs : (ch.decks.get d).staged = [])
    (hq : (ch.decks.get d).seq.waiters = []) (ho : (ch.decks.get d).tape.object.toNat = r.object.toNat + 1) :
    ((ch.modCtx i (·.withRecs d [])).modDeck d (·.closesUp r.object)).LadleOnly
      (compressRecordEffect d slot dm ch) := by
  subst hrest
  have hr : ch.LadleOnly (ch.readEntry (4 + d.val) dm (ch.entryWords i d slot)).1 := .of_bufferOnly (ch.readEntry_bufferOnly ..)
  rw [compressRecordEffect_works hl hw hg]
  dsimp only
  rw [if_pos hp]
  have h := (((hr.modCtx i _).modDeck d _).trans
    (Chip.lostRecord_last (r := r) (hr.held.trans hheld) (by rw [hr.ctxs, ht]) (by rw [hr.decks, hs]) (by rw [hr.decks, hq]) (by rw [hr.decks, ho])))
  rwa [Chip.settle_full]
  rw [h.decks, Chip.modDeck_decks, Chip.modCtx_decks, vector_get_set_self]
  exact ⟨hf.orders, hf.op, hf.open_, hf.buffers⟩

/-- The oldest record leaves the queue, and its stored form is staged (R299, R300, R363). -/
theorem compressRecordEffect_stores (dm : Damage) (hp : (ch.readEntry (4 + d.val) dm (ch.entryWords i d slot)).2 = false)
    (hf : (ch.decks.get d).Full) : ∃ cells,
    ((ch.modCtx i (·.withRecs d rest)).modDeck d (fun k => k.stage
      (((ch.readEntry (4 + d.val) dm (ch.entryWords i d slot)).1.storedForm d r dm).item i r cells))).LadleOnly
      (compressRecordEffect d slot dm ch) := by
  have hr : ch.LadleOnly (ch.readEntry (4 + d.val) dm (ch.entryWords i d slot)).1 := .of_bufferOnly (ch.readEntry_bufferOnly ..)
  rw [compressRecordEffect_works hl hw hg]
  dsimp only
  rw [if_neg (by rw [hp]; exact Bool.false_ne_true)]
  generalize (ch.readEntry (4 + d.val) dm (ch.entryWords i d slot)).1 = c at hr
  refine ⟨(c.storing d i r rest dm).2, ?_⟩
  have h := (((hr.modCtx i _).trans (Chip.storing_ladleOnly (d := d) (r := r) (rest := rest) dm)).trans
    (Chip.releaseCells_ladleOnly _ i.val r.chain)).modDeck d (fun k => k.stage ((c.storedForm d r dm).item i r (c.storing d i r rest dm).2))
  rwa [Chip.settle_full]
  rw [h.decks, Chip.modDeck_decks, Chip.modCtx_decks, vector_get_set_self]
  exact ⟨hf.orders, hf.op, hf.open_, hf.buffers⟩

end

/-! ### DECOMPRESS_RECORD (R304–R311, R211, R212) -/

/-- Whisk's decompress engine of deck d (Table 19-3). -/
theorem engineUnit_decompress (d : Deck) : engineUnit d 1 = 49 + 6 * d.val := by
  unfold engineUnit
  omega

theorem decompressRecordEffect_idle {ch : Chip} {d : Deck} (h : (ch.decks.get d).seq.op = none ∨ ch.domOn (49 + 6 * d.val) = false)
    (bad : List Nat) : decompressRecordEffect d bad ch = ch := by
  unfold decompressRecordEffect
  dsimp only
  split
  · rfl
  next o ho =>
    rcases h with h | h
    · rw [h] at ho; cases ho
    · rw [if_pos (.inr (.inr (.inr (.inl (by rw [engineUnit_decompress, h]; exact Bool.false_ne_true)))))]

/-- A segment holds a whole record, of the stored size that R327 asks for. -/
structure Extract.Whole (e : Extract) : Prop where
  first : e.first = true
  last : e.last = true
  size : if e.raw then e.bytes.length = e.recLen + 4 else 4 ≤ e.bytes.length

/-- The record that a segment begins. -/
def Extract.record (e : Extract) : ReadRec :=
  { object := e.object, length := e.recLen, raw := e.raw, marked := e.marked, bytes := e.bytes, whole := e.last, ds := e.ds }

theorem Extract.Whole.add {e : Extract} (h : e.Whole) : ReadRec.add none e = some e.record := by
  obtain ⟨hf, hl, hs⟩ := h
  have hg : ¬ (if e.raw then e.bytes.length ≠ e.recLen + 4 else e.bytes.length < 4) := by
    split <;> simp_all
  simp only [ReadRec.add, hf, if_true, Option.bind_some]
  exact if_neg fun hc => hg hc.2

/-- Whisk has taken the segment of record r. -/
def DeckAll.takes (k : DeckAll) (r : ReadRec) : DeckAll := { k with toExpand := [], tape := { k.tape with current := some r } }

section
variable {ch : Chip} {d : Deck}

theorem Chip.takeExtract_whole {e : Extract} (hx : (ch.decks.get d).toExpand = [e]) (hc : (ch.decks.get d).tape.current = none) (he : e.Whole)
    (hs : (ch.decks.get d).strainer.stalled = false) : ch.takeExtract d = ch.modDeck d (·.takes e.record) := by
  have hm : ch.modDeck d (fun k => { k with toExpand := [], tape := { k.tape with current := ReadRec.add k.tape.current e } }) =
      ch.modDeck d (·.takes e.record) := by
    simp only [Chip.modDeck, DeckAll.takes, hc, he.add]
  unfold Chip.takeExtract
  rw [hx]
  dsimp only
  rw [hm, Chip.resumeRead]
  simp [DeckAll.takes, hs]

/-- n bytes more have been delivered. -/
def DeckOp.delivers (o : DeckOp) (n : Nat) : DeckOp := { o with delivered := o.delivered + n }

/-- A data reply joins deck d's RDATA queue. -/
def Context.takesReply (x : Context) (d : Deck) (r : Reply) : Context := { x with rdata := x.rdata.set d (x.rdata.get d ++ [r]) }

/-- A good record of at most 4,096 bytes goes out in one reply (R211). -/
theorem Chip.deliverData_whole {o : DeckOp} {data : List Byte} (ho : (ch.decks.get d).seq.op = some o) (h0 : o.delivered = 0)
    (hsil : o.silent = false) (hpos : 0 < data.length) (hmax : data.length ≤ 4096)
    (hroom : ((ch.ctxs.get o.ctx).rdata.get d).length < (ch.ctxs.get o.ctx).depth (Fin.ofNat 11 (7 + d.val))) :
    Chip.deliverData d ⟨data, data.length, .good, none⟩ false 0 data.length 4096 ch =
      (ch.modOp d (·.delivers data.length)).modCtx o.ctx (·.takesReply d (dataReply o data false ch.now)) := by
  have hn : min 4096 (data.length - o.delivered) = data.length := by omega
  rw [Chip.deliverData]
  rw [ho]
  dsimp only
  rw [hn, h0, if_neg (by omega)]
  simp only [Expanded.poisonBefore, Bool.or_false, Bool.false_eq_true, if_false, hsil, List.drop_zero, Nat.add_zero, List.take_length]
  refine (if_pos hroom).trans ?_
  rw [Chip.deliverData]
  simp [Chip.modOp, DeckAll.modSeq, ho, h0, DeckOp.delivers, Context.takesReply]

/-- The deck's operation has ended by its engine, and notice n waits for the Cook (R21, R452). -/
def DeckAll.engineDone (k : DeckAll) (n : Notice) : DeckAll :=
  let k1 := k.endReading.noteEw.modSeq (fun q => { q with op := none })
  { k1 with cookQ := k1.cookQ ++ [.endedMove (some n)] }

theorem DeckAll.noteEw_frame (k : DeckAll) : ∃ b, k.noteEw = { k with tape := { k.tape with beyondEw := b } } := by
  unfold DeckAll.noteEw
  split
  · exact ⟨_, rfl⟩
  · exact ⟨k.tape.beyondEw, rfl⟩

theorem DeckAll.engineDone_frame (k : DeckAll) (n : Notice) :
    (k.engineDone n).cookQ = k.cookQ ++ [.endedMove (some n)] ∧ (k.engineDone n).seq.op = none ∧ (k.engineDone n).toExpand = [] ∧
    (k.engineDone n).tape.object = k.tape.object ∧ (k.engineDone n).tape.mid = k.tape.mid := by
  obtain ⟨b, hb⟩ := k.endReading.noteEw_frame
  simp only [DeckAll.engineDone, hb]
  exact ⟨rfl, rfl, rfl, rfl, rfl⟩

theorem Chip.engineEnds_done {o : DeckOp} (ho : (ch.decks.get d).seq.op = some o) (hu : o.op ≠ .deckUnlock) (hsil : o.silent = false) (st : Stat)
    (hst : st.toNat < 512) (payload : List Byte) :
    (ch.modDeck d (·.engineDone { ctx := o.ctx, tag := o.tag, rcrc := o.rcrc, stat := st, payload := payload })).LadleOnly
      (ch.engineEnds d st payload) := by
  unfold Chip.engineEnds
  rw [ho]
  dsimp only
  have hst' : (if o.op = .deckUnlock ∧ st = Stat.writeFailed then Stat.deckState else st) = st := if_neg fun h => hu h.1
  rw [if_pos rfl, hst', if_pos hst, hsil]
  have h : (ch.modDeck d DeckAll.endReading).LadleOnly (ch.stopReading d) := Chip.releaseBlocks_ladleOnly ..
  have h2 := (h.modDeck d (fun k => k.noteEw.modSeq (fun q => { q with op := none }))).modDeck d (fun k => { k with
    cookQ := k.cookQ ++ [.endedMove (some { ctx := o.ctx, tag := o.tag, rcrc := o.rcrc, stat := st, payload := payload })] })
  rw [Chip.modDeck_modDeck, Chip.modDeck_modDeck] at h2
  exact h2

/-- A good record has been delivered to its end: the position is past it, and the notice tells so (R211, Table 8-5). -/
theorem Chip.endRead_whole {o : DeckOp} {data : List Byte} {n : Nat} {r : ReadRec} (ho : (ch.decks.get d).seq.op = some o) (hu : o.op ≠ .deckUnlock)
    (hsil : o.silent = false) (hrec : o.recovered Stat.done = Stat.done) (hm : r.marked = false) (hn : r.length = n) :
    (ch.modDeck d (fun k => ({ k with tape := k.tape.moveTo (k.tape.object + 1) (k.tape.afterRead r) } : DeckAll).engineDone
      { ctx := o.ctx, tag := o.tag, rcrc := o.rcrc, stat := Stat.done, payload := (ch.decks.get d).tape.readReply n n n })).LadleOnly
      (ch.endRead d ⟨data, n, .good, none⟩ r 0 n) := by
  have he : Expanded.readEnding ⟨data, n, .good, none⟩ r o n = (Stat.done, false) := by
    simp [Expanded.readEnding, Expanded.poisonBefore, hm, hn, hrec]
  unfold Chip.endRead
  rw [ho]
  dsimp only
  rw [Nat.zero_add, he, hn]
  have hr : ch.reportRecord d none false = ch := rfl
  dsimp only
  simp only [le_refl, if_true, hr]
  have h := Chip.engineEnds_done (ch := ch.modTape d (fun t => t.moveTo (t.object + 1) (t.afterRead r))) (d := d) (o := o)
    (by simp [Chip.modTape, ho]) hu hsil Stat.done (by decide) ((ch.decks.get d).tape.readReply n n n)
  rw [Chip.modTape, Chip.modDeck_modDeck] at h
  exact h

end

/-- Deck d's decompress engine can go on: its domain is on, there is no SAFE, and no entry is held back (R22, R23). -/
structure Chip.Expands (ch : Chip) (d : Deck) : Prop where
  on : ch.domOn (49 + 6 * d.val) = true
  safe : ch.cook.safe = false
  held : ch.held = []

/-- A READ_RECORD that asks for all of a record, has begun to move tape and has delivered and recovered nothing. -/
structure DeckOp.ReadsAll (o : DeckOp) : Prop where
  op : o.op = .readRecord
  moving : o.moving = true
  delivered : o.delivered = 0
  silent : o.silent = false
  recovered : o.recovered Stat.done = Stat.done
  amount : leAt o.payload 4 4 = 0

section
variable {ch : Chip} {d : Deck} {o : DeckOp} (ho : (ch.decks.get d).seq.op = some o) (hr : o.ReadsAll)
include ho hr

theorem decompressRecordEffect_goes (hg : ch.Expands d) (hm : (ch.decks.get d).tape.mid = false) (bad : List Nat) :
    decompressRecordEffect d bad ch = (ch.takeExtract d).expandRead d bad := by
  have hh : ch.holds (rdataQueue o.ctx d) = false := by simp [Chip.holds, hg.held]
  unfold decompressRecordEffect
  dsimp only
  rw [ho]
  dsimp only
  rw [if_neg]
  simp [engineUnit_decompress, hg.on, hg.safe, hh, hr.moving, hr.op, hm]

/-- The record in hand, good and of at most 4,096 bytes, goes to the host in one reply, and its read ends. -/
theorem Chip.expandRead_whole {r : ReadRec} {data : List Byte} {bad : List Nat} (hheld : ch.held = [])
    (hc : (ch.decks.get d).tape.current = some r) (hw : r.whole = true) (hmk : r.marked = false) (hlen : r.length = data.length)
    (hx : whiskExpand r.raw r.marked r.whole (inWords bad) r.length r.bytes = ⟨data, data.length, .good, none⟩)
    (hpos : 0 < data.length) (hmax : data.length ≤ 4096)
    (hroom : ((ch.ctxs.get o.ctx).rdata.get d).length < (ch.ctxs.get o.ctx).depth (Fin.ofNat 11 (7 + d.val))) :
    (((ch.modOp d (·.delivers data.length)).modCtx o.ctx (·.takesReply d (dataReply o data false ch.now))).modDeck d (fun k =>
      ({ k with tape := k.tape.moveTo (k.tape.object + 1) (k.tape.afterRead r) } : DeckAll).engineDone
        { ctx := o.ctx, tag := o.tag, rcrc := o.rcrc, stat := Stat.done
          payload := (ch.decks.get d).tape.readReply data.length data.length data.length })).LadleOnly (ch.expandRead d bad) := by
  let c1 := (ch.modOp d (·.delivers data.length)).modCtx o.ctx (·.takesReply d (dataReply o data false ch.now))
  have hd : c1.decks.get d = (ch.decks.get d).modSeq (fun q => { q with op := q.op.map (·.delivers data.length) }) := vector_get_set_self ..
  have ho1 : (c1.decks.get d).seq.op = some (o.delivers data.length) := by rw [hd]; simp [DeckAll.modSeq, ho]
  have hh : c1.holds (rdataQueue o.ctx d) = false := by
    have : c1.held = [] := hheld
    simp [Chip.holds, this]
  have hoff : (if o.op = .readMore then (ch.decks.get d).tape.offset else 0) = 0 := by simp [hr.op]
  have htodo : min 16777215 (data.length - 0) = data.length := by omega
  have hend := Chip.endRead_whole (data := data) (n := data.length) (r := r) ho1 (by rw [DeckOp.delivers, hr.op]; decide) hr.silent hr.recovered
    hmk hlen
  have he : ch.expandRead d bad = c1.endRead d ⟨data, data.length, .good, none⟩ r 0 data.length := by
    unfold Chip.expandRead
    dsimp only
    rw [ho, hc]
    dsimp only
    rw [hx, hmk, hr.amount, hoff, if_pos rfl, hlen, htodo,
      Chip.deliverData_whole ho hr.delivered hr.silent hpos hmax hroom]
    rw [if_neg (by rw [hh]; exact Bool.false_ne_true), if_neg (by simp [hw])]
  rw [he]
  have ht : (c1.decks.get d).tape = (ch.decks.get d).tape := by rw [hd]; rfl
  rw [ht] at hend
  exact hend

end

/-- What the delivery of a whole record and the end of its read leave of the deck, with notice n for the Cook. -/
def DeckAll.hasRead (k : DeckAll) (r : ReadRec) (n : Nat) (notice : Notice) : DeckAll :=
  let k1 := (k.takes r).modSeq (fun q => { q with op := q.op.map (·.delivers n) })
  ({ k1 with tape := k1.tape.moveTo (k.tape.object + 1) (k1.tape.afterRead r) } : DeckAll).engineDone notice

theorem DeckAll.hasRead_frame (k : DeckAll) (r : ReadRec) (n : Nat) (notice : Notice) :
    (k.hasRead r n notice).cookQ = k.cookQ ++ [.endedMove (some notice)] ∧ (k.hasRead r n notice).seq.op = none ∧
    (k.hasRead r n notice).toExpand = [] ∧ (k.hasRead r n notice).tape.object = k.tape.object + 1 ∧ (k.hasRead r n notice).tape.mid = false :=
  DeckAll.engineDone_frame ..

/-- A whole good record read: one data reply, and the deck as `hasRead` says (R211). -/
theorem decompressRecordEffect_whole {ch : Chip} {d : Deck} {o : DeckOp} {e : Extract} {data : List Byte}
    (ho : (ch.decks.get d).seq.op = some o) (hr : o.ReadsAll) (hg : ch.Expands d) (hmid : (ch.decks.get d).tape.mid = false)
    (hq : (ch.decks.get d).toExpand = [e]) (hc : (ch.decks.get d).tape.current = none) (hs : (ch.decks.get d).strainer.stalled = false)
    (he : e.Whole) (hmk : e.marked = false) (hlen : e.recLen = data.length)
    (hx : whiskExpand e.raw false true (inWords []) e.recLen e.bytes = ⟨data, e.recLen, .good, none⟩) (hpos : 0 < e.recLen) (hmax : e.recLen ≤ 4096)
    (hroom : ((ch.ctxs.get o.ctx).rdata.get d).length < (ch.ctxs.get o.ctx).depth (Fin.ofNat 11 (7 + d.val))) :
    ((ch.modCtx o.ctx (·.takesReply d (dataReply o data false ch.now))).modDeck d (·.hasRead e.record e.recLen
      { ctx := o.ctx, tag := o.tag, rcrc := o.rcrc, stat := Stat.done
        payload := (ch.decks.get d).tape.readReply e.recLen e.recLen e.recLen })).LadleOnly (decompressRecordEffect d [] ch) := by
  have hd : (ch.modDeck d (·.takes e.record)).decks.get d = (ch.decks.get d).takes e.record := vector_get_set_self ..
  have h := Chip.expandRead_whole (ch := ch.modDeck d (·.takes e.record)) (r := e.record) (data := data) (bad := []) (by rw [hd]; exact ho) hr hg.held
    (by rw [hd]; rfl) he.last hmk hlen
    (by rw [← hlen]; show whiskExpand e.raw e.marked e.last _ _ _ = _; rw [hmk, he.last]; exact hx) (hlen ▸ hpos) (hlen ▸ hmax) hroom
  rw [decompressRecordEffect_goes ho hr hg hmid, Chip.takeExtract_whole hq hc he hs, hlen]
  rw [hd] at h
  have hm : ∀ g F, (((ch.modDeck d (·.takes e.record)).modOp d (·.delivers data.length)).modCtx o.ctx g).modDeck d F =
      (ch.modCtx o.ctx g).modDeck d (fun k => F ((k.takes e.record).modSeq (fun q => { q with op := q.op.map (·.delivers data.length) }))) :=
    fun g F => by
      rw [Chip.modOp, Chip.modDeck_modDeck, Chip.modDeck_modCtx, Chip.modDeck_modDeck]
  rw [hm] at h
  exact h

/-- Settles O45: COMPRESS_RECORD by what its accesses keep and a full Roller leaves staged, DECOMPRESS_RECORD by the one reply it sends. -/
theorem whiskEngines : Obligations.WhiskEngines := by
  intro s d
  refine ⟨fun hl slot dm => State.onChip_eq (compressRecordEffect_free hl slot dm),
    fun i hl hw slot dm => State.onChip_eq (compressRecordEffect_empty hl hw slot dm),
    fun i r rest slot dm hl hw => ⟨fun h => State.onChip_eq (compressRecordEffect_waits hl hw dm h),
      fun hon hsafe hcells hentry hshares hst hord hop hwait hopen hbuf => ?_⟩,
    fun h bad => State.onChip_eq (decompressRecordEffect_idle h bad), ?_⟩
  · have hg : s.chip.Compresses d i r slot := ⟨hon, hsafe, hcells, hentry, hshares⟩
    have hf : (s.chip.decks.get d).Full := ⟨hord, hop, hopen, hbuf⟩
    refine ⟨fun hp hrest hheld ht ho => ⟨_, rfl, ?_⟩, fun hp => ?_⟩
    · obtain ⟨hi, -, hd, he, htime⟩ := (compressRecordEffect_lost hl hw hg dm hp hrest hf hheld ht hst hwait ho).made
      refine ⟨?_, ?_, ?_, ?_, ?_, he, htime⟩
      · rw [hi]; exact vector_get_set_self ..
      · rw [hi]; rfl
      · rw [hd]; exact hst
      · rw [hd]; rfl
      · rw [hd]; rfl
    · obtain ⟨cells, h⟩ := compressRecordEffect_stores hl hw hg dm hp hf
      obtain ⟨hi, hj, hd, he, htime⟩ := h.made
      refine ⟨_, cells, rfl, ?_, ?_, ?_, ?_, ?_, he, fun j => ⟨?_, fun hne => ?_⟩, htime⟩
      · rw [hi]; exact vector_get_set_self ..
      · rw [hd, DeckAll.stage, hst]; rfl
      · rw [hd]; exact DeckAll.stage_poisoned ..
      · rw [hd]; exact DeckAll.stage_stored ..
      · rw [hd]; rfl
      · by_cases e : j = i
        · rw [e, hi]; rfl
        · rw [hj j e]
      · rw [hj j hne]
  · intro o e data hq hc hmid hs hfirst hlast hsize ho hread hmov hdel hsil hrr hc3 hc2 ham hheld hon hsafe hmk hx hpos hmax hlen hroom
    have hr : o.ReadsAll := ⟨hread, hmov, hdel, hsil, by simp [DeckOp.recovered, hrr, hc3, hc2], ham⟩
    have h := decompressRecordEffect_whole ho hr ⟨hon, hsafe, hheld⟩ hmid hq hc hs ⟨hfirst, hlast, hsize⟩ hmk hlen.symm hx hpos hmax hroom
    obtain ⟨hi, -, hd, he, htime⟩ := h.made
    refine ⟨_, rfl, ?_, ?_⟩
    · rw [hi]; exact vector_get_set_self ..
    · rw [hd]
      obtain ⟨hcook, hop, hx, hobj, hm⟩ := DeckAll.hasRead_frame (s.chip.decks.get d) e.record e.recLen _
      exact ⟨hcook, hop, hx, hobj, hm, htime, he⟩

end Sys2Proof.Machine
end

section
/-! SUPPORT. The timebase's registers (R48, R51, R63, R64). -/

namespace Sys2Proof.Machine

/-- A written trim is held within ±10,000. -/
theorem clampTrim_toInt (v : W16) : (clampTrim v).toInt = max (-10000) (min 10000 v.toInt) := by
  unfold clampTrim
  split
  · simp only [show (BitVec.ofInt 16 (-10000)).toInt = -10000 by decide]; omega
  · split
    · simp only [show (10000 : W16).toInt = 10000 by decide]; omega
    · omega

/-- Settles O1: each register's effect by the port's rule, the trim by its clamp. -/
theorem timebaseRegisterCommands : Obligations.TimebaseRegisterCommands := by
  intro s
  refine ⟨fun h => ⟨fun v => ⟨clampTrim (v.setWidth 16), clampTrim_toInt _, State.onRegister_reached h _⟩, State.onRegister_reached h _,
    State.onRegister_reached h _, State.onRegister_reached h _⟩, fun h v => ?_⟩
  have idle : ∀ f, s.onRegister f = .next s := State.onRegister_unreached (Bool.eq_false_iff.mpr h)
  exact ⟨idle _, idle _, idle _, idle _, idle _⟩

end Sys2Proof.Machine
end

section
/-! SUPPORT. Calibrations of the delay lines: their start, their end, and those of a settled voltage step (R46, R49, R54, R58). -/

namespace Sys2Proof.Machine

/-- The timebase with `f` applied to the central pair and to the lines of every deck whose Griddle domain is on. -/
def Chip.litLines (ch : Chip) (f : Lines → Lines) (t : Timebase) : Timebase :=
  { t with
    central := f t.central
    decks := Vector.ofFn fun d : Deck => if ch.domOn (44 + d.val) then f (t.decks.get d) else t.decks.get d }

/-- With a reference to count against, a calibration reaches every line that is powered. -/
theorem Chip.calibrateBy_onRef {ch : Chip} (h : ch.timebase.onRef = true) (f : Lines → Lines) : ch.calibrateBy f = ch.modTb (ch.litLines f) :=
  if_pos h

/-- Where Kettle neither recalibrates nor owes a step, the end of a calibration concerns the line alone. -/
theorem exec_lineCalDone_line {s : State} {set : Fin 5} {n : BitVec 13} {f : Timebase → Timebase} (hrecal : s.chip.kettle.recal = false)
    (hdue : s.chip.kettle.due = none) (hline : s.chip.lineDone set n = s.chip.modTb f) :
    exec (.lineCalDone set n) s = .next { s with chip.timebase := f s.chip.timebase } := by
  refine State.onChip_eq ?_
  rw [lineCalDoneEffect, hline]
  simp only [Chip.modTb_kettle, hrecal, Bool.false_eq_true, if_false, Chip.stepIfDue, hdue, ite_self]
  rfl

/-- The central pair's calibration makes the reference LOCKED; after FREE_RUN it would say so as well (R54). -/
theorem Chip.lineDone_central {ch : Chip} (href : ch.timebase.onRef = true) (hbusy : ch.timebase.central.shadowBusy = true)
    (hfree : ch.timebase.wasFree = false) (n : BitVec 13) :
    ch.lineDone 0 n = ch.modTb fun t => { t with central := t.central.finish n, refState := .locked, wasFree := false } := by
  simp [Chip.lineDone, href, hbusy, hfree]

theorem Chip.lineDone_deck {ch : Chip} {d : Deck} (href : ch.timebase.onRef = true) (hbusy : (ch.timebase.decks.get d).shadowBusy = true)
    (n : BitVec 13) : ch.lineDone d.succ n = ch.modTb fun t => { t with decks := t.decks.set d ((t.decks.get d).finish n) } := by
  simp [Chip.lineDone, href, hbusy]

theorem exec_kettleStepSettled_onRef {s : State} (hset : s.chip.kettle.settling = true) (href : s.OnRef) :
    exec .kettleStepSettled s = .next { s with
      chip.kettle.recal := true, chip.timebase := s.chip.litLines Lines.startForStep s.chip.timebase } := by
  refine State.onChip_eq ?_
  rw [kettleStepSettledEffect, if_neg (by simp [hset]), if_pos (onRef_of href)]
  exact Chip.calibrateBy_onRef (ch := s.chip.modKettle _) (onRef_of href) _

theorem exec_kettleStepSettled_free {s : State} (hset : s.chip.kettle.settling = true) (href : ¬ s.OnRef) :
    exec .kettleStepSettled s = .next { s with chip.kettle.settling := false } := by
  refine State.onChip_eq ?_
  rw [kettleStepSettledEffect, if_neg (by simp [hset]), if_neg (by simp [Timebase.onRef_false_of href])]
  rfl

/-- Settles O3: a start reaches the powered lines, an end its own line, and a settled step starts the recalibration where a reference stands. -/
theorem calibrations : Obligations.Calibrations := by
  intro s lines started ended
  refine ⟨fun h => ⟨State.onChip_eq (Chip.calibrateBy_onRef (onRef_of h) _), fun hr => ?_⟩, fun is20 ht ha => ?_, fun is20 hf => ?_,
    fun n h hrecal hdue => ⟨fun hbusy hfree => ?_, fun d hbusy => ?_⟩, exec_kettleStepSettled_onRef, exec_kettleStepSettled_free⟩
  · exact (State.onRegister_reached hr _).trans (State.onChip_eq (Chip.calibrateBy_onRef (onRef_of h) _))
  · exact State.onChip_eq ((if_pos ⟨ht, ha⟩).trans (Chip.calibrateBy_onRef rfl _))
  · exact State.onChip_eq ((if_pos hf).trans (Chip.calibrateBy_onRef rfl _))
  · rw [exec_lineCalDone_line hrecal hdue (Chip.lineDone_central (onRef_of h) hbusy hfree n), ← hfree]
    rfl
  · exact exec_lineCalDone_line hrecal hdue (Chip.lineDone_deck (onRef_of h) hbusy n)

end Sys2Proof.Machine
end

section
/-! SUPPORT. Reads of the Hourglass time: at the I2C port, whole registers from one fetch each (R51, R108, R109), and TIME_READ (R183). -/

namespace Sys2Proof.Machine

/-! ### Bytes of a split number (R10) -/

theorem leBytes_add (j k x : Nat) : leBytes (j + k) x = leBytes j x ++ leBytes k (x / 256 ^ j) := by
  induction j generalizing x with
  | zero => simp [leBytes]
  | succ j ih => rw [Nat.succ_add, leBytes, leBytes, ih, List.cons_append, Nat.pow_succ', Nat.div_div_eq_div_mul]

/-- Bytes see a number only as far as they reach. -/
theorem leBytes_mod (k x : Nat) : leBytes k (x % 256 ^ k) = leBytes k x := by
  induction k generalizing x with
  | zero => rfl
  | succ k ih =>
    rw [leBytes, leBytes, Nat.pow_succ', Nat.mod_mul_right_div_self, ih]
    congr 1
    apply BitVec.eq_of_toNat_eq
    simp only [BitVec.toNat_ofNat, Nat.mod_mul_right_mod, Nat.reducePow]

/-- The two halves of a 64-bit time, low half first, are its eight bytes. -/
theorem leBytes_halves (x : W64) : leBytes 4 (lo32 x).toNat ++ leBytes 4 (x.extractLsb' 32 32).toNat = leBytes 8 x.toNat := by
  have hlo : (lo32 x).toNat = x.toNat % 256 ^ 4 := by simp [lo32]
  have hhi : (x.extractLsb' 32 32).toNat = x.toNat / 256 ^ 4 := by
    simp only [BitVec.extractLsb'_toNat, Nat.shiftRight_eq_div_pow]
    omega
  rw [hlo, hhi, leBytes_mod, ← leBytes_add]

/-! ### Reading whole registers (R108, R109) -/

/-- The port's pointer at p. -/
def Chip.pointAt (ch : Chip) (p : W16) : Chip := ch.modI2c fun i => { i with ptr := p }

@[simp] theorem Chip.pointAt_pointAt (ch : Chip) (p q : W16) : (ch.pointAt p).pointAt q = ch.pointAt q := rfl

/-- One byte of the register whose value the port holds. -/
theorem Chip.readBytes_held (ch : Chip) {p : W16} {base j : Nat} (h4 : base % 4 = 0) (hj : j < 4) (hp : p.toNat = base + j) (n : Nat) (v : W32) :
    Chip.readBytes (n + 1) (some (base, v)) (ch.pointAt p) =
      ((Chip.readBytes n (some (base, v)) (ch.pointAt (p + 1))).1,
        byteAt (leBytes 4 v.toNat) j :: (Chip.readBytes n (some (base, v)) (ch.pointAt (p + 1))).2) := by
  have hq : (ch.pointAt p).i2c.ptr = p := rfl
  have hb : p.toNat / 4 * 4 = base := by omega
  have hm : p.toNat % 4 = j := by omega
  conv_lhs => unfold Chip.readBytes
  simp only [hq, hb, hm, if_true]
  rfl

/-- The first byte of a register that the port does not hold is fetched with it. -/
theorem Chip.readBytes_fetch (ch : Chip) {p : W16} (h4 : p.toNat % 4 = 0) (n : Nat) {got : Option (Nat × W32)}
    (hgot : ∀ b v, got = some (b, v) → b ≠ p.toNat) :
    Chip.readBytes (n + 1) got (ch.pointAt p) =
      let x := (ch.pointAt p).fetchReg p.toNat
      let r := Chip.readBytes n (some (p.toNat, x.2)) (x.1.pointAt (p + 1))
      (r.1, byteAt (leBytes 4 x.2.toNat) 0 :: r.2) := by
  have hq : (ch.pointAt p).i2c.ptr = p := rfl
  conv_lhs => unfold Chip.readBytes
  cases got with
  | none => simp only [hq, h4, show p.toNat / 4 * 4 = p.toNat by omega]; rfl
  | some y => simp only [hq, h4, show p.toNat / 4 * 4 = p.toNat by omega, if_neg (hgot y.1 y.2 rfl)]; rfl

/-- The port fetches the register at an aligned pointer once and delivers its four bytes. -/
theorem Chip.readBytes_register (ch : Chip) {p : W16} (h4 : p.toNat % 4 = 0) (n : Nat) {got : Option (Nat × W32)}
    (hgot : ∀ b v, got = some (b, v) → b ≠ p.toNat) :
    Chip.readBytes (n + 4) got (ch.pointAt p) =
      let x := (ch.pointAt p).fetchReg p.toNat
      let r := Chip.readBytes n (some (p.toNat, x.2)) (x.1.pointAt (p + 4))
      (r.1, leBytes 4 x.2.toNat ++ r.2) := by
  have hlt := p.isLt
  rw [Chip.readBytes_fetch ch h4 (n + 3) hgot]
  dsimp only
  rw [Chip.readBytes_held _ h4 (j := 1) (by omega) (by bv_omega), Chip.readBytes_held _ h4 (j := 2) (by omega) (by bv_omega),
    Chip.readBytes_held _ h4 (j := 3) (by omega) (by bv_omega), show p + 1 + 1 + 1 + 1 = p + 4 by bv_omega]
  rfl

/-! ### A transaction that sets the pointer and reads (R109, R110) -/

/-- While the port answers without PEC, a read is the registers from the pointer sent. -/
theorem exec_i2cRead_at {s : State} (h : s.Reached) (hon : s.chip.i2c.pecOn = false) {lo hi : Byte} (h4 : lo.toNat % 4 = 0) (n : Nat) :
    exec (.i2cRead s.chip.i2c.addr [[lo, hi]] n) s = .next { s with
      chip := (Chip.showI2c (Chip.readBytes n none ((s.chip.modI2c fun i => { i with acked := true }).pointAt (hi ++ lo)))).stopI2c } := by
  refine State.onChip_eq (f := fun ch => ch.i2cReading s.chip.i2c.addr [[lo, hi]] n) ?_
  have ha : s.chip.i2cAnswers s.chip.i2c.addr = true := by simp [Chip.i2cAnswers, h]
  have hp : Chip.plainParts [[lo, hi]] s.chip = ((s.chip.modI2c fun i => { i with acked := true }).pointAt (hi ++ lo), true) := by
    simp only [Chip.plainParts, Chip.plainPart, partBad, h4, ne_eq, not_true_eq_false, decide_false, Bool.false_eq_true, if_false, partPointer,
      List.drop_succ_cons, List.drop_zero, Chip.writeRegs, List.length_nil, BitVec.add_zero, if_true]
    rfl
  simp only [Chip.i2cReading, ha, hon, hp, not_true_eq_false, if_false, if_true, Bool.false_eq_true, Chip.plainRead]

/-- A STOP counts; where I2C_CFG stands as written already, nothing else changes (R113). -/
theorem Chip.stopI2c_settled {ch : Chip} (h : ch.i2c.pecEn = ch.i2c.pecOn) : ch.stopI2c = ch.modI2c fun i => { i with xact := i.xact + 1 } := by
  show ch.modI2c (fun i => { i with xact := i.xact + 1, pecOn := i.pecEn }) = _
  simp only [Chip.modI2c, h]

/-! ### The time's registers (R51) -/

theorem Chip.readBytes_timeHi (ch : Chip) {got : Option (Nat × W32)} (hgot : ∀ b v, got = some (b, v) → b ≠ 0x0408) :
    Chip.readBytes 4 got (ch.pointAt 0x0408) = (ch.pointAt 0x040C, leBytes 4 ch.timebase.timeLatch.toNat) := by
  refine (Chip.readBytes_register ch (p := 0x0408) (by decide) 0 hgot).trans ?_
  rw [show (ch.pointAt 0x0408).fetchReg (0x0408 : W16).toNat = (ch.pointAt 0x0408, ch.timebase.timeLatch) from rfl]
  exact congrArg (Prod.mk _) (List.append_nil _)

/-- The fetch of the low half latches the high half that the same read then delivers. -/
theorem Chip.readBytes_time (ch : Chip) :
    Chip.readBytes 8 none (ch.pointAt 0x0404) = ((tbTimeLoReadEffect ch).pointAt 0x040C, leBytes 8 ch.now.toNat) := by
  refine (Chip.readBytes_register ch (p := 0x0404) (by decide) 4 (by simp)).trans ?_
  rw [show (ch.pointAt 0x0404).fetchReg (0x0404 : W16).toNat = ((tbTimeLoReadEffect ch).pointAt 0x0404, lo32 ch.now) from rfl]
  dsimp only
  rw [Chip.pointAt_pointAt, show (0x0404 + 4 : W16) = 0x0408 from rfl,
    Chip.readBytes_timeHi (tbTimeLoReadEffect ch) (by rintro b v ⟨⟩; decide), ← leBytes_halves]
  rfl

/-- The payload of Table 7-4. -/
theorem timeReadBytes_eq (ch : Chip) : timeReadBytes ch = leBytes 8 ch.now.toNat ++
    [BitVec.ofNat 8 (bit ch.freeRunning + 2 * bit ch.timebase.ref20), BitVec.ofNat 8 ch.timebase.refState.code, 0, 0, 0, 0, 0, 0] := by
  rw [timeReadBytes, List.append_assoc]
  rfl

/-- TIME_READ takes nothing but its place in the queue, and answers the time. -/
theorem exec_timeRead {s : State} {h : CmdHdr} {rest : List Cmd} (hs : s.Heads .timeRead h [] rest) (he : (s.chip.ctxs.get h.ctx).executing = []) :
    exec (.timeRead h []) s = .next (s.answered h rest Stat.done (timeReadBytes s.chip)) := by
  refine State.onChip_to (f := readEffect .timeRead h [] timeReadBytes) ?_ rfl
  rw [readEffect, Chip.take_heads hs (by decide)]
  exact Chip.answerCmd_took s h rest .timeRead [] Stat.done _ hs.2.1 he

section
variable {s : State} (h : s.Reached) (hon : s.chip.i2c.pecOn = false) (hen : s.chip.i2c.pecEn = false)
include h hon hen

theorem exec_i2cRead_time : exec (.i2cRead s.chip.i2c.addr [[0x04, 0x04]] 8) s = .next { s with
    chip.timebase.timeLatch := s.chip.now.extractLsb' 32 32
    chip.i2c.ptr := 0x040C
    chip.i2c.acked := true
    chip.i2c.out := leBytes 8 s.chip.now.toNat
    chip.i2c.xact := s.chip.i2c.xact + 1 } := by
  rw [exec_i2cRead_at h hon (by decide), show (0x04 : Byte) ++ (0x04 : Byte) = (0x0404 : W16) from rfl, Chip.readBytes_time, Chip.stopI2c_settled]
  · simp only [Chip.showI2c, tbTimeLoReadEffect, Chip.pointAt, Chip.modI2c, Chip.modTb]
    rfl
  · exact hen.trans hon.symm

theorem exec_i2cRead_timeHi : exec (.i2cRead s.chip.i2c.addr [[0x08, 0x04]] 4) s = .next { s with
    chip.i2c.ptr := 0x040C
    chip.i2c.acked := true
    chip.i2c.out := leBytes 4 s.chip.timebase.timeLatch.toNat
    chip.i2c.xact := s.chip.i2c.xact + 1 } := by
  rw [exec_i2cRead_at h hon (by decide), show (0x04 : Byte) ++ (0x08 : Byte) = (0x0408 : W16) from rfl, Chip.readBytes_timeHi _ (by simp),
    Chip.stopI2c_settled]
  · simp only [Chip.showI2c, Chip.pointAt, Chip.modI2c]

  · exact hen.trans hon.symm

end

/-- Settles O13: the first half's fetch latches the other half, which the second fetch then reads; TIME_READ is a command that only reads. -/
theorem timeReadsAreCoherent : Obligations.TimeReadsAreCoherent := by
  intro s
  refine ⟨fun h hon hen => ⟨exec_i2cRead_time h hon hen, exec_i2cRead_timeHi h hon hen⟩, fun c rest hs he => ?_⟩
  rw [exec_timeRead hs he, timeReadBytes_eq]

end Sys2Proof.Machine
end

section
/-! SUPPORT. Kettle's evaluation while no raise is pending: the measurement, the gate of a step, and the branches of the procedure (R57, R58,
R63, R65). -/

namespace Sys2Proof.Machine

/-! ### The gate of a step (R58, R62, R65) -/

/-- Some calibration runs: the central pair's or a deck's. -/
theorem Timebase.busy_iff (t : Timebase) : t.busy = true ↔ t.central.shadowBusy = true ∨ ∃ d : Deck, (t.decks.get d).shadowBusy = true := by
  simp only [Timebase.busy, Bool.or_eq_true, List.any_eq_true, Vector.mem_toList_iff, Vector.mem_iff_getElem]
  refine or_congr_right ⟨?_, fun ⟨d, h⟩ => ⟨_, ⟨d.val, d.isLt, rfl⟩, h⟩⟩
  rintro ⟨_, ⟨i, hi, rfl⟩, h⟩
  exact ⟨⟨i, hi⟩, h⟩

/-- No step is made: before 300 ms, or with KETTLE_CTRL.hold set. -/
abbrev Chip.StepBarred (ch : Chip) : Prop := ch.power.control = false ∨ ch.kettle.hold = true

/-- A step would have to wait: another one settles, or a calibration runs. -/
abbrev Chip.StepWaits (ch : Chip) : Prop :=
  ch.kettle.settling = true ∨ ch.timebase.central.shadowBusy = true ∨ ∃ d : Deck, (ch.timebase.decks.get d).shadowBusy = true

theorem Chip.stepGate_never {ch : Chip} (h : ch.StepBarred) : ch.stepGate = .never :=
  if_pos (by simpa only [Bool.not_eq_true] using h)

theorem Chip.stepGate_later {ch : Chip} (h : ¬ ch.StepBarred) (hw : ch.StepWaits) : ch.stepGate = .later := by
  rw [Chip.stepGate, if_neg (by simpa only [Bool.not_eq_true] using h), if_pos (by rwa [Timebase.busy_iff])]

theorem Chip.stepGate_free {ch : Chip} (h : ¬ ch.StepBarred) (hw : ¬ ch.StepWaits) : ch.stepGate = .free := by
  rw [Chip.stepGate, if_neg (by simpa only [Bool.not_eq_true] using h), if_neg (by rwa [Timebase.busy_iff])]

/-! ### The branches of the procedure (R58) -/

/-- The least slack is below the mode's margin. -/
def slackShort (least : Option (Slack × Nat)) (mode : Nat) : Bool := least.any fun x => !x.1.atLeast (margin mode)

/-- The least slack is more than the mode's margin and 5 %. -/
def slackRoomy (least : Option (Slack × Nat)) (mode : Nat) : Bool := least.all fun x => x.1.above (margin mode + 5)

section
variable {k : Kettle} {gate : StepGate} {mode : Nat} {least : Option (Slack × Nat)}

theorem slackShort_iff : slackShort least mode = true ↔ ∃ x i, least = some (x, i) ∧ x.atLeast (margin mode) = false := by
  cases least with
  | none => simp [slackShort]
  | some y => exact ⟨fun h => ⟨y.1, y.2, rfl, by simpa [slackShort] using h⟩, fun ⟨x, i, e, h⟩ => by cases e; simp [slackShort, h]⟩

theorem slackRoomy_iff : slackRoomy least mode = true ↔ ∀ x i, least = some (x, i) → x.above (margin mode + 5) = true := by
  cases least with
  | none => simp [slackRoomy]
  | some y => exact ⟨fun h x i e => by cases e; exact h, fun h => h y.1 y.2 rfl⟩

/-- The procedure asks for a step up. -/
def Kettle.Rises (k : Kettle) (mode : Nat) (least : Option (Slack × Nat)) : Prop :=
  k.vcore.toNat < k.vlow mode ∨ (slackShort least mode = true ∧ k.vcore.toNat < k.vhigh mode)

/-- The procedure with no pending set to cover. -/
theorem Kettle.control_steady : k.control gate mode (least.map (·.1)) false =
    if k.vcore.toNat < k.vlow mode then k.ask gate true
    else if slackShort least mode = true ∧ k.vcore.toNat < k.vhigh mode then k.ask gate true
    else if k.vhigh mode < k.vcore.toNat then k.ask gate false
    else if slackRoomy least mode = true ∧ k.vlow mode < k.vcore.toNat then
      if k.calm + 1 = 10 then { k.ask gate false with calm := 0 } else { k with calm := k.calm + 1 }
    else { k with calm := 0 } := by
  cases least <;> rfl

theorem Kettle.control_rises (h : k.Rises mode least) : k.control gate mode (least.map (·.1)) false = k.ask gate true := by
  rw [Kettle.control_steady]
  rcases h with h | h
  · rw [if_pos h]
  · rw [if_pos h, ite_self]

theorem Kettle.control_tooHigh (h : ¬ k.Rises mode least) (hv : k.vhigh mode < k.vcore.toNat) :
    k.control gate mode (least.map (·.1)) false = k.ask gate false := by
  obtain ⟨h1, h2⟩ := not_or.mp h
  rw [Kettle.control_steady, if_neg h1, if_neg h2, if_pos hv]

/-- The slack has been roomy above the low limit: the calm evaluations count up, and the tenth in a row asks for a step down. -/
theorem Kettle.control_calm (h : ¬ k.Rises mode least) (hv : k.vcore.toNat ≤ k.vhigh mode) (hr : slackRoomy least mode = true)
    (hl : k.vlow mode < k.vcore.toNat) :
    k.control gate mode (least.map (·.1)) false
      = if k.calm + 1 = 10 then { k.ask gate false with calm := 0 } else { k with calm := k.calm + 1 } := by
  obtain ⟨h1, h2⟩ := not_or.mp h
  rw [Kettle.control_steady, if_neg h1, if_neg h2, if_neg (Nat.not_lt.mpr hv), if_pos ⟨hr, hl⟩]

theorem Kettle.control_tight (h : ¬ k.Rises mode least) (hv : k.vcore.toNat ≤ k.vhigh mode)
    (hc : ¬ (slackRoomy least mode = true ∧ k.vlow mode < k.vcore.toNat)) :
    k.control gate mode (least.map (·.1)) false = { k with calm := 0 } := by
  obtain ⟨h1, h2⟩ := not_or.mp h
  rw [Kettle.control_steady, if_neg h1, if_neg h2, if_neg (Nat.not_lt.mpr hv), if_neg hc]

end

/-! ### The evaluation -/

/-- Kettle's registers after a measurement (R63). -/
def Kettle.measured (k : Kettle) (times : List (BitVec 24)) : Kettle :=
  { k with
    siteTimes := times
    due := none
    slack := match leastSlack k.decks k.ports times with | some (x, _) => slackUnits x | none => 0xFFFF
    slackSite := match leastSlack k.decks k.ports times with | some (_, i) => BitVec.ofNat 8 (siteDomain k i) | none => 0 }

theorem exec_kettleEvaluate_steady {s : State} (hcore : s.chip.power.core = true) (hlock : s.chip.timebase.refState = .locked)
    (hwarn : s.chip.power.warning = false) (hraise : s.chip.kettle.raising = []) (times : List (BitVec 24)) :
    exec (.kettleEvaluate times) s = .next { s with
      chip.kettle := (s.chip.kettle.measured times).control s.chip.stepGate s.chip.kettle.mode
        ((leastSlack s.chip.kettle.decks s.chip.kettle.ports times).map (·.1)) false } := by
  refine State.onChip_eq ?_
  have he : s.chip.kettleEvaluates = true := by simp [Chip.kettleEvaluates, hcore, hlock, hwarn]
  simp only [kettleEvaluateEffect, he, not_true_eq_false, if_false, hraise, ne_eq, false_and, Chip.kettleMeasure, List.isEmpty_nil,
    Bool.not_true, Bool.false_and, if_true]
  rfl

/-- Settles O4: the branch by the voltage and the least slack, the step of a branch by its gate. -/
theorem kettleEvaluation : Obligations.KettleEvaluation := by
  intro s times hcore hlock hwarn hraise k least seen barred wait v low high below roomy up tooHigh calm ends
  have control : ∀ k1, (s.chip.kettle.measured times).control s.chip.stepGate k.mode (least.map (·.1)) false = k1 → ends k1 := fun k1 h =>
    h ▸ exec_kettleEvaluate_steady hcore hlock hwarn hraise times
  have free : ¬ barred → ¬ wait → s.chip.stepGate = .free := Chip.stepGate_free
  have later : ¬ barred → wait → s.chip.stepGate = .later := Chip.stepGate_later
  have never : barred → s.chip.stepGate = .never := Chip.stepGate_never
  let m := s.chip.kettle.measured times
  have hup : up ↔ m.Rises k.mode least := or_congr_right (and_congr_left' slackShort_iff.symm)
  have rises : up → ∀ k1, m.ask s.chip.stepGate true = k1 → ends k1 := fun h k1 e => control k1 ((Kettle.control_rises (hup.mp h)).trans e)
  have falls : tooHigh → ∀ k1, m.ask s.chip.stepGate false = k1 → ends k1 := fun ⟨hu, hv⟩ k1 e =>
    control k1 ((Kettle.control_tooHigh (hup.not.mp hu) hv).trans e)
  have calmly : calm → m.control s.chip.stepGate k.mode (least.map (·.1)) false
      = if m.calm + 1 = 10 then { m.ask s.chip.stepGate false with calm := 0 } else { m with calm := m.calm + 1 } :=
    fun ⟨hu, hv, hr, hl⟩ => Kettle.control_calm (hup.not.mp hu) hv (slackRoomy_iff.mpr hr) hl
  have tenth : calm → k.calm = 9 → ∀ k1, { m.ask s.chip.stepGate false with calm := 0 } = k1 → ends k1 := fun h h9 k1 e =>
    control k1 (((calmly h).trans (if_pos (congrArg (· + 1) h9))).trans e)
  refine ⟨fun h hb hw => rises h _ ?_, fun h hb hw => rises h _ ?_, fun h hb => rises h _ ?_, fun h hb hw => falls h _ ?_,
    fun h hb hw => falls h _ ?_, fun h hb => falls h _ ?_, fun h h9 hb hw => tenth h h9 _ ?_, fun h h9 hb hw => tenth h h9 _ ?_,
    fun h h9 hb => tenth h h9 _ ?_, fun h h9 => control _ ((calmly h).trans (if_neg fun e => h9 (Nat.succ.inj e))), fun hu ht hc => ?_⟩
  · rw [free hb hw]; rfl
  · rw [later hb hw]; rfl
  · rw [never hb]; rfl
  · rw [free hb hw]; rfl
  · rw [later hb hw]; rfl
  · rw [never hb]; rfl
  · rw [free hb hw]; rfl
  · rw [later hb hw]; rfl
  · rw [never hb]; rfl
  · have hv : v ≤ high := Nat.not_lt.mp fun h => ht ⟨hu, h⟩
    exact control _ (Kettle.control_tight (hup.not.mp hu) hv fun ⟨hr, hl⟩ => hc ⟨hu, hv, slackRoomy_iff.mp hr, hl⟩)

end Sys2Proof.Machine
end

section
/-! SUPPORT. The opcodes that set or read a deck without moving it: TRIP_CLEAR, SPEED_POLICY, COMPRESSION_SET, PROFILE_LOAD and POSITION_READ
(R194, R195, R216, R219, R220). -/

namespace Sys2Proof.Machine

/-! ### The checks (Tables 7-2, 8-2) -/

def settingOps : List Op := [.tripClear, .speedPolicy, .compressionSet, .profileLoad, .positionRead]

theorem settingOps_class : ∀ op ∈ settingOps, op.onTape = false ∧ op.moves = false ∧ op.order6 = false ∧ op.engines = [] ∧ op.writeSide = false ∧
    op.readSide = false ∧ op ≠ .ctxOpen ∧ op ≠ .writeRecord ∧ op ≠ .writeFilemark ∧ op ≠ .load ∧ op ≠ .home ∧ op ≠ .unload := by
  decide

section
variable {s : State} {h : CmdHdr} {rest : List Cmd} {d : Deck} {op : Op} {p : List Byte}

/-- A setting opcode that orders 5, 7, 9, 9b to 9d and 10 let through comes to order 11. -/
theorem State.Locked.run_setting (hk : s.Locked h d) (hop : op ∈ settingOps)
    (hst : op.order5 p = true → (s.chip.decks.get d).seq.state ≠ .dormant)
    (hprof : op.order7 = true → (s.chip.decks.get d).profile.isSome = true) (h9 : s.chip.order9 op p d = none)
    (h9b : s.chip.order9bcd op d = none) (hb : s.chip.deckBusy op p d = false) :
    (s.started h rest op d).chip.run (cmdOf op h p) d = (s.started h rest op d).chip.declareAndAct (cmdOf op h p) d := by
  obtain ⟨-, hheld, hlock, -⟩ := hk
  obtain ⟨-, hmv, h6, heng, -, -, -, hw1, hw2, -⟩ := settingOps_class op hop
  have hj : (s.started h rest op d).chip.judge (cmdOf op h p) d = none := by
    have hl : (if op.needsLock p then ((s.started h rest op d).chip.decks.get d).lock.state.refuses h.ctx else none) = none := by
      show (if op.needsLock p then (s.chip.decks.get d).lock.state.refuses h.ctx else none) = none
      simp [hlock, LockState.refuses]
    have hheld' : (s.started h rest op d).chip.deckHeld d = false := hheld
    have h9' : (s.started h rest op d).chip.order9 op p d = none := h9
    have h9b' : (s.started h rest op d).chip.order9bcd op d = none := h9b
    have hb' : (s.started h rest op d).chip.deckBusy op p d = false := hb
    have early : ∀ l, l = none → firstFail [(op.needsLock p && (s.started h rest op d).chip.deckHeld d, Stat.mgmtHold),
        (l.isSome, l.getD Stat.notLocked), (op.order5 p && decide ((s.chip.decks.get d).seq.state = .dormant), Stat.deckCal),
        (op.order6 && !(s.chip.decks.get d).io.cart, Stat.noCartridge), (op.order7 && (s.chip.decks.get d).profile.isNone, Stat.noProfile),
        (op.moves && (s.chip.decks.get d).io.axes.toList.any (·.trip), Stat.tripped)] = none := fun l hl => by
      refine firstFail_none ?_
      simp only [hl, hheld', h6, hmv, List.mem_cons, List.not_mem_nil, or_false, forall_eq_or_imp, forall_eq, Option.isSome_none, Bool.and_false,
        Bool.false_and, true_and, Bool.and_eq_false_imp, decide_eq_false_iff_not, and_true]
      exact ⟨hst, fun ho => by simpa using hprof ho⟩
    unfold Chip.judge
    simp only [show (cmdOf op h p).op = op from rfl, show (cmdOf op h p).payload = p from rfl, show (cmdOf op h p).ctx = h.ctx from rfl,
      show (s.started h rest op d).chip.decks = s.chip.decks from rfl] at hl ⊢
    rw [early _ hl]
    simp only [h9', h9b', hb', Bool.false_eq_true, if_false]
  exact Chip.run_none hj (by show op.engines.any _ = false; rw [heng]; rfl) (Chip.ticketRefuses_none hw1 hw2)

/-- It declares nothing, unless it turns compression on under a write declaration of a streaming deck. -/
theorem Chip.loadFor_setting {ch : Chip} (hop : op ∈ settingOps) (hc : ¬ (op = .compressionSet ∧ byteAt p 1 = 1#8 ∧
      (ch.decks.get d).seq.state = .streaming ∧ loadWrites (ch.kettle.decks.get d) = true)) : ch.loadFor (cmdOf op h p) d = none := by
  obtain ⟨-, -, -, -, hw, hr, -⟩ := settingOps_class op hop
  have e : (cmdOf op h p).op = op := rfl
  have e' : (cmdOf op h p).payload = p := rfl
  unfold Chip.loadFor
  cases hp : (ch.decks.get d).profile with
  | none => simp only [hp]
  | some f =>
    have hs : op ≠ .load ∧ op ≠ .home ∧ op ≠ .unload := by obtain ⟨-, -, -, -, -, -, -, -, -, hs⟩ := settingOps_class op hop; exact hs
    simp only [hp, e, e', hw, hr, hc, Bool.false_eq_true, false_and, if_false]
    split <;> simp_all

/-- With nothing to declare, it takes effect. -/
theorem Chip.declareAndAct_setting {ch : Chip} (hop : op ∈ settingOps) (hl : ch.loadFor (cmdOf op h p) d = none) :
    ch.declareAndAct (cmdOf op h p) d = ch.effect (cmdOf op h p) d := by
  obtain ⟨-, -, -, -, hw, hr, -⟩ := settingOps_class op hop
  have hn : ch.noteDeclared op d = ch := Chip.noteDeclared_same (by simp [hw, hr])
  rw [Chip.declareAndAct_none hl]
  exact congrArg (fun c => c.effect (cmdOf op h p) d) hn

/-- Outside PROFILE_LOAD nothing that runs on the deck is in a setting opcode's way. -/
theorem Chip.deckBusy_setting {ch : Chip} (hop : op ∈ settingOps) (hne : op ≠ .profileLoad) : ch.deckBusy op p d = false := by
  simp only [settingOps, List.mem_cons, List.not_mem_nil, or_false] at hop
  rcases hop with rfl | rfl | rfl | rfl | rfl
  · rfl
  · rfl
  · rfl
  · exact absurd rfl hne
  · rfl

end

/-! ### From the queue to the effect -/

section
variable {s : State} {h : CmdHdr} {rest : List Cmd} {d : Deck} {op : Op} {p : List Byte} (hk : s.Locked h d)
include hk

/-- A setting opcode in order, with nothing to declare, comes to its effect. -/
theorem State.Locked.setting_effect (hs : s.Heads op h p rest) (hop : op ∈ settingOps) (hd : deckOf p = some d) (hr : reservedBad op p = false)
    (hb : s.chip.rangeBad op p = false) (hst : op.order5 p = true → (s.chip.decks.get d).seq.state ≠ .dormant)
    (hprof : op.order7 = true → (s.chip.decks.get d).profile.isSome = true) (h9 : s.chip.order9 op p d = none)
    (h9b : s.chip.order9bcd op d = none) (hbusy : s.chip.deckBusy op p d = false)
    (hc : ¬ (op = .compressionSet ∧ byteAt p 1 = 1#8 ∧ (s.chip.decks.get d).seq.state = .streaming ∧
      loadWrites (s.chip.kettle.decks.get d) = true)) :
    deckEffect op h p s.chip = (s.started h rest op d).chip.effect (cmdOf op h p) d := by
  have hl : (s.started h rest op d).chip.loadFor (cmdOf op h p) d = none := Chip.loadFor_setting hop hc
  have hne : op ≠ .ctxOpen := by obtain ⟨-, -, -, -, -, -, hne, -⟩ := settingOps_class op hop; exact hne
  rw [deckEffect_run hs hk hne hd hr hb, hk.run_setting hop hst hprof h9 h9b hbusy, Chip.declareAndAct_setting hop hl]

theorem State.started_alters (hs : s.Heads op h p rest) (f : DeckAll → DeckAll) (st : Stat) (payload : List Byte) :
    ((s.started h rest op d).chip.modDeck d f).answerCmd (cmdOf op h p) st payload
      = (s.deckAnswered h rest d (f (s.chip.decks.get d)) st payload).chip :=
  State.started_complete hs.2.1 hk.1 rest op d f st payload

theorem State.Locked.answers (hs : s.Heads op h p rest) (st : Stat) (payload : List Byte) :
    (s.started h rest op d).chip.answerCmd (cmdOf op h p) st payload = (s.deckAnswered h rest d (s.chip.decks.get d) st payload).chip :=
  State.started_answerCmd hs.2.1 hk.1 rest op d p st payload

end

/-! ### TRIP_CLEAR (R194) -/

/-- An axis whose latch is cleared and which is OFF from then on (R194). -/
def AxisState.untripped (x : AxisState) : AxisState := if x.trip then { x with trip := false, mode := .off, nextMode := .off } else x

/-- The axes that a mask names. -/
def maskAxes (mask : Byte) : List Axis := allDecks.filter (fun (a : Axis) => mask.getLsbD a.val)

/-- The axes of a mask, their latches cleared. -/
def untrip (mask : Byte) (v : Vector AxisState 4) : Vector AxisState 4 := (maskAxes mask).foldl (fun v (a : Axis) => v.set a (v.get a).untripped) v

theorem foldl_modify_get {α : Type} {n : Nat} (g : α → α) {l : List (Fin n)} (hn : l.Nodup) (v : Vector α n) (i : Fin n) :
    (l.foldl (fun v a => v.set a (g (v.get a))) v).get i = if i ∈ l then g (v.get i) else v.get i := by
  induction l generalizing v with
  | nil => rfl
  | cons a l ih =>
    obtain ⟨ha, hl⟩ := List.nodup_cons.mp hn
    rw [List.foldl_cons, ih hl]
    by_cases e : i = a
    · subst e
      simp [ha]
    · rw [vector_get_set_ne _ _ _ _ e]
      simp [e]

theorem mem_maskAxes {mask : Byte} {a : Axis} : a ∈ maskAxes mask ↔ mask.getLsbD a.val = true := by
  simp only [maskAxes, List.mem_filter, and_iff_right_iff_imp]
  exact fun _ => by fin_cases a <;> decide

theorem maskAxes_any {mask : Byte} {f : Axis → Bool} :
    (maskAxes mask).any f = true ↔ ∃ a : Axis, mask.getLsbD a.val = true ∧ f a = true := by
  simp only [List.any_eq_true, mem_maskAxes]

/-- The axes of a mask with their latches cleared, the others as they were. -/
theorem untrip_eq (mask : Byte) (v : Vector AxisState 4) :
    untrip mask v = (Vector.ofFn fun a : Axis =>
      if mask.getLsbD a.val ∧ (v.get a).trip then { v.get a with trip := false, mode := .off, nextMode := .off } else v.get a) := by
  have hn : (maskAxes mask).Nodup := List.Nodup.filter _ (by decide)
  refine Vector.ext fun i hi => ?_
  have hg := foldl_modify_get AxisState.untripped hn v ⟨i, hi⟩
  rw [Vector.getElem_ofFn]
  refine (show (untrip mask v)[i] = _ from hg).trans ?_
  simp only [mem_maskAxes, AxisState.untripped]
  split <;> simp_all

/-- TRIP_CLEAR by what the inputs and the latches of its mask say. -/
theorem Chip.actTripClear_cases {ch : Chip} {h : CmdHdr} {d : Deck} {p : List Byte} {mask : Byte} (hp : byteAt p 1 = mask) :
    ch.actTripClear (cmdOf .tripClear h p) d =
      (if ∃ a : Axis, mask.getLsbD a.val = true ∧ ((ch.decks.get d).io.axes.get a).tripIn = true then
        ch.answerCmd (cmdOf .tripClear h p) Stat.tripActive []
      else if ∃ a : Axis, mask.getLsbD a.val = true ∧ ((ch.decks.get d).io.axes.get a).trip = true then
        (ch.modDeck d (fun k => ({ k with io.axes := untrip mask k.io.axes }).askModes)).answerCmd
          (cmdOf .tripClear h p) Stat.done []
      else ch.answerCmd (cmdOf .tripClear h p) Stat.already []) := by
  subst hp
  simp only [← maskAxes_any]
  rw [← ite_not (_ = true) (Chip.answerCmd _ _ Stat.already [])]
  rfl

section
variable {s : State} {h : CmdHdr} {rest : List Cmd} {d : Deck} {mask : Byte} (hk : s.Locked h d)
  (hs : s.Heads .tripClear h [BitVec.ofNat 8 d.val, mask, 0, 0] rest) (h0 : mask ≠ 0) (h16 : mask.toNat < 16)
  (hst : (s.chip.decks.get d).seq.state ≠ .dormant)
include hk hs h0 h16 hst

theorem deckEffect_tripClear :
    deckEffect .tripClear h [BitVec.ofNat 8 d.val, mask, 0, 0] s.chip
      = (s.started h rest .tripClear d).chip.actTripClear (cmdOf .tripClear h [BitVec.ofNat 8 d.val, mask, 0, 0]) d := by
  have hr : reservedBad .tripClear [BitVec.ofNat 8 d.val, mask, 0, 0] = false := by
    simp [reservedBad, fieldZero, byteAt, h16, List.range_succ]
  have hb : s.chip.rangeBad .tripClear [BitVec.ofNat 8 d.val, mask, 0, 0] = false := by
    have hm : mask.toNat ≠ 0 := fun e => h0 (BitVec.eq_of_toNat_eq e)
    unfold Chip.rangeBad
    simp only [deckOf_cons]
    simp [byteAt, hm]
  exact hk.setting_effect hs (by decide) (deckOf_cons ..) hr hb (fun _ => hst) (fun e => nomatch e) rfl
    (Chip.order9bcd_off rfl (by decide) d) (Chip.deckBusy_setting (by decide) (by decide)) (fun e => nomatch e.1)

theorem exec_tripClear_active (ha : ∃ a : Axis, mask.getLsbD a.val = true ∧ ((s.chip.decks.get d).io.axes.get a).tripIn = true) :
    exec (.tripClear h [BitVec.ofNat 8 d.val, mask, 0, 0]) s = .next (s.deckAnswered h rest d (s.chip.decks.get d) Stat.tripActive []) := by
  refine State.onChip_to ?_ rfl
  rw [deckEffect_tripClear hk hs h0 h16 hst, Chip.actTripClear_cases rfl, if_pos (by exact ha)]
  exact hk.answers hs ..

theorem exec_tripClear_already (hi : ∀ a : Axis, mask.getLsbD a.val = true → ((s.chip.decks.get d).io.axes.get a).tripIn = false)
    (ht : ∀ a : Axis, mask.getLsbD a.val = true → ((s.chip.decks.get d).io.axes.get a).trip = false) :
    exec (.tripClear h [BitVec.ofNat 8 d.val, mask, 0, 0]) s = .next (s.deckAnswered h rest d (s.chip.decks.get d) Stat.already []) := by
  refine State.onChip_to ?_ rfl
  rw [deckEffect_tripClear hk hs h0 h16 hst, Chip.actTripClear_cases rfl,
    if_neg fun ⟨a, hm, e⟩ => Bool.false_ne_true ((hi a hm).symm.trans e), if_neg fun ⟨a, hm, e⟩ => Bool.false_ne_true ((ht a hm).symm.trans e)]
  exact hk.answers hs ..

theorem exec_tripClear_clears (hi : ∀ a : Axis, mask.getLsbD a.val = true → ((s.chip.decks.get d).io.axes.get a).tripIn = false)
    (ht : ∃ a : Axis, mask.getLsbD a.val = true ∧ ((s.chip.decks.get d).io.axes.get a).trip = true) :
    exec (.tripClear h [BitVec.ofNat 8 d.val, mask, 0, 0]) s = .next (s.deckAnswered h rest d ({ s.chip.decks.get d with
      io.axes := untrip mask (s.chip.decks.get d).io.axes }).askModes Stat.done []) := by
  refine State.onChip_to ?_ rfl
  rw [deckEffect_tripClear hk hs h0 h16 hst, Chip.actTripClear_cases rfl,
    if_neg fun ⟨a, hm, e⟩ => Bool.false_ne_true ((hi a hm).symm.trans e), if_pos (by exact ht)]
  exact State.started_alters hk hs ..

end

/-! ### SPEED_POLICY (R195) -/

/-- SPEED_POLICY's request (Table 7-10). -/
def policyPayload (d : Deck) (fixed : Bool) (stall lo hi at_ : W16) : List Byte :=
  [BitVec.ofNat 8 d.val, if fixed then 1 else 0] ++ leBytes 2 stall.toNat ++ leBytes 2 lo.toNat ++ leBytes 2 hi.toNat ++ leBytes 2 at_.toNat ++ [0, 0]

theorem policyPayload_fields (d : Deck) (fixed : Bool) (stall lo hi at_ : W16) :
    leAt (policyPayload d fixed stall lo hi at_) 2 2 = stall.toNat ∧ leAt (policyPayload d fixed stall lo hi at_) 4 2 = lo.toNat ∧
    leAt (policyPayload d fixed stall lo hi at_) 6 2 = hi.toNat ∧ leAt (policyPayload d fixed stall lo hi at_) 8 2 = at_.toNat := by
  have field (a c : List Byte) (x : W16) : leAt (a ++ (leBytes 2 x.toNat ++ c)) a.length 2 = x.toNat := leAt_field x.isLt
  have e : policyPayload d fixed stall lo hi at_ = [BitVec.ofNat 8 d.val, if fixed then 1 else 0] ++ (leBytes 2 stall.toNat ++ (leBytes 2 lo.toNat ++
      (leBytes 2 hi.toNat ++ (leBytes 2 at_.toNat ++ [0, 0])))) := by simp [policyPayload]
  rw [e]
  refine ⟨field _ _ _, ?_, ?_, ?_⟩
  · rw [← List.append_assoc]
    exact field _ _ _
  · rw [← List.append_assoc, ← List.append_assoc]
    exact field _ _ _
  · rw [← List.append_assoc, ← List.append_assoc, ← List.append_assoc]
    exact field _ _ _

theorem policyPayload_mode (d : Deck) (fixed : Bool) (stall lo hi at_ : W16) :
    byteAt (policyPayload d fixed stall lo hi at_) 1 = if fixed then 1 else 0 := rfl

/-- The policy that it asks for. -/
def policyOf (fixed : Bool) (stall lo hi at_ : W16) : SpeedPolicy :=
  { fixed := fixed, stallMs := if stall = 0 then 50 else stall.toNat, floor := lo.toNat, ceiling := hi.toNat, fixedAt := at_.toNat }

/-- The limits that R195 sets to the fields of a policy of a deck with profile `f`. -/
structure PolicyInRange (f : Profile) (fixed : Bool) (stall lo hi at_ : W16) : Prop where
  pause : stall = 0 ∨ (10 ≤ stall.toNat ∧ stall.toNat ≤ 5000)
  high : hi.toNat ≤ 10000
  low : f.sMin ≤ if lo = 0 then f.sMin else lo.toNat
  order : (if lo = 0 then f.sMin else lo.toNat) ≤ if hi = 0 then 10000 else hi.toNat
  within : fixed = true → (if lo = 0 then f.sMin else lo.toNat) ≤ at_.toNat ∧ at_.toNat ≤ if hi = 0 then 10000 else hi.toNat
  free : fixed = false → at_ = 0

theorem policyOk_inRange {f : Profile} {fixed : Bool} {stall lo hi at_ : W16} (hr : PolicyInRange f fixed stall lo hi at_) (d : Deck) :
    policyOk (some f) (policyPayload d fixed stall lo hi at_) = true := by
  obtain ⟨h1, h2, h3, h4⟩ := policyPayload_fields d fixed stall lo hi at_
  obtain ⟨hstall, hhigh, hlow, horder, hat, hfree⟩ := hr
  have hz : ∀ x : W16, x.toNat = 0 ↔ x = 0 := fun x => by rw [← BitVec.toNat_inj]; rfl
  have hhi : (if hi = 0 then 10000 else hi.toNat) ≤ 10000 := by split <;> omega
  unfold policyOk
  simp only [h1, h2, h3, h4, policyPayload_mode, hz, Option.map_some, Option.getD_some, within]
  generalize (if lo = 0 then f.sMin else lo.toNat) = l at *
  generalize (if hi = 0 then 10000 else hi.toNat) = u at *
  cases fixed with
  | true => obtain ⟨ha, hb⟩ := hat rfl; simpa [hlow, horder, hhi, ha, hb] using hstall
  | false => simpa [hlow, horder, hhi, hfree rfl] using hstall

theorem rangeBad_compression (ch : Chip) (d : Deck) (on : Bool) : ch.rangeBad .compressionSet [BitVec.ofNat 8 d.val, if on then 1 else 0, 0, 0] = false := by
  unfold Chip.rangeBad
  simp only [deckOf_cons]
  cases on <;> rfl

theorem reservedBad_policy (d : Deck) (fixed : Bool) (stall lo hi at_ : W16) :
    reservedBad .speedPolicy (policyPayload d fixed stall lo hi at_) = false := rfl

/-- Taking a command and letting it execute leaves the position block as it was. -/
theorem State.started_positionBlock (s : State) (h : CmdHdr) (rest : List Cmd) (op : Op) (d : Deck) :
    (s.started h rest op d).chip.positionBlock d = s.chip.positionBlock d := by
  have hw : ∀ i, (s.started h rest op d).chip.waitingRecs i d = s.chip.waitingRecs i d := fun i => by
    unfold Chip.waitingRecs
    rw [State.started_wdata]
    rfl
  have hg : (s.started h rest op d).chip.stagedObjects d = s.chip.stagedObjects d := by
    unfold Chip.stagedObjects
    simp only [hw]
    rfl
  unfold Chip.positionBlock
  rw [hg]
  rfl

section
variable {s : State} {h : CmdHdr} {rest : List Cmd} {d : Deck} (hk : s.Locked h d)
include hk

theorem exec_speedPolicy {f : Profile} {fixed : Bool} {stall lo hi at_ : W16}
    (hs : s.Heads .speedPolicy h (policyPayload d fixed stall lo hi at_) rest) (hst : (s.chip.decks.get d).seq.state ≠ .dormant)
    (hp : (s.chip.decks.get d).profile = some f) (hr : PolicyInRange f fixed stall lo hi at_) :
    exec (.speedPolicy h (policyPayload d fixed stall lo hi at_)) s = .next (s.deckAnswered h rest d { s.chip.decks.get d with
      matcher.next := some (policyOf fixed stall lo hi at_) } Stat.done []) := by
  have hb : s.chip.rangeBad .speedPolicy (policyPayload d fixed stall lo hi at_) = false := by
    have hd : deckOf (policyPayload d fixed stall lo hi at_) = some d := deckOf_cons ..
    unfold Chip.rangeBad
    simp only [hd, hp, policyOk_inRange hr, Bool.not_true]
  refine State.onChip_to ?_ rfl
  rw [hk.setting_effect hs (by decide) (deckOf_cons ..) (reservedBad_policy ..) hb (fun _ => hst) (fun _ => by rw [hp]; rfl) rfl
    (Chip.order9bcd_off rfl (by decide) d) (Chip.deckBusy_setting (by decide) (by decide)) (fun e => nomatch e.1)]
  obtain ⟨h1, h2, h3, h4⟩ := policyPayload_fields d fixed stall lo hi at_
  have hz : stall.toNat = 0 ↔ stall = 0 := by rw [← BitVec.toNat_inj]; rfl
  have hf : decide (byteAt (policyPayload d fixed stall lo hi at_) 1 = 1#8) = fixed := by cases fixed <;> rfl
  refine Eq.trans ?_ (State.started_alters hk hs (fun k => { k with matcher.next := some (policyOf fixed stall lo hi at_) }) Stat.done [])
  show (s.started h rest .speedPolicy d).chip.actPolicy (cmdOf .speedPolicy h (policyPayload d fixed stall lo hi at_)) d = _
  unfold Chip.actPolicy
  simp only [show (cmdOf .speedPolicy h (policyPayload d fixed stall lo hi at_)).payload = policyPayload d fixed stall lo hi at_ from rfl, h1, h2, h3,
    h4, hz, hf]
  rfl

/-! ### COMPRESSION_SET (R219, R60) -/

theorem exec_compressionSet {on : Bool} (hs : s.Heads .compressionSet h [BitVec.ofNat 8 d.val, if on then 1 else 0, 0, 0] rest)
    (hl : (s.chip.decks.get d).seq.state ≠ .streaming ∨ on = false ∨ loadWrites (s.chip.kettle.decks.get d) = false) :
    exec (.compressionSet h [BitVec.ofNat 8 d.val, if on then 1 else 0, 0, 0]) s = .next
      (if (s.chip.decks.get d).compress = on then s.deckAnswered h rest d (s.chip.decks.get d) Stat.already []
       else s.deckAnswered h rest d { s.chip.decks.get d with compress := on } Stat.done []) := by
  have hon : decide (byteAt [BitVec.ofNat 8 d.val, if on then 1 else 0, 0, 0] 1 = 1#8) = on := by cases on <;> rfl
  have hc : ¬ (Op.compressionSet = .compressionSet ∧ byteAt [BitVec.ofNat 8 d.val, if on then 1 else 0, 0, 0] 1 = 1#8 ∧
      (s.chip.decks.get d).seq.state = .streaming ∧ loadWrites (s.chip.kettle.decks.get d) = true) := by
    rw [← decide_eq_true_iff (p := _ = 1#8), hon]
    rintro ⟨-, h1, h2, h3⟩
    rcases hl with e | e | e
    · exact e h2
    · exact Bool.false_ne_true (e.symm.trans h1)
    · exact Bool.false_ne_true (e.symm.trans h3)
  have he := hk.setting_effect hs (by decide) (deckOf_cons ..) (by cases on <;> rfl) (rangeBad_compression ..) (fun e => nomatch e) (fun e => nomatch e) rfl
    (Chip.order9bcd_off rfl (by decide) d) (Chip.deckBusy_setting (by decide) (by decide)) hc
  refine State.onChip_to (he.trans ?_) (by split <;> rfl)
  show (s.started h rest .compressionSet d).chip.actCompression (cmdOf .compressionSet h [BitVec.ofNat 8 d.val, if on then 1 else 0, 0, 0]) d = _
  unfold Chip.actCompression
  simp only [show (cmdOf .compressionSet h [BitVec.ofNat 8 d.val, if on then 1 else 0, 0, 0]).payload = [BitVec.ofNat 8 d.val, if on then 1 else 0, 0, 0] from rfl, hon]
  rw [show (s.started h rest .compressionSet d).chip.decks = s.chip.decks from rfl]
  by_cases e : (s.chip.decks.get d).compress = on
  · rw [if_pos e, if_pos e]
    exact hk.answers hs ..
  · rw [if_neg e, if_neg e]
    exact State.started_alters hk hs (fun k => { k with compress := on }) ..

/-- Turning compression on while a write streams declares the compressor first, and waits for the raise. -/
theorem exec_compressionSet_raise (hs : s.Heads .compressionSet h [BitVec.ofNat 8 d.val, 1, 0, 0] rest)
    (hst : (s.chip.decks.get d).seq.state = .streaming) (hp : (s.chip.decks.get d).profile.isSome = true)
    (hw : loadWrites (s.chip.kettle.decks.get d) = true)
    (hx : s.chip.kettle.isRaise (.deck d { s.chip.kettle.decks.get d with compress := true }) = true)
    (hr : s.chip.kettle.raising = []) (ht : s.chip.temp.limited = false) :
    exec (.compressionSet h [BitVec.ofNat 8 d.val, 1, 0, 0]) s = .next { s.started h rest .compressionSet d with
      chip.kettle.raising := [{ decl := .deck d { s.chip.kettle.decks.get d with compress := true },
                                cmd := some (cmdOf .compressionSet h [BitVec.ofNat 8 d.val, 1, 0, 0]) }] } := by
  obtain ⟨f, hf⟩ := Option.isSome_iff_exists.mp hp
  have hl : (s.started h rest .compressionSet d).chip.loadFor (cmdOf .compressionSet h [BitVec.ofNat 8 d.val, 1, 0, 0]) d
      = some { s.chip.kettle.decks.get d with compress := true } := by
    have h1 : (s.started h rest .compressionSet d).chip.decks = s.chip.decks := rfl
    have h2 : (s.started h rest .compressionSet d).chip.kettle = s.chip.kettle := rfl
    unfold Chip.loadFor
    simp [h1, h2, hf, hst, hw, cmdOf, byteAt, Op.writeSide, Op.readSide]
  have hd := Chip.declare_raise (ch := (s.started h rest .compressionSet d).chip) hr hx ht (some (cmdOf .compressionSet h [BitVec.ofNat 8 d.val, 1, 0, 0]))
  have hrun := hk.run_setting (rest := rest) (op := .compressionSet) (p := [BitVec.ofNat 8 d.val, 1, 0, 0]) (by decide) (fun e => nomatch e)
    (fun e => nomatch e) rfl (Chip.order9bcd_off rfl (by decide) d) (Chip.deckBusy_setting (by decide) (by decide))
  refine State.onChip_to ?_ rfl
  rw [deckEffect_run hs hk (by decide) (deckOf_cons ..) rfl (rangeBad_compression s.chip d true), hrun]
  unfold Chip.declareAndAct
  simp only [hl, Chip.drawStanding_none (op := .compressionSet) rfl rfl, hd]

/-! ### PROFILE_LOAD and POSITION_READ (R216, R220) -/

theorem exec_profileLoad {image : List Byte} (hs : s.Heads .profileLoad h ([BitVec.ofNat 8 d.val, 0, 0, 0] ++ image) rest)
    (hi : profileOk image = true)
    (hst : (s.chip.decks.get d).seq.state = .dormant ∨ (s.chip.decks.get d).seq.state = .empty ∨ (s.chip.decks.get d).seq.state = .present)
    (hop : (s.chip.decks.get d).seq.op = none) (hq : (s.chip.decks.get d).cookQ = []) (hr : s.chip.kettle.raising = []) :
    exec (.profileLoad h ([BitVec.ofNat 8 d.val, 0, 0, 0] ++ image)) s = .next (s.deckAnswered h rest d { s.chip.decks.get d with
      profile := some (parseProfile image), matcher.policy := .reset, matcher.next := none } Stat.done []) := by
  have hb : s.chip.rangeBad .profileLoad ([BitVec.ofNat 8 d.val, 0, 0, 0] ++ image) = false := by
    have hd : deckOf ([BitVec.ofNat 8 d.val, 0, 0, 0] ++ image) = some d := deckOf_cons ..
    unfold Chip.rangeBad
    simp only [hd]
    simp [hi]
  have h9 : s.chip.order9 .profileLoad ([BitVec.ofNat 8 d.val, 0, 0, 0] ++ image) d = none := by
    unfold Chip.order9
    rcases hst with e | e | e <;> simp [DeckSeq.baseState, e]
  have hbusy : s.chip.deckBusy .profileLoad ([BitVec.ofNat 8 d.val, 0, 0, 0] ++ image) d = false := by
    unfold Chip.deckBusy
    rcases hst with e | e | e <;> simp [hop, hq, hr, e, Chip.raisePending, DeckAll.opEnding, DeckState.inSequence]
  refine State.onChip_to ?_ rfl
  rw [hk.setting_effect hs (by decide) (deckOf_cons ..) rfl hb (fun e => nomatch e) (fun e => nomatch e) h9
    (Chip.order9bcd_off rfl (by decide) d) hbusy (fun e => nomatch e.1)]
  exact State.started_alters hk hs (fun k => { k with profile := some (parseProfile image), matcher.policy := .reset, matcher.next := none }) ..

theorem exec_positionRead (hs : s.Heads .positionRead h [BitVec.ofNat 8 d.val, 0, 0, 0] rest)
    (hst : (s.chip.decks.get d).seq.state = .ready ∨ (s.chip.decks.get d).seq.state = .streaming ∨ (s.chip.decks.get d).seq.state = .stopping)
    (hm : (s.chip.decks.get d).tape.media.isSome = true) (hp : (s.chip.decks.get d).profile.isSome = true) :
    exec (.positionRead h [BitVec.ofNat 8 d.val, 0, 0, 0]) s
      = .next (s.deckAnswered h rest d (s.chip.decks.get d) Stat.done (s.chip.positionBlock d)) := by
  have hb : s.chip.rangeBad .positionRead [BitVec.ofNat 8 d.val, 0, 0, 0] = false := by
    unfold Chip.rangeBad
    simp only [deckOf_cons, Bool.not_true]
  have h9 : s.chip.order9 .positionRead [BitVec.ofNat 8 d.val, 0, 0, 0] d = none := by
    unfold Chip.order9
    rcases hst with e | e | e <;> simp [DeckSeq.baseState, e]
  have h9b : s.chip.order9bcd .positionRead d = none := by
    obtain ⟨m, hm⟩ := Option.isSome_iff_exists.mp hm
    unfold Chip.order9bcd
    rw [if_neg (by simp)]
    refine firstFail_none ?_
    simp [hm, Op.writeSide]
  refine State.onChip_to ?_ rfl
  rw [hk.setting_effect hs (by decide) (deckOf_cons ..) rfl hb (fun e => nomatch e) (fun _ => hp) h9 h9b
    (Chip.deckBusy_setting (by decide) (by decide)) (fun e => nomatch e.1), ← State.started_positionBlock s h rest .positionRead d]
  exact hk.answers hs ..

end

/-- Settles O25: each of the five is in order for the holder, declares nothing but in the one case that waits, and ends with its effect. -/
theorem deckSettings : Obligations.DeckSettings := by
  intro s h rest d hk
  refine ⟨?_, ?_, ?_, ?_, ?_, ?_⟩
  · intro mask p hs h0 h16 hst
    refine ⟨fun hi => ⟨fun ht => ?_, exec_tripClear_already hk hs h0 h16 hst hi⟩, exec_tripClear_active hk hs h0 h16 hst⟩
    rw [exec_tripClear_clears hk hs h0 h16 hst hi ht, untrip_eq]
  · intro f fixed stall lo hi at_ p low high hs hst hp hstall _ hhi _ hlow horder hat hfree
    exact exec_speedPolicy hk hs hst hp ⟨hstall, hhi, hlow, horder, hat, hfree⟩
  · intro on p hs hl
    have he := exec_compressionSet hk hs hl
    exact ⟨fun e => by rwa [if_neg e] at he, fun e => by rwa [if_pos e] at he⟩
  · exact exec_compressionSet_raise hk
  · intro image p hs hi hst hop hq hr
    exact exec_profileLoad hk hs hi hst hop hq hr
  · exact exec_positionRead hk

end Sys2Proof.Machine
end

section
/-! SUPPORT. The 10 ms row of the power-up timeline with a packet open at an Ehran port (R74, R128, R475). -/

namespace Sys2Proof.Machine

/-- The chip before its 10 ms row with RESET# high, and a packet of eight bytes open at Ehran port 0, selected with En_FRM low, whose header
names a payload of 65,535 bytes. -/
def litOpenPacket : State :=
  { State.reset with
    chip.power := { Power.reset with valid := true, v3a := true, vioe := true }
    chip.ehran := Chip.reset.ehran.set 0 { EhranPort.reset with sel := true, rxOpen := true, rx := [0, 0, 0, 0, 0xFF, 0xFF, 0, 0] } }

/-- The 10 ms row ends the packet, and Sieve counts its refusal (R74, R128). -/
theorem litOpenPacket_refused : ((startupPhaseBeginEffect litOpenPacket.chip).sieve.get 0).refuse = 1 := by
  decide +kernel

/-- Refutes O32: STARTUP_PHASE_BEGIN lets each selected port take its pins' levels, and one that takes En_FRM low with a packet open ends the
packet, so that Sieve judges it and counts a refusal; the clause with RESET# high leaves Sieve as it was. No run from power-on reaches the row
with a packet open, but the statement is about every state and does not exclude one. -/
theorem not_powerUpTimeline : ¬ Obligations.PowerUpTimeline := by
  intro h
  obtain ⟨-, -, h, -⟩ := h litOpenPacket
  obtain ⟨-, -, h⟩ := h rfl rfl rfl rfl
  obtain ⟨kettle, ehran, spi, h⟩ := h rfl rfl
  have hs := congrArg State.chip (Host.Outcome.next.inj h)
  have hr : ((startupPhaseBeginEffect litOpenPacket.chip).sieve.get 0).refuse = 0 :=
    congrArg (fun c : Chip => (c.sieve.get 0).refuse) hs
  rw [litOpenPacket_refused] at hr
  exact absurd hr (by decide)

end Sys2Proof.Machine
end

section
/-! SUPPORT. What stops a deck from outside: the loss of HGREF, the holds and the banks (R52, R53, R357, R454, R455, R464, R522). -/

namespace Sys2Proof.Machine

/-! ### What one deck's stop leaves of the chip -/

/-- Deck e is the same in both chips, but for its lock's lease. -/
def Chip.SameDeck (e : Deck) (a b : Chip) : Prop := ∃ l, b.decks.get e = { a.decks.get e with lock := l }

theorem Chip.SameDeck.refl (e : Deck) (a : Chip) : a.SameDeck e a := ⟨(a.decks.get e).lock, rfl⟩

theorem Chip.SameDeck.trans {e : Deck} {a b c : Chip} (h : a.SameDeck e b) (g : b.SameDeck e c) : a.SameDeck e c := by
  obtain ⟨l, hl⟩ := h
  obtain ⟨m, hm⟩ := g
  exact ⟨m, by rw [hm, hl]⟩

/-- From chip a to chip b the timebase, the power and the holds stay. -/
structure Chip.KeepsTime (a b : Chip) : Prop where
  timebase : b.timebase = a.timebase
  power : b.power = a.power
  emergency : b.emergency = { a.emergency with mirror := b.emergency.mirror }

theorem Chip.KeepsTime.refl (a : Chip) : a.KeepsTime a := ⟨rfl, rfl, rfl⟩

theorem Chip.KeepsTime.trans {a b c : Chip} (h : a.KeepsTime b) (g : b.KeepsTime c) : a.KeepsTime c :=
  ⟨g.timebase.trans h.timebase, g.power.trans h.power, by rw [g.emergency, h.emergency]⟩

/-- Beside that every deck but d stays, but for its lock's lease. -/
structure Chip.StopsOne (d : Deck) (a b : Chip) : Prop where
  keeps : a.KeepsTime b
  other : ∀ e, e ≠ d → a.SameDeck e b

namespace Chip.StopsOne
variable {d : Deck} {a b c : Chip}

theorem refl (d : Deck) (a : Chip) : a.StopsOne d a := ⟨.refl a, fun e _ => .refl e a⟩

theorem trans (h : a.StopsOne d b) (g : b.StopsOne d c) : a.StopsOne d c :=
  ⟨h.keeps.trans g.keeps, fun e he => (h.other e he).trans (g.other e he)⟩

theorem modDeck (h : a.StopsOne d b) (f : DeckAll → DeckAll) : a.StopsOne d (b.modDeck d f) :=
  h.trans ⟨⟨rfl, rfl, rfl⟩, fun e he => ⟨(b.decks.get e).lock, vector_get_set_ne _ _ _ _ he⟩⟩

theorem ladleOnly (h : a.StopsOne d b) (g : b.LadleOnly c) : a.StopsOne d c := by
  obtain ⟨_, _, _, _, _, _, rfl⟩ := g
  exact h.trans ⟨⟨rfl, rfl, rfl⟩, fun e _ => .refl e b⟩

end Chip.StopsOne

/-- A decks' frame that holds of every deck. -/
theorem Chip.stopsOne_of {a b : Chip} (h : a.KeepsTime b) (g : ∀ e, a.SameDeck e b) (d : Deck) : a.StopsOne d b := ⟨h, fun e _ => g e⟩

theorem Chip.complete_keeps (ch : Chip) (i : Ctx) (tag : W16) (rcrc : Bool) (st : Stat) (payload : List Byte) :
    ch.KeepsTime (ch.complete i tag rcrc st payload) ∧ ∀ e, ch.SameDeck e (ch.complete i tag rcrc st payload) := by
  by_cases ho : (ch.ctxs.get i).state = .open
  · obtain ⟨ks, h, hk⟩ := Chip.restartLeases_frame ch i
    rw [Chip.complete_open ho, h]
    exact ⟨⟨rfl, rfl, rfl⟩, hk⟩
  · rw [Chip.complete_closed ho]
    exact ⟨.refl ch, fun e => .refl e ch⟩

theorem Chip.foldl_complete_keeps {α : Type} (i : α → Ctx) (tag : α → W16) (rcrc : α → Bool) (st : α → Stat) (xs : List α) (ch : Chip) :
    ch.KeepsTime (xs.foldl (fun c x => c.complete (i x) (tag x) (rcrc x) (st x) []) ch) ∧
      ∀ e, ch.SameDeck e (xs.foldl (fun c x => c.complete (i x) (tag x) (rcrc x) (st x) []) ch) := by
  induction xs generalizing ch with
  | nil => exact ⟨.refl ch, fun e => .refl e ch⟩
  | cons x xs ih =>
    obtain ⟨h1, h2⟩ := Chip.complete_keeps ch (i x) (tag x) (rcrc x) (st x) []
    obtain ⟨g1, g2⟩ := ih (ch.complete (i x) (tag x) (rcrc x) (st x) [])
    exact ⟨h1.trans g1, fun e => (h2 e).trans (g2 e)⟩

theorem Chip.post_decks (ch : Chip) (code : Byte) (sc : Scope) (unit : Nat) (object : W16) (arg : W32) :
    (ch.post code sc unit object arg).decks = ch.decks := by
  obtain ⟨es, m, ev, xs, h, -⟩ := ch.postAt_frame ch.now code sc unit object arg
  rw [Chip.post, h]

theorem Chip.post_keeps (ch : Chip) (code : Byte) (sc : Scope) (unit : Nat) (object : W16) (arg : W32) :
    ch.KeepsTime (ch.post code sc unit object arg) := by
  obtain ⟨es, m, ev, xs, h, -⟩ := ch.postAt_frame ch.now code sc unit object arg
  rw [Chip.post, h]
  exact ⟨rfl, rfl, rfl⟩

theorem Chip.StopsOne.postDeck {d : Deck} {a b : Chip} (h : a.StopsOne d b) (code : Byte) (unit : Nat) (arg : W32) :
    a.StopsOne d (b.postDeck d code unit arg) :=
  h.trans (Chip.stopsOne_of (b.post_keeps ..) (fun e => ⟨(b.decks.get e).lock, congrArg (fun v => v.get e) (b.post_decks ..)⟩) d)

/-! ### What ends with the stop (R181, R207, R357) -/

/-- The operation and its waiters gone. -/
def DeckAll.released (k : DeckAll) : DeckAll := k.modSeq (fun q => { q with op := none, waiters := [] })

theorem Chip.endOp_stops (ch : Chip) (d : Deck) (st : Stat) (payload : List Byte) :
    ch.StopsOne d (ch.endOp d st payload) ∧
      ∃ l, (ch.endOp d st payload).decks.get d = { (ch.decks.get d).modSeq (fun q => { q with op := none }) with lock := l } := by
  unfold Chip.endOp
  cases ho : (ch.decks.get d).seq.op with
  | none =>
    have hs : ({ (ch.decks.get d).seq with op := none } : DeckSeq) = (ch.decks.get d).seq := by rw [← ho]
    exact ⟨.refl d ch, (ch.decks.get d).lock, by rw [DeckAll.modSeq, hs]⟩
  | some o =>
    dsimp only
    have h := (Chip.StopsOne.refl d ch).modDeck (fun k => k.modSeq (fun q => { q with op := none }))
    have hk : (ch.modDeck d (fun k => k.modSeq (fun q => { q with op := none }))).decks.get d
        = (ch.decks.get d).modSeq (fun q => { q with op := none }) := vector_get_set_self ..
    split
    · exact ⟨h, (ch.decks.get d).lock, hk⟩
    · generalize (if o.op = .deckUnlock ∧ st = Stat.writeFailed then Stat.deckState else st) = st'
      obtain ⟨h1, h2⟩ := Chip.complete_keeps (ch.modDeck d (fun k => k.modSeq (fun q => { q with op := none }))) o.ctx o.tag o.rcrc st' payload
      obtain ⟨l, hl⟩ := h2 d
      exact ⟨h.trans (Chip.stopsOne_of h1 h2 d), l, by rw [hl, hk]⟩

theorem Chip.endWaiters_stops (ch : Chip) (d : Deck) (st : Stat) :
    ch.StopsOne d (ch.endWaiters d st) ∧
      ∃ l, (ch.endWaiters d st).decks.get d = { (ch.decks.get d).modSeq (fun q => { q with waiters := [] }) with lock := l } := by
  obtain ⟨h1, h2⟩ := Chip.foldl_complete_keeps (fun w : Waiter => w.ctx) (·.tag) (·.rcrc) (fun _ => st) (ch.decks.get d).seq.waiters
    (ch.modDeck d (fun k => k.modSeq (fun q => { q with waiters := [] })))
  obtain ⟨l, hl⟩ := h2 d
  refine ⟨((Chip.StopsOne.refl d ch).modDeck _).trans (Chip.stopsOne_of h1 h2 d), l, hl.trans ?_⟩
  rw [Chip.modDeck_decks, vector_get_set_self]

theorem Chip.haltEngines_stops (ch : Chip) (d : Deck) :
    ch.StopsOne d (ch.haltEngines d) ∧ (ch.haltEngines d).decks.get d = (ch.decks.get d).endReading.endWriting := by
  have h1 : (ch.modDeck d DeckAll.endReading).LadleOnly (ch.stopReading d) := Chip.releaseBlocks_ladleOnly ..
  have h2 : ((ch.stopReading d).modDeck d DeckAll.endWriting).LadleOnly (ch.haltEngines d) := Chip.releaseBlocks_ladleOnly ..
  refine ⟨((((Chip.StopsOne.refl d ch).modDeck _).ladleOnly h1).modDeck _).ladleOnly h2, ?_⟩
  rw [h2.decks, Chip.modDeck_decks, vector_get_set_self, h1.decks, Chip.modDeck_decks, vector_get_set_self]

/-! ### FAULT_STOP of a deck whose loops run (R454, R455) -/

/-- What the deck was about broken off: nothing runs, and writing ends with the piece in progress. -/
def DeckAll.brokenOff (k : DeckAll) (c : Cause) (cartOut : Bool) : DeckAll :=
  (k.released.endReading.endWriting.failTune.loseHome).modSeq (fun q =>
    { q with cause := c.code, cartOut := cartOut, rest := false, unloadAfter := false, stage := 0 })

/-- The deck in FAULT_STOP from then on, its axes in the modes they had (Table 17-1). -/
def DeckAll.intoStopPhase (k : DeckAll) (coast : Bool) : DeckAll :=
  ({ k.inState .faultStop with io := { (k.inState .faultStop).io with axes := k.io.axes } }).beginStopPhase coast

theorem DeckAll.brokenOff_seq (k : DeckAll) (c : Cause) (cartOut : Bool) : (k.brokenOff c cartOut).seq =
    { k.seq with op := none, waiters := [], cause := c.code, cartOut := cartOut, rest := false, unloadAfter := false, stage := 0 } := by
  unfold DeckAll.brokenOff DeckAll.loseHome
  split <;> rfl

theorem DeckAll.brokenOff_roller (k : DeckAll) (c : Cause) (cartOut : Bool) : (k.brokenOff c cartOut).roller = k.endWriting.roller := by
  unfold DeckAll.brokenOff DeckAll.loseHome
  split <;> rfl

theorem DeckAll.brokenOff_axes (k : DeckAll) (c : Cause) (cartOut : Bool) : (k.brokenOff c cartOut).io.axes = k.io.axes := by
  unfold DeckAll.brokenOff DeckAll.loseHome
  split <;> rfl

theorem DeckAll.beginStopPhase_seq (k : DeckAll) (coast : Bool) :
    (k.beginStopPhase coast).seq = { k.seq with capSpeed := 0, posTarget := k.io.posRaw - k.io.home.offset } := by
  cases coast <;> simp [DeckAll.beginStopPhase, DeckAll.modSeq]

theorem DeckAll.beginStopPhase_roller (k : DeckAll) (coast : Bool) : (k.beginStopPhase coast).roller = k.roller := by
  cases coast <;> simp [DeckAll.beginStopPhase, DeckAll.modSeq]

theorem DeckAll.beginStopPhase_tripIn (k : DeckAll) (coast : Bool) (a : Axis) :
    ((k.beginStopPhase coast).io.axes.get a).tripIn = (k.io.axes.get a).tripIn := by
  cases coast <;> simp [DeckAll.beginStopPhase, DeckAll.modSeq, AxisState.off]

theorem DeckAll.intoStopPhase_seq (k : DeckAll) (coast : Bool) :
    ∃ t, (k.intoStopPhase coast).seq = { k.seq with state := .faultStop, capSpeed := 0, posTarget := t } :=
  ⟨_, (DeckAll.beginStopPhase_seq ..).trans (by simp [DeckAll.inState, DeckAll.modSeq]; rfl)⟩

theorem DeckAll.intoStopPhase_roller (k : DeckAll) (coast : Bool) : (k.intoStopPhase coast).roller = k.roller :=
  (DeckAll.beginStopPhase_roller ..).trans (by simp [DeckAll.inState, DeckAll.modSeq])

/-- What the stop of a deck makes of it (R357, R454). -/
structure DeckAll.Stopped (k k1 : DeckAll) (cause : Byte) : Prop where
  state : k1.seq.state = .faultStop
  cause : k1.seq.cause = cause
  rest : k1.seq.rest = false
  op : k1.seq.op = none
  capSpeed : k1.seq.capSpeed = 0
  waiters : k1.seq.waiters = []
  stopAt : k1.roller.stopAt = k.roller.stopsAt
  gate : k1.roller.gate = k.roller.stopsAt.isSome
  tripIn : ∀ a, (k1.io.axes.get a).tripIn = (k.io.axes.get a).tripIn

theorem DeckAll.Stopped.facts {k k1 : DeckAll} {cause : Byte} (h : k.Stopped k1 cause) : k1.seq.state = .faultStop ∧ k1.seq.cause = cause ∧
    k1.seq.rest = false ∧ k1.seq.op = none ∧ k1.seq.capSpeed = 0 ∧ k1.seq.waiters = [] ∧ k1.roller.stopAt = k.roller.stopsAt ∧
    k1.roller.gate = k.roller.stopsAt.isSome :=
  ⟨h.state, h.cause, h.rest, h.op, h.capSpeed, h.waiters, h.stopAt, h.gate⟩

theorem DeckAll.brokenOff_stopped (k : DeckAll) (c : Cause) (cartOut coast : Bool) : k.Stopped ((k.brokenOff c cartOut).intoStopPhase coast) c.code := by
  obtain ⟨t, hs⟩ := (k.brokenOff c cartOut).intoStopPhase_seq coast
  rw [DeckAll.brokenOff_seq] at hs
  have hr := ((k.brokenOff c cartOut).intoStopPhase_roller coast).trans (k.brokenOff_roller c cartOut)
  exact {
    state := by rw [hs]
    cause := by rw [hs]
    rest := by rw [hs]
    op := by rw [hs]
    capSpeed := by rw [hs]
    waiters := by rw [hs]
    stopAt := by rw [hr]; rfl
    gate := by rw [hr]; rfl
    tripIn := fun a => (DeckAll.beginStopPhase_tripIn ..).trans (by rw [DeckAll.brokenOff_axes]) }

/-- A lease does not show in what a stop makes of a deck. -/
theorem DeckAll.Stopped.of_lease {k k1 : DeckAll} {l : DeckLock} {cause : Byte} (h : ({ k with lock := l } : DeckAll).Stopped k1 cause) :
    k.Stopped k1 cause := by
  obtain ⟨h1, h2, h3, h4, h5, h6, h7, h8, h9⟩ := h
  exact ⟨h1, h2, h3, h4, h5, h6, h7, h8, h9⟩

theorem DeckAll.Stopped.lease {k k1 : DeckAll} {cause : Byte} (h : k.Stopped k1 cause) (l : DeckLock) : k.Stopped { k1 with lock := l } cause := by
  obtain ⟨h1, h2, h3, h4, h5, h6, h7, h8, h9⟩ := h
  exact ⟨h1, h2, h3, h4, h5, h6, h7, h8, h9⟩

/-- A deck that moves: its loops run, neither in SAFE nor in FAULT_STOP. -/
abbrev DeckAll.Moves (k : DeckAll) : Prop := k.loops.running = true ∧ k.seq.state ≠ .safe ∧ k.seq.state ≠ .faultStop

/-- A deck in FAULT_STOP is not switched off (R469). -/
theorem Chip.applyHold_faultStop {ch : Chip} {d : Deck} (h : (ch.decks.get d).seq.state = .faultStop) : ch.applyHold d = ch := by
  refine if_neg fun ⟨_, hs, _⟩ => ?_
  rcases hs with e | e | e <;> rw [h] at e <;> cases e

/-- A moving deck enters FAULT_STOP. -/
theorem Chip.faultStop_moving {ch : Chip} {d : Deck} (hm : (ch.decks.get d).Moves) (c : Cause) (cartOut coast : Bool) :
    ch.StopsOne d (ch.faultStop d c cartOut coast) ∧ (ch.decks.get d).Stopped ((ch.faultStop d c cartOut coast).decks.get d) c.code := by
  obtain ⟨hr, h2, h1⟩ := hm
  obtain ⟨s1, l1, k1⟩ := ch.endOp_stops d c.ends []
  obtain ⟨s2, l2, k2⟩ := (ch.endOp d c.ends []).endWaiters_stops d c.ends
  obtain ⟨s3, k3⟩ := ((ch.endOp d c.ends []).endWaiters d c.ends).haltEngines_stops d
  have hk : (((ch.endOp d c.ends []).endWaiters d c.ends).haltEngines d).decks.get d
      = ({ ch.decks.get d with lock := l2 } : DeckAll).released.endReading.endWriting := by rw [k3, k2, k1]; rfl
  have s := (s1.trans s2).trans s3
  unfold Chip.faultStop
  dsimp only
  rw [if_neg h1, if_neg (not_not_intro hr), if_neg h2]
  generalize ((ch.endOp d c.ends []).endWaiters d c.ends).haltEngines d = c1 at s hk
  -- the deck, broken off, before DECK_FAULT_STOP is posted
  generalize hc2 : c1.modDeck d (fun k => (k.failTune.loseHome).modSeq (fun q =>
      { q with cause := c.code, cartOut := cartOut, rest := false, unloadAfter := false, stage := 0 })) = c2
  have s4 : ch.StopsOne d c2 := hc2 ▸ s.modDeck _
  have hk2 : c2.decks.get d = ({ ch.decks.get d with lock := l2 } : DeckAll).brokenOff c cartOut := by
    rw [← hc2, Chip.modDeck_decks, vector_get_set_self, hk]
    rfl
  have s5 := s4.postDeck Ev.faultStop (servoUnit d) (c.code.setWidth 32)
  have hk3 : (c2.postDeck d Ev.faultStop (servoUnit d) (c.code.setWidth 32)).decks.get d = _ := (congrArg (fun v => v.get d) (c2.post_decks ..)).trans hk2
  generalize c2.postDeck d Ev.faultStop (servoUnit d) (c.code.setWidth 32) = c3 at s5 hk3
  have hne : (c3.decks.get d).seq.state ≠ .faultStop := by rw [hk3, DeckAll.brokenOff_seq]; exact h1
  -- the change of state
  have s6 := (s5.modDeck (·.inState .faultStop)).postDeck Ev.deckState (servoUnit d) (BitVec.ofNat 32 DeckState.faultStop.code)
  have hk4 : ((c3.modDeck d (·.inState .faultStop)).postDeck d Ev.deckState (servoUnit d) (BitVec.ofNat 32 DeckState.faultStop.code)).decks.get d
      = (c3.decks.get d).inState .faultStop :=
    (congrArg (fun v => v.get d) (Chip.post_decks ..)).trans (vector_get_set_self ..)
  rw [Chip.setDeckState_ne hne, Chip.applyHold_faultStop (by rw [hk4]; simp [DeckAll.inState, DeckAll.modSeq])]
  refine ⟨s6.modDeck _, ?_⟩
  rw [Chip.modDeck_decks, vector_get_set_self, hk4, hk3]
  exact (DeckAll.brokenOff_stopped { ch.decks.get d with lock := l2 } c cartOut coast).of_lease

/-- Whatever the deck does, its stop leaves the rest as it was. -/
theorem Chip.faultStop_stops (ch : Chip) (d : Deck) (c : Cause) (cartOut coast : Bool) : ch.StopsOne d (ch.faultStop d c cartOut coast) := by
  by_cases hm : (ch.decks.get d).Moves
  · exact (Chip.faultStop_moving hm c cartOut coast).1
  · unfold Chip.faultStop
    dsimp only
    split
    · exact ((Chip.StopsOne.refl d ch).postDeck ..).modDeck _
    · split
      · exact .refl d ch
      · rw [if_pos (by_contra fun h2 => hm ⟨by simp_all, h2, by simp_all⟩)]
        exact (Chip.StopsOne.refl d ch).modDeck _

/-- A deck at rest, or in SAFE, keeps its state. -/
theorem Chip.faultStop_still {ch : Chip} {d : Deck} (h : (ch.decks.get d).loops.running = false ∨ (ch.decks.get d).seq.state = .safe) (c : Cause)
    (cartOut : Bool) : ((ch.faultStop d c cartOut false).decks.get d).seq.state = (ch.decks.get d).seq.state := by
  unfold Chip.faultStop
  dsimp only
  split
  · rw [Chip.modDeck_decks, vector_get_set_self]
    exact congrArg (fun v : Vector DeckAll 4 => (v.get d).seq.state) (Chip.post_decks ..)
  · split
    · rfl
    · rw [if_pos (h.resolve_left (by simp_all)), Chip.modDeck_decks, vector_get_set_self]
      rfl

/-! ### The decks in order -/

/-- Decks are dealt with one after another: the frame of the whole, and what each becomes. -/
theorem Chip.foldl_stops {f : Chip → Deck → Chip} (hf : ∀ (c : Chip) (d : Deck), c.StopsOne d (f c d)) {ds : List Deck} (hn : ds.Nodup) (a : Chip) :
    a.KeepsTime (ds.foldl f a) ∧ (∀ d, d ∉ ds → a.SameDeck d (ds.foldl f a)) ∧
      ∀ d ∈ ds, ∃ c, a.KeepsTime c ∧ a.SameDeck d c ∧ (f c d).SameDeck d (ds.foldl f a) := by
  induction ds generalizing a with
  | nil => exact ⟨.refl a, fun d _ => .refl d a, fun d h => nomatch h⟩
  | cons x xs ih =>
    obtain ⟨hx, hn'⟩ := List.nodup_cons.mp hn
    obtain ⟨h1, h2, h3⟩ := ih hn' (f a x)
    refine ⟨(hf a x).keeps.trans h1, fun d hd => ?_, fun d hd => ?_⟩
    · obtain ⟨hdx, hdxs⟩ := not_or.mp fun h => hd (List.mem_cons.mpr h)
      exact ((hf a x).other d hdx).trans (h2 d hdxs)
    · by_cases e : d = x
      · subst e
        exact ⟨a, .refl a, .refl d a, h2 d hx⟩
      · obtain ⟨c, hk, hs, hc⟩ := h3 d ((List.mem_cons.mp hd).resolve_left e)
        exact ⟨c, (hf a x).keeps.trans hk, ((hf a x).other d e).trans hs, hc⟩

theorem Chip.SameDeck.stopped {a b c e : Chip} {d : Deck} {cause : Byte} (h : a.SameDeck d b) (hs : (b.decks.get d).Stopped (c.decks.get d) cause)
    (g : c.SameDeck d e) : (a.decks.get d).Stopped (e.decks.get d) cause := by
  obtain ⟨l, hl⟩ := h
  obtain ⟨m, hm⟩ := g
  rw [hl] at hs
  rw [hm]
  exact hs.of_lease.lease m

theorem Chip.SameDeck.moves {a b : Chip} {d : Deck} (h : a.SameDeck d b) (hm : (a.decks.get d).Moves) : (b.decks.get d).Moves := by
  obtain ⟨l, hl⟩ := h
  rw [hl]
  exact hm

theorem Chip.SameDeck.state {a b : Chip} {d : Deck} (h : a.SameDeck d b) : (b.decks.get d).seq.state = (a.decks.get d).seq.state := by
  obtain ⟨l, hl⟩ := h
  rw [hl]

theorem allDecks_nodup : allDecks.Nodup := by decide

/-! ### REFERENCE_LOSS (R52, R53) -/

/-- Every deck meets the loss of the reference. -/
def Chip.stopForReference (ch : Chip) : Chip := allDecks.foldl (fun c d => c.faultStop d Cause.refLost false false) ch

theorem Chip.stopForReference_stops (ch : Chip) :
    ch.KeepsTime ch.stopForReference ∧ ∀ d, ∃ c, ch.SameDeck d c ∧ (c.faultStop d Cause.refLost false false).SameDeck d ch.stopForReference := by
  obtain ⟨h1, -, h3⟩ := Chip.foldl_stops (f := fun c d => c.faultStop d Cause.refLost false false) (fun c d => c.faultStop_stops d _ _ _)
    allDecks_nodup ch
  refine ⟨h1, fun d => ?_⟩
  obtain ⟨c, -, h⟩ := h3 d (mem_allDecks d)
  exact ⟨c, h⟩

theorem Chip.stopForReference_timebase (ch : Chip) : ch.stopForReference.timebase = ch.timebase :=
  ch.stopForReference_stops.1.timebase

theorem Chip.stopForReference_moving (ch : Chip) {d : Deck} (hm : (ch.decks.get d).Moves) :
    (ch.decks.get d).Stopped (ch.stopForReference.decks.get d) 0x08 := by
  obtain ⟨c, hs, hc⟩ := ch.stopForReference_stops.2 d
  exact hs.stopped (Chip.faultStop_moving (hs.moves hm) Cause.refLost false false).2 hc

theorem Chip.stopForReference_still (ch : Chip) {d : Deck} (h : (ch.decks.get d).loops.running = false ∨ (ch.decks.get d).seq.state = .safe) :
    (ch.stopForReference.decks.get d).seq.state = (ch.decks.get d).seq.state := by
  obtain ⟨c, hs, hc⟩ := ch.stopForReference_stops.2 d
  have hstill : (c.decks.get d).loops.running = false ∨ (c.decks.get d).seq.state = .safe := by
    obtain ⟨l, hl⟩ := hs
    rw [hl]
    exact h
  exact hc.state.trans ((Chip.faultStop_still hstill ..).trans hs.state)

/-- The timebase in FREE_RUN from now on (R52). -/
def Timebase.lost (t : Timebase) (now : W64) : Timebase :=
  { t with refState := .freeRun, wasFree := true, lossCount := sat8 (t.lossCount.toNat + 1), lossTime := now, central := t.central.lose,
           decks := t.decks.map Lines.lose }

theorem Timebase.lost_eq (t : Timebase) (now : W64) : t.lost now = { t with
    refState := .freeRun, wasFree := true, lossTime := now
    central := { t.central with next := none, valid := false, shadowBusy := false, again := false }
    decks := t.decks.map fun l : Lines => { l with next := none, valid := false, shadowBusy := false, again := false }
    lossCount := if t.lossCount = 255 then 255 else t.lossCount + 1 } := by
  rw [Timebase.lost, sat8_succ]
  rfl

/-- The loss is told to the log and to every lock's holder, and a recalibration of Kettle ends. -/
theorem referenceLossEffect_onRef {ch : Chip} (h : ch.timebase.onRef = true) : ∃ c : Chip, referenceLossEffect ch = c.stopForReference ∧
    c.decks = ch.decks ∧ c.timebase = ch.timebase.lost ch.now := by
  have he : referenceLossEffect ch = Chip.stopForReference ((((ch.modTb (·.lost ch.now)).logFault 0x31 149 0
      ((ch.timebase.lost ch.now).lossCount.setWidth 32) 0 0).post Ev.refLost .locks 149 0 0).modKettle (fun k =>
        if k.recal then { k with recal := false, settling := false } else k)) := if_neg (not_not_intro h)
  obtain ⟨es, m, hr, -⟩ := (ch.modTb (·.lost ch.now)).report_frame 2 0x31 149 0 0xFF ((ch.timebase.lost ch.now).lossCount.setWidth 32) 0 0
  refine ⟨_, he, (Chip.post_decks ..).trans ?_, (Chip.post_keeps ..).timebase.trans ?_⟩
  · exact (congrArg Chip.decks hr).trans rfl
  · exact (congrArg Chip.timebase hr).trans rfl

/-! ### Holds and banks (R464, R522) -/

theorem Chip.emergencyStop_stops (ch : Chip) (d : Deck) : ch.StopsOne d (ch.emergencyStop d) :=
  ((Chip.StopsOne.refl d ch).postDeck ..).trans (Chip.faultStop_stops ..)

theorem Chip.emergencyStop_moving {ch : Chip} {d : Deck} (hm : (ch.decks.get d).Moves) :
    (ch.decks.get d).Stopped ((ch.emergencyStop d).decks.get d) 0 := by
  have hk : (ch.postDeck d Ev.deckEmergency 155 0).decks.get d = ch.decks.get d := congrArg (fun v => v.get d) (ch.post_decks ..)
  have h := Chip.faultStop_moving (ch := ch.postDeck d Ev.deckEmergency 155 0) (d := d) (by rw [hk]; exact hm) Cause.other false
    (ch.emergency.coast.getLsbD d.val)
  rw [hk] at h
  exact h.2

theorem Chip.stopNewlyHeld_stops (ch : Chip) (before : Deck → Bool) (c : Chip) (d : Deck) :
    c.StopsOne d (if !before d && ch.deckHeld d then c.emergencyStop d else c) := by
  split
  · exact c.emergencyStop_stops d
  · exact .refl d c

theorem Chip.stopNewlyHeld_keeps (ch : Chip) (before : Deck → Bool) : ch.KeepsTime (ch.stopNewlyHeld before) :=
  (Chip.foldl_stops (ch.stopNewlyHeld_stops before) allDecks_nodup ch).1

theorem Chip.stopNewlyHeld_holds (ch : Chip) (before : Deck → Bool) : (ch.stopNewlyHeld before).emergency.hold = ch.emergency.hold ∧
    (ch.stopNewlyHeld before).emergency.coast = ch.emergency.coast ∧ (ch.stopNewlyHeld before).emergency.thermal = ch.emergency.thermal := by
  rw [(ch.stopNewlyHeld_keeps before).emergency]
  exact ⟨rfl, rfl, rfl⟩

theorem Chip.stopNewlyHeld_moving {ch : Chip} {before : Deck → Bool} {d : Deck} (hb : before d = false) (hh : ch.deckHeld d = true)
    (hm : (ch.decks.get d).Moves) : (ch.decks.get d).Stopped ((ch.stopNewlyHeld before).decks.get d) 0 := by
  obtain ⟨c, -, hs, hc⟩ := (Chip.foldl_stops (ch.stopNewlyHeld_stops before) allDecks_nodup ch).2.2 d (mem_allDecks d)
  rw [if_pos (by rw [hb, hh]; rfl)] at hc
  exact hs.stopped (Chip.emergencyStop_moving (hs.moves hm)) hc

theorem Chip.stopNewlyHeld_none {ch : Chip} {before : Deck → Bool} (h : ∀ d, ch.deckHeld d = true → before d = true) : ch.stopNewlyHeld before = ch :=
  foldl_fixed_of_mem fun d _ => if_neg (by
    intro e
    simp only [Bool.and_eq_true, Bool.not_eq_true'] at e
    exact Bool.false_ne_true (e.1.symm.trans (h d e.2)))

/-- The chip with other hold and coast bits, which the log may tell of. -/
def Chip.heldBy (ch : Chip) (hold coast : BitVec 4) (log : FaultLog) : Chip :=
  { ch with emergency := { ch.emergency with hold := hold, coast := coast }, log := log }

theorem Chip.heldBy_deckHeld (ch : Chip) (hold coast : BitVec 4) (log : FaultLog) (d : Deck) :
    (ch.heldBy hold coast log).deckHeld d = (hold.getLsbD d.val || (ch.emergency.thermal ||| ch.emergency.jtag).getLsbD d.val || !ch.power.viod.get d) := by
  simp only [Chip.deckHeld, Chip.heldBy, BitVec.or_assoc, BitVec.getLsbD_or]

/-- A change of the holds is told to the log, and nothing else comes before the stops. -/
theorem emergencyHoldEffect_eq {ch : Chip} (hv : ch.power.valid = true) (hold coast : BitVec 4) :
    ∃ log, emergencyHoldEffect hold coast ch = (ch.heldBy hold coast log).stopNewlyHeld ch.deckHeld := by
  unfold emergencyHoldEffect Chip.changeHolds
  dsimp only
  split
  · exact ⟨ch.log, rfl⟩
  · exact ⟨_, congrArg (fun c : Chip => c.stopNewlyHeld ch.deckHeld)
      (State.report_plain (s := ⟨[], ch.heldBy hold coast ch.log⟩) hv (by decide) 2 0x61 155 0xFF _ 0 0)⟩

/-- A deck that the new bits hold and that nothing held before is stopped. -/
theorem Chip.heldBy_stops {ch : Chip} {d : Deck} {hold : BitVec 4} (hd : ch.deckHeld d = false) (hb : hold.getLsbD d.val = true)
    (hm : (ch.decks.get d).Moves) (coast : BitVec 4) (log : FaultLog) :
    (ch.decks.get d).Stopped (((ch.heldBy hold coast log).stopNewlyHeld ch.deckHeld).decks.get d) 0 :=
  Chip.stopNewlyHeld_moving (ch := ch.heldBy hold coast log) hd (by rw [Chip.heldBy_deckHeld, hb]; rfl) hm

theorem Chip.heldBy_none {ch : Chip} {hold : BitVec 4} (h : ∀ d : Deck, hold.getLsbD d.val = true → ch.deckHeld d = true) (coast : BitVec 4)
    (log : FaultLog) : (ch.heldBy hold coast log).stopNewlyHeld ch.deckHeld = ch.heldBy hold coast log := by
  refine Chip.stopNewlyHeld_none fun d hd => ?_
  rw [Chip.heldBy_deckHeld, Bool.or_assoc, Bool.or_eq_true] at hd
  rcases hd with hd | hd
  · exact h d hd
  · rw [Chip.deckHeld, BitVec.or_assoc, BitVec.getLsbD_or, Bool.or_assoc, hd, Bool.or_true]

/-- The chip with the bank of deck d failed. -/
def Chip.bankLost (ch : Chip) (d : Deck) : Chip :=
  ({ ch with power.viod := ch.power.viod.set d false } : Chip).modDeck d (fun k =>
    { k with io.axes := k.io.axes.map (fun x => { x with tripIn := false }) })

theorem Chip.bankLost_get (ch : Chip) (d : Deck) : (ch.bankLost d).decks.get d =
    { ch.decks.get d with io.axes := (ch.decks.get d).io.axes.map (fun x => { x with tripIn := false }) } := vector_get_set_self ..

/-- A VIOD bank that fails: its deck is held, and its trip inputs read inactive. -/
theorem vioBankChange_deck {ch : Chip} (hv : ch.power.valid = true) (d : Deck) :
    vioBankChangeEffect ⟨d.val + 1, by omega⟩ false ch = (ch.bankLost d).stopNewlyHeld ch.deckHeld := by
  have hd : (Fin.ofNat 4 (d.val + 1 - 1) : Deck) = d := Fin.ext (by simp)
  unfold vioBankChangeEffect
  dsimp only
  rw [if_neg (by omega), if_neg (by omega)]
  simp only [hd]
  rw [if_pos (by exact hv)]
  rfl

theorem Chip.bankLost_held (ch : Chip) (d : Deck) : (ch.bankLost d).deckHeld d = true := by
  simp [Chip.deckHeld, Chip.bankLost]

/-- A moving deck that nothing held stops with its bank, and none of its trip inputs reads active. -/
theorem Chip.bankLost_stops {ch : Chip} {d : Deck} (hd : ch.deckHeld d = false) (hm : (ch.decks.get d).Moves) :
    ({ ch.decks.get d with io.axes := (ch.decks.get d).io.axes.map (fun x => { x with tripIn := false }) } : DeckAll).Stopped
      (((ch.bankLost d).stopNewlyHeld ch.deckHeld).decks.get d) 0 := by
  have h := Chip.stopNewlyHeld_moving (ch := ch.bankLost d) hd (ch.bankLost_held d) (by rw [Chip.bankLost_get]; exact hm)
  rwa [Chip.bankLost_get] at h

/-! ### The commands -/

theorem exec_referenceLoss {s : State} (hr : s.OnRef) : ∃ u, exec .referenceLoss s = .next u ∧ u.pending = s.pending ∧
    u.chip.timebase = s.chip.timebase.lost s.chip.now ∧
    (∀ d, (s.chip.decks.get d).Moves → (s.chip.decks.get d).Stopped (u.chip.decks.get d) 0x08) ∧
    ∀ d, (s.chip.decks.get d).loops.running = false ∨ (s.chip.decks.get d).seq.state = .safe →
      (u.chip.decks.get d).seq.state = (s.chip.decks.get d).seq.state := by
  obtain ⟨c, he, hdk, ht⟩ := referenceLossEffect_onRef (onRef_of hr)
  have hx : exec .referenceLoss s = .next { s with chip := c.stopForReference } := State.onChip_eq he
  rw [← hdk]
  refine ⟨_, hx, rfl, c.stopForReference_timebase.trans ht, fun d hm => c.stopForReference_moving hm, ?_⟩
  dsimp only
  exact fun d h => c.stopForReference_still h

theorem exec_emergencyHold {s : State} (hv : s.chip.power.valid = true) (hr : s.Reached) (hold coast : BitVec 4) :
    ∃ log, exec (.emergencyHold hold coast) s = .next { s with chip := (s.chip.heldBy hold coast log).stopNewlyHeld s.chip.deckHeld } := by
  obtain ⟨log, he⟩ := emergencyHoldEffect_eq hv hold coast
  exact ⟨log, (State.onRegister_reached hr (emergencyHoldEffect hold coast)).trans (congrArg (fun c => Host.Outcome.next { s with chip := c }) he)⟩

theorem exec_vioBank_fails {s : State} (hv : s.chip.power.valid = true) {d : Deck} (hd : s.chip.deckHeld d = false) (hm : (s.chip.decks.get d).Moves) :
    ∃ u, exec (.vioBankChange ⟨d.val + 1, by omega⟩ false) s = .next u ∧ u.chip.power.viod = s.chip.power.viod.set d false ∧
      ({ s.chip.decks.get d with io.axes := (s.chip.decks.get d).io.axes.map (fun x => { x with tripIn := false }) } : DeckAll).Stopped
        (u.chip.decks.get d) 0 :=
  ⟨{ s with chip := (s.chip.bankLost d).stopNewlyHeld s.chip.deckHeld }, State.onChip_eq (f := vioBankChangeEffect _ false) (vioBankChange_deck hv d),
    congrArg Power.viod (Chip.stopNewlyHeld_keeps ..).power, Chip.bankLost_stops hd hm⟩

/-- Settles O34: each of the three comes to the stop of the decks that move, one after another; the stop of one leaves the timebase, the holds,
the power and the other decks as they were, and of its own deck it leaves writing to the end of the piece in progress. -/
theorem stopsFromOutside : Obligations.StopsFromOutside := by
  intro s hv
  refine ⟨fun hr => ?_, fun hr hold coast => ?_, fun d hd hm => ?_⟩
  · obtain ⟨u, he, hp, ht, hm, hs⟩ := exec_referenceLoss hr
    exact ⟨u, he, hp, ht.trans (Timebase.lost_eq ..), fun d => ⟨fun h => (hm d h).facts, hs d⟩⟩
  · obtain ⟨log, he⟩ := exec_emergencyHold hv hr hold coast
    obtain ⟨h1, h2, h3⟩ := (s.chip.heldBy hold coast log).stopNewlyHeld_holds s.chip.deckHeld
    refine ⟨_, he, h1, h2, h3, fun d hd hb hm => (Chip.heldBy_stops hd hb hm coast log).facts, fun h => ⟨log, ?_⟩⟩
    exact congrArg (fun c : Chip => ({ s with chip := c } : State)) (Chip.heldBy_none h coast log)
  · obtain ⟨u, he, hp, h⟩ := exec_vioBank_fails hv hd hm
    refine ⟨u, he, hp, h.facts, fun a => (h.tripIn a).trans ?_⟩
    simp

end Sys2Proof.Machine
end

section
/-! SUPPORT. The write link: the start of a dataset, the bursts of its cells, and late frames (R350–R357). -/

namespace Sys2Proof.Machine

/-- A command with a fine part acts on the chip that is stamped with it. -/
theorem State.onChipAt_stamped (s : State) (fine : BitVec 11) (f : Chip → Chip) :
    s.onChipAt fine f = ({ s with chip := s.chip.stamp fine } : State).onChip f := rfl

theorem Chip.modDeck_congr {ch : Chip} {d : Deck} {f g : DeckAll → DeckAll} (h : f (ch.decks.get d) = g (ch.decks.get d)) : ch.modDeck d f = ch.modDeck d g :=
  congrArg (fun k => { ch with decks := ch.decks.set d k }) h

theorem DeckAll.adoptPolicy_none {k : DeckAll} (h : k.matcher.next = none) : k.adoptPolicy = k := by
  unfold DeckAll.adoptPolicy
  simp only [h]

theorem DeckAll.boundary_data {ds : Dataset} (hk : ds.kind = .data) {k : DeckAll} (h : k.matcher.next = none) :
    DeckAll.boundary ds k = { k with matcher.fills := k.matcher.fills ++ [k.roller.fill] } := by
  rw [DeckAll.boundary, DeckAll.adoptPolicy_none h, if_pos hk]

theorem DeckAll.boundary_label {ds : Dataset} (hk : ds.kind = .label) {k : DeckAll} (h : k.matcher.next = none) : DeckAll.boundary ds k = k := by
  rw [DeckAll.boundary, DeckAll.adoptPolicy_none h, if_neg (by rw [hk]; decide)]

/-- The erase pattern of all tracks and of none, two cells each (Table 13-7). -/
theorem eraseBurst_eq (n m : Nat) : eraseBurst n m = if m % 4 < 2 then BitVec.ofNat 16 (2 ^ n - 1) else 0 := by
  simp only [eraseBurst, eraseCell, decide_eq_true_eq]

/-! ### DATASET_START (R350, R351) -/

/-- Roller with the preamble of its first buffer's dataset begun at place x of wrap w. -/
def Roller.begun (r : Roller) (b : DsBuf) (bs : List DsBuf) (w : BitVec 6) (x : Int) (now : W64) : Roller :=
  { r with
    gate := true, skipping := false, boundary := 0, lastCell := now, spoiled := [], eraseFrom := none
    nextP0 := if b.ds.kind = .label then r.nextP0 else none
    buffers := { b with started := true, p0 := x, ds := { b.ds with wrap := w } } :: bs }

/-- The deck with the dataset of its first buffer begun (R208, R316, R350). -/
def DeckAll.begins (k : DeckAll) (b : DsBuf) (bs : List DsBuf) (p : Profile) (l : Label) (now : W64) : DeckAll :=
  let past := decide (b.ds.kind = .data) && k.pastEw p l
  DeckAll.boundary b.ds { k with
    tape := { (if b.ds.partition = k.tape.partition ∨ b.ds.kind = .label then k.tape else k.tape.enter b.ds.partition (k.wrapFor b.ds)) with
      marker := k.tape.marker || decide (b.ds.kind = .data)
      beyondEw := if b.ds.kind = .data then past else k.tape.beyondEw, ewPosted := if b.ds.kind = .data then past else k.tape.ewPosted
      incomplete := if b.ds.kind = .label then k.tape.incomplete else k.tape.incomplete.setIfInBounds b.ds.partition.toNat false }
    roller := k.roller.begun b bs (k.wrapFor b.ds) (k.startOf p l b now) now
    strainer := { k.strainer with dataset := b.ds.number.setWidth 32 }
    matcher := { k.matcher with underrun := false } }

/-- A data dataset before early warning: the marker is owed, and its boundary entry goes to the speed matcher (R208, R380). -/
theorem DeckAll.begins_data {k : DeckAll} {b : DsBuf} {p : Profile} {l : Label} (hn : k.matcher.next = none) (hk : b.ds.kind = .data)
    (hpart : b.ds.partition = k.tape.partition) (hew : k.pastEw p l = false) (bs : List DsBuf) (now : W64) :
    k.begins b bs p l now = { k with
      roller := k.roller.begun b bs (k.wrapFor b.ds) (k.startOf p l b now) now
      tape := { k.tape with marker := true, beyondEw := false, ewPosted := false
                            incomplete := k.tape.incomplete.setIfInBounds k.tape.partition.toNat false }
      strainer := { k.strainer with dataset := b.ds.number.setWidth 32 }
      matcher := { k.matcher with
        underrun := false, fills := k.matcher.fills ++ [(k.roller.begun b bs (k.wrapFor b.ds) (k.startOf p l b now) now).fill] } } := by
  unfold DeckAll.begins
  dsimp only
  rw [DeckAll.boundary_data hk (by exact hn)]
  simp [hk, hpart, hew]

/-- The label of a tape. -/
theorem DeckAll.begins_label {k : DeckAll} {b : DsBuf} (hn : k.matcher.next = none) (hk : b.ds.kind = .label) (bs : List DsBuf) (p : Profile)
    (l : Label) (now : W64) : k.begins b bs p l now = { k with
      roller := k.roller.begun b bs (k.wrapFor b.ds) (k.startOf p l b now) now
      strainer := { k.strainer with dataset := b.ds.number.setWidth 32 }
      matcher := { k.matcher with underrun := false } } := by
  unfold DeckAll.begins
  dsimp only
  rw [DeckAll.boundary_label hk (by exact hn)]
  simp [hk]

section
variable {ch : Chip} {d : Deck} {b : DsBuf} {bs : List DsBuf} {p : Profile} {l : Label} (hb : (ch.decks.get d).roller.buffers = b :: bs)
  (hp : (ch.decks.get d).profile = some p) (hl : (ch.decks.get d).tape.label = some l)
include hb hp hl

/-- A dataset that has started, a deck that is not on course, and a Roller that may not write start nothing. -/
theorem datasetStartEffect_idle (h : b.started = true ∨ (ch.decks.get d).seq.state ≠ .streaming ∨
      (ch.decks.get d).onCourse ((ch.decks.get d).wrapFor b.ds) = false ∨ ch.domOn (50 + 6 * d.val) = false ∨
      (ch.decks.get d).roller.eodFailed = true ∨ (ch.decks.get d).roller.stopAt.isSome = true) : datasetStartEffect d ch = ch := by
  unfold datasetStartEffect
  simp only [hb, hp, hl]
  refine if_pos ?_
  rw [engineUnit_roller]
  simp only [Bool.not_eq_true]
  tauto

section
variable (hnew : b.started = false) (hst : (ch.decks.get d).seq.state = .streaming)
  (hcourse : (ch.decks.get d).onCourse ((ch.decks.get d).wrapFor b.ds) = true) (hon : ch.domOn (50 + 6 * d.val) = true)
  (heod : (ch.decks.get d).roller.eodFailed = false) (hstop : (ch.decks.get d).roller.stopAt = none)
  (hfits : b.ds.fits p l ((ch.decks.get d).wrapFor b.ds) ((ch.decks.get d).startOf p l b ch.now) = true)
include hnew hst hcourse hon heod hstop hfits

/-- One that may start does, and tells of early warning when it lies behind it (R208). -/
theorem datasetStartEffect_begins :
    datasetStartEffect d ch = (if (decide (b.ds.kind = .data) && (ch.decks.get d).pastEw p l) = true ∧ ¬ (ch.decks.get d).tape.ewPosted = true then
      (ch.modDeck d (fun k => k.begins b bs p l ch.now)).postDeck d Ev.earlyWarning (engineUnit d 2) (((ch.decks.get d).wrapFor b.ds).setWidth 32)
    else ch.modDeck d (fun k => k.begins b bs p l ch.now)) := by
  have hm : ∀ f : DeckAll → DeckAll, f (ch.decks.get d) = (ch.decks.get d).begins b bs p l ch.now →
      ch.modDeck d f = ch.modDeck d (fun k => k.begins b bs p l ch.now) := fun f h => Chip.modDeck_congr h
  unfold datasetStartEffect
  simp only [hb, hp, hl]
  rw [if_neg (by simp [hnew, hst, hcourse, heod, hstop, engineUnit_roller, hon]), if_neg (by simp [hfits]), hm _ ?_]
  rw [DeckAll.begins, Roller.begun, hb]
  rfl

end
end

/-! ### Bursts (R350, R354, R357) -/

theorem Chip.modRoller_get (ch : Chip) (d : Deck) (f : Roller → Roller) :
    (ch.modRoller d f).decks.get d = { ch.decks.get d with roller := f (ch.decks.get d).roller } := vector_get_set_self ..

/-- Roller with one more burst out. -/
def Roller.bursts (r : Roller) (wl : W16) (at_ : W64) : Roller := { r with wl := wl, boundary := r.boundary + 1, lastCell := at_ }

/-- A burst that does not end the last piece. -/
theorem Chip.burstOut_on {ch : Chip} {d : Deck} (h : (ch.decks.get d).roller.stopAt = none ∨
      ∃ e, (ch.decks.get d).roller.stopAt = some e ∧ (ch.decks.get d).roller.boundary + 1 < e) (wl : W16) (at_ : W64) :
    ch.burstOut d wl at_ = ch.modRoller d (·.bursts wl at_) := by
  unfold Chip.burstOut
  refine if_neg ?_
  rw [Chip.modRoller_get]
  rcases h with h | ⟨e, h, he⟩
  · simp [h]
  · simp [h, he]

/-- The burst that ends it turns the gate off. -/
theorem Chip.burstOut_off {ch : Chip} {d : Deck} {e : Nat} (h : (ch.decks.get d).roller.stopAt = some e)
    (he : e ≤ (ch.decks.get d).roller.boundary + 1) (wl : W16) (at_ : W64) :
    ((ch.burstOut d wl at_).decks.get d).roller.gate = false ∧ ((ch.burstOut d wl at_).decks.get d).roller.stopAt = none ∧
      ((ch.burstOut d wl at_).decks.get d).roller.buffers = [] := by
  have hb : ch.burstOut d wl at_ = (ch.modRoller d (·.bursts wl at_)).gateOff d := by
    refine if_pos ?_
    rw [Chip.modRoller_get]
    simp [h, he]
  have hg : (ch.modRoller d (·.bursts wl at_)).gateOff d = _ := if_pos (by rw [Chip.modRoller_get]; simp [Roller.bursts, h])
  have hl := Chip.releaseBlocks_ladleOnly ((ch.modRoller d (·.bursts wl at_)).modDeck d (fun k => { k with
    roller := { k.roller with gate := false, stopAt := none, buffers := [], tail := none, wl := 0 } })) (rollerOwner d)
    (minus ((ch.modRoller d (·.bursts wl at_)).decks.get d).roller.blocksUsed (((ch.modRoller d (·.bursts wl at_)).modDeck d (fun k => { k with
      roller := { k.roller with gate := false, stopAt := none, buffers := [], tail := none, wl := 0 } })).decks.get d).standing)
  rw [hb, hg]
  unfold Chip.dropBuffer
  rw [hl.decks, Chip.modDeck_decks, vector_get_set_self]
  exact ⟨rfl, rfl, rfl⟩

/-! ### Late frames (R356) -/

/-- What judging copies BAD does to a buffer: copies stop waiting, and their pieces have been BAD from then on. -/
structure DsBuf.WornTo (b c : DsBuf) : Prop where
  started : c.started = b.started
  settled : c.settled = b.settled
  waiting : ∀ y ∈ c.waiting, y ∈ b.waiting
  everBad : ∀ y ∈ b.everBad, y ∈ c.everBad
  judged : ∀ y ∈ b.waiting, y ∈ c.waiting ∨ y.1 ∈ c.everBad

theorem DsBuf.WornTo.refl (b : DsBuf) : b.WornTo b := ⟨rfl, rfl, fun _ h => h, fun _ h => h, fun _ h => .inl h⟩

theorem DsBuf.WornTo.trans {a b c : DsBuf} (h : a.WornTo b) (g : b.WornTo c) : a.WornTo c where
  started := g.started.trans h.started
  settled := g.settled.trans h.settled
  waiting y hy := h.waiting y (g.waiting y hy)
  everBad y hy := g.everBad y (h.everBad y hy)
  judged y hy := (h.judged y hy).elim (g.judged y) fun hb => .inr (g.everBad _ hb)

theorem DsBuf.judge_bad (b : DsBuf) (piece : Nat × Nat) (copy : Nat) :
    b.WornTo (b.judge piece copy false) ∧ (piece, copy) ∉ (b.judge piece copy false).waiting := by
  have hw : (b.judge piece copy false).waiting = b.waiting.filter (· ≠ (piece, copy)) := rfl
  have he : ∀ y, y ∈ (b.judge piece copy false).everBad ↔ y ∈ b.everBad ∨ y = piece := by
    intro y
    show y ∈ (if b.everBad.contains piece then b.everBad else b.everBad ++ [piece]) ↔ _
    split
    · next h => exact ⟨.inl, fun hy => hy.elim id fun e => by simpa [e] using h⟩
    · simp
  refine ⟨⟨rfl, rfl, fun y hy => ?_, fun y hy => (he y).mpr (.inl hy), fun y hy => ?_⟩, ?_⟩
  · rw [hw] at hy
    exact List.mem_of_mem_filter hy
  · by_cases e : y = (piece, copy)
    · exact .inr ((he _).mpr (.inr (by rw [e])))
    · exact .inl (by rw [hw]; simp [hy, e])
  · rw [hw]
    simp

theorem Chip.judged_bad {ch : Chip} {d : Deck} {b : DsBuf} {bs : List DsBuf} (hb : (ch.decks.get d).roller.buffers = b :: bs) (hs : b.started = true)
    (ht : (ch.decks.get d).roller.tail = none) (hn : b.settled.length < 800) (x : (Nat × Nat) × Nat) :
    ∃ c, ((ch.judged d x.1 x.2 false).decks.get d).roller = { (ch.decks.get d).roller with buffers := c :: bs } ∧ b.WornTo c ∧ x ∉ c.waiting := by
  have hh : (ch.decks.get d).roller.head = some b := by simp [Roller.head, hb, hs]
  unfold Chip.judged
  simp only [ht, hh]
  rw [if_neg (by simp)]
  by_cases hw : x ∈ b.waiting
  · rw [if_neg (by simpa using hw), if_neg (fun h => by have := h.1; rw [(DsBuf.judge_bad b x.1 x.2).1.settled] at this; omega)]
    refine ⟨b.judge x.1 x.2 false, ?_, DsBuf.judge_bad b x.1 x.2⟩
    rw [Chip.modRoller_get, Chip.modDeck_decks, vector_get_set_self]
    simp [Roller.modHead, hb, hs, ht]
  · rw [if_pos (by simpa using hw)]
    exact ⟨b, by rw [← hb, ← ht], .refl b, hw⟩

/-- Every copy of a list judged BAD. -/
theorem Chip.foldl_judged_bad (xs : List ((Nat × Nat) × Nat)) {ch : Chip} {d : Deck} {b : DsBuf} {bs : List DsBuf}
    (hb : (ch.decks.get d).roller.buffers = b :: bs) (hs : b.started = true) (ht : (ch.decks.get d).roller.tail = none) (hn : b.settled.length < 800) :
    ∃ c, ((xs.foldl (fun c x => c.judged d x.1 x.2 false) ch).decks.get d).roller = { (ch.decks.get d).roller with buffers := c :: bs } ∧
      b.WornTo c ∧ ∀ x ∈ xs, x ∉ c.waiting := by
  induction xs generalizing ch b with
  | nil => exact ⟨b, by rw [← hb]; rfl, .refl b, fun x h => nomatch h⟩
  | cons x xs ih =>
    obtain ⟨b1, h1, hw1, hx⟩ := Chip.judged_bad hb hs ht hn x
    obtain ⟨c, h2, hw2, hxs⟩ := ih (ch := ch.judged d x.1 x.2 false) (b := b1) (by rw [h1]) (hw1.started.trans hs) (by rw [h1]; exact ht)
      (by rw [hw1.settled]; exact hn)
    refine ⟨c, h2.trans (by rw [h1]), hw1.trans hw2, fun y hy => ?_⟩
    rcases List.mem_cons.mp hy with rfl | hy
    · exact fun hc => hx (hw2.waiting y hc)
    · exact hxs y hy

/-- An overrun changes Kettle and the log alone. -/
theorem State.overrun_frame (s : State) (n : Nat) : ∃ kettle, s.chip.overrun n = { s.chip with
      kettle := kettle
      log := if s.chip.power.valid then s.logged 2 0x30 n 0 0xFF ((satInc16 s.chip.kettle.overruns).setWidth 32) 0 0 else s.chip.log } ∧
    kettle.overruns = satInc16 s.chip.kettle.overruns ∧ kettle.overSite = BitVec.ofNat 8 n ∧ kettle.decks = s.chip.kettle.decks := by
  have hlog : (s.chip.modKettle (Kettle.overran n)).logFault 0x30 n 0 ((s.chip.modKettle (Kettle.overran n)).kettle.overruns.setWidth 32) 0 0
      = { s.chip with
          kettle := Kettle.overran n s.chip.kettle
          log := if s.chip.power.valid then s.logged 2 0x30 n 0 0xFF ((satInc16 s.chip.kettle.overruns).setWidth 32) 0 0 else s.chip.log } := by
    by_cases hv : s.chip.power.valid = true
    · rw [if_pos hv]
      exact State.report_plain (s := { s with chip := s.chip.modKettle (Kettle.overran n) }) hv (by decide) 2 0x30 n 0xFF _ 0 0
    · rw [if_neg hv]
      exact Chip.report_off (ch := s.chip.modKettle (Kettle.overran n)) (by simpa using hv) ..
  generalize (if s.chip.power.valid then s.logged 2 0x30 n 0 0xFF ((satInc16 s.chip.kettle.overruns).setWidth 32) 0 0 else s.chip.log) = g at hlog ⊢
  unfold Chip.overrun
  rw [show (fun k : Kettle => { k with overruns := satInc16 k.overruns, overSite := BitVec.ofNat 8 n }) = Kettle.overran n from rfl]
  dsimp only
  rw [hlog]
  split
  · refine ⟨{ Kettle.overran n s.chip.kettle with
        vcore := BitVec.ofNat 7 (min (s.chip.kettle.vcore.toNat + 4) (s.chip.kettle.vhigh s.chip.kettle.mode)), raisedAt := some s.chip.now
        settling := true, raises := satInc16 s.chip.kettle.raises }, rfl, rfl, rfl, rfl⟩
  · exact ⟨Kettle.overran n s.chip.kettle, rfl, rfl, rfl, rfl⟩

theorem Roller.outgoing_started {r : Roller} {b : DsBuf} {bs : List DsBuf} (hb : r.buffers = b :: bs) (hs : b.started = true) : r.outgoing = some b := by
  simp [Roller.outgoing, Roller.head, hb, hs]

/-- The copies that a late frame spoils now. -/
def Roller.lateHits (r : Roller) (b : DsBuf) : List ((Nat × Nat) × Nat) := (b.spoils r.boundary).filter (fun x => !r.spoiled.contains x.1)

/-- Roller with one more overrun, and the pieces of these copies spoiled. -/
def Roller.late (r : Roller) (hits : List ((Nat × Nat) × Nat)) : Roller :=
  { r with overrun := r.overrun + 1, spoiled := r.spoiled ++ hits.map (·.1) }

/-- No copy lies before the first slot of the body. -/
theorem DsBuf.spoils_preamble (b : DsBuf) {m : Nat} (h : m < 360) : b.spoils m = [] := by
  have h2 : m < bodyCells (max b.ds.tracks 1) := by unfold bodyCells; omega
  unfold DsBuf.spoils
  dsimp only
  rw [if_neg (by omega), if_neg (by omega)]

theorem Chip.lateFrame_started {ch : Chip} {d : Deck} {b : DsBuf} {bs : List DsBuf} (hb : (ch.decks.get d).roller.buffers = b :: bs)
    (hs : b.started = true) (at_ : W64) :
    ch.lateFrame d at_ = (((ch.decks.get d).roller.lateHits b).foldl (fun c x => c.judged d x.1 x.2 false)
      ((ch.modRoller d (·.late ((ch.decks.get d).roller.lateHits b))).overrun (50 + 6 * d.val))).burstOut d
        (eraseBurst (ch.decks.get d).tape.tracks (ch.decks.get d).roller.boundary) at_ := by
  unfold Chip.lateFrame
  dsimp only
  rw [Roller.outgoing_started hb hs, engineUnit_roller]
  rfl

/-- A late frame in the preamble: Roller counts it, and Kettle. -/
theorem State.lateFrame_preamble {s : State} {d : Deck} {b : DsBuf} {bs : List DsBuf} (hb : (s.chip.decks.get d).roller.buffers = b :: bs)
    (hs : b.started = true) (hstop : (s.chip.decks.get d).roller.stopAt = none) (hm : (s.chip.decks.get d).roller.boundary < 360) (at_ : W64) :
    ∃ kettle, s.chip.lateFrame d at_ = { (s.withDeck d { s.chip.decks.get d with roller := { (s.chip.decks.get d).roller with
          overrun := (s.chip.decks.get d).roller.overrun + 1, boundary := (s.chip.decks.get d).roller.boundary + 1, lastCell := at_
          wl := eraseBurst (s.chip.decks.get d).tape.tracks (s.chip.decks.get d).roller.boundary } }).chip with
        kettle := kettle
        log := if s.chip.power.valid then s.logged 2 0x30 (50 + 6 * d.val) 0 0xFF ((satInc16 s.chip.kettle.overruns).setWidth 32) 0 0 else s.chip.log } ∧
      kettle.overruns = satInc16 s.chip.kettle.overruns ∧ kettle.overSite = BitVec.ofNat 8 (50 + 6 * d.val) ∧ kettle.decks = s.chip.kettle.decks := by
  have hh : (s.chip.decks.get d).roller.lateHits b = [] := by rw [Roller.lateHits, DsBuf.spoils_preamble b hm]; rfl
  obtain ⟨kettle, hk, h1, h2, h3⟩ := State.overrun_frame { s with chip := s.chip.modRoller d (·.late []) } (50 + 6 * d.val)
  refine ⟨kettle, ?_, h1, h2, h3⟩
  rw [Chip.lateFrame_started hb hs, hh, List.foldl_nil, Chip.burstOut_on (.inl ?_), hk]
  · simp [Chip.modRoller, Chip.modDeck, State.withDeck, Roller.bursts, Roller.late]
    rfl
  · rw [hk]
    simpa [Chip.modRoller, Roller.late] using hstop

/-- One anywhere else: the pieces of the copies that it spoils are BAD. -/
theorem State.lateFrame_spoils {s : State} {d : Deck} {b : DsBuf} {bs : List DsBuf} (hb : (s.chip.decks.get d).roller.buffers = b :: bs)
    (hs : b.started = true) (ht : (s.chip.decks.get d).roller.tail = none) (hstop : (s.chip.decks.get d).roller.stopAt = none)
    (hn : b.settled.length < 800) (at_ : W64) :
    ∃ c, ((s.chip.lateFrame d at_).decks.get d).roller.buffers = c :: bs ∧
      ((s.chip.lateFrame d at_).decks.get d).roller.wl = eraseBurst (s.chip.decks.get d).tape.tracks (s.chip.decks.get d).roller.boundary ∧
      ((s.chip.lateFrame d at_).decks.get d).roller.overrun = (s.chip.decks.get d).roller.overrun + 1 ∧
      ∀ x ∈ b.spoils (s.chip.decks.get d).roller.boundary, x.1 ∉ (s.chip.decks.get d).roller.spoiled → x ∈ b.waiting →
        x ∉ c.waiting ∧ x.1 ∈ c.everBad := by
  generalize hh : (s.chip.decks.get d).roller.lateHits b = hits
  obtain ⟨kettle, hk, -⟩ := State.overrun_frame { s with chip := s.chip.modRoller d (·.late hits) } (50 + 6 * d.val)
  have hr : (((s.chip.modRoller d (·.late hits)).overrun (50 + 6 * d.val)).decks.get d).roller = (s.chip.decks.get d).roller.late hits := by
    rw [hk]
    dsimp only
    rw [Chip.modRoller_get]
  obtain ⟨c, hc, hw, hx⟩ := Chip.foldl_judged_bad hits (ch := (s.chip.modRoller d (·.late hits)).overrun (50 + 6 * d.val)) (d := d) (b := b) (bs := bs)
    (by rw [hr]; exact hb) hs (by rw [hr]; exact ht) hn
  rw [hr] at hc
  rw [Chip.lateFrame_started hb hs, hh, Chip.burstOut_on (.inl (by rw [hc]; exact hstop)), Chip.modRoller_get, hc]
  refine ⟨c, rfl, rfl, rfl, fun x hxs hns hxw => ?_⟩
  have hxh : x ∈ hits := by
    rw [← hh, Roller.lateHits, List.mem_filter]
    exact ⟨hxs, by simpa using hns⟩
  exact ⟨hx x hxh, (hw.judged x hxw).resolve_left (hx x hxh)⟩

/-! ### CELL_BOUNDARY (R350, R354–R357) -/

/-- The burst of the next boundary: the dataset's that goes out, else the erase pattern. -/
def DeckAll.burstNow (k : DeckAll) : W16 := match k.roller.outgoing with
  | some b => b.burst k.roller.boundary
  | none => eraseBurst k.tape.tracks k.roller.boundary

section
variable {ch : Chip} {d : Deck}

theorem cellBoundaryEffect_off (h : ch.domOn (50 + 6 * d.val) = false) : cellBoundaryEffect d ch = ch := by
  unfold cellBoundaryEffect
  dsimp only
  rw [if_pos (by rw [engineUnit_roller, h]; decide)]

variable (hon : ch.domOn (50 + 6 * d.val) = true)
include hon

/-- With the gate off, a boundary may open it on the erase pattern. -/
theorem cellBoundaryEffect_gateOff (hg : (ch.decks.get d).roller.gate = false) : cellBoundaryEffect d ch =
    if (ch.decks.get d).gateDue ch.now then (ch.modRoller d (fun r => { r with gate := true, boundary := 0 })).burstOut d
      (eraseBurst (ch.decks.get d).tape.tracks 0) ch.now else ch := by
  unfold cellBoundaryEffect
  dsimp only
  rw [if_neg (by rw [engineUnit_roller, hon]; decide), if_pos (by rw [hg]; decide)]

theorem cellBoundaryEffect_lost (hg : (ch.decks.get d).roller.gate = true) (hi : (ch.decks.get d).interpolated = false)
    (hs : (ch.decks.get d).roller.stopAt = none) : cellBoundaryEffect d ch =
      if ((ch.haltEngines d).decks.get d).seq.state = .streaming then (ch.haltEngines d).ask d .stop else ch.haltEngines d := by
  unfold cellBoundaryEffect
  dsimp only
  rw [if_neg (by rw [engineUnit_roller, hon]; decide), if_neg (by rw [hg]; decide), if_pos (by rw [hi, hs]; decide)]

theorem cellBoundaryEffect_burst (hg : (ch.decks.get d).roller.gate = true) (hi : (ch.decks.get d).interpolated = true) : cellBoundaryEffect d ch =
    if (ch.decks.get d).roller.boundary ≠ 0 ∧ ((ch.decks.get d).cellInstant ch.now - (ch.decks.get d).roller.lastCell).toInt < 500
    then ch.lateFrame d ((ch.decks.get d).roller.lastCell + 500)
    else ch.burstOut d (ch.decks.get d).burstNow ((ch.decks.get d).cellInstant ch.now) := by
  unfold cellBoundaryEffect
  dsimp only
  rw [if_neg (by rw [engineUnit_roller, hon]; decide), if_neg (by rw [hg]; decide), if_neg (by rw [hi]; simp)]
  rfl

end

theorem lateFrameEffect_on {ch : Chip} {d : Deck} (hg : (ch.decks.get d).roller.gate = true) : lateFrameEffect d ch =
    ch.lateFrame d (if (ch.decks.get d).roller.boundary ≠ 0 ∧ ((ch.decks.get d).cellInstant ch.now - (ch.decks.get d).roller.lastCell).toInt < 500
      then (ch.decks.get d).roller.lastCell + 500 else (ch.decks.get d).cellInstant ch.now) := if_neg (by rw [hg]; decide)

/-- A position that is lost ends the writing at the piece in progress, and a streaming deck is asked to stop (R357). -/
theorem cellBoundaryEffect_lost_facts {ch : Chip} {d : Deck} (hon : ch.domOn (50 + 6 * d.val) = true) (hg : (ch.decks.get d).roller.gate = true)
    (hi : (ch.decks.get d).interpolated = false) (hs : (ch.decks.get d).roller.stopAt = none) :
    ((cellBoundaryEffect d ch).decks.get d).roller.stopAt = (ch.decks.get d).roller.stopsAt ∧
      ((cellBoundaryEffect d ch).decks.get d).roller.gate = (ch.decks.get d).roller.stopsAt.isSome ∧
      ((ch.decks.get d).seq.state = .streaming → ((cellBoundaryEffect d ch).decks.get d).workQ = (ch.decks.get d).workQ ++ [.stop]) := by
  have hk := (ch.haltEngines_stops d).2
  rw [cellBoundaryEffect_lost hon hg hi hs]
  split
  · rw [Chip.ask, Chip.modDeck_decks, vector_get_set_self, hk]
    exact ⟨rfl, rfl, fun _ => rfl⟩
  · next h =>
    rw [hk] at h ⊢
    exact ⟨rfl, rfl, fun e => absurd e h⟩

/-- Settles O48: a dataset starts when no condition of R351 stands against it; a boundary puts out its burst unless the gate is off, the
position is lost or the boundary comes early; and a late frame judges every copy under it BAD, which never makes a dataset durable. -/
theorem datasetsStartAndCellsGoOut : Obligations.DatasetsStartAndCellsGoOut := by
  intro s0 d fine
  generalize hs : ({ s0 with chip := s0.chip.stamp fine } : State) = s
  have hx : ∀ f : Chip → Chip, s0.onChipAt fine f = s.onChip f := fun f => by rw [State.onChipAt_stamped, hs]
  have e1 : exec (.datasetStart d fine) s0 = s.onChip (datasetStartEffect d) := hx _
  have e2 : exec (.cellBoundary d fine) s0 = s.onChip (cellBoundaryEffect d) := hx _
  have e3 : exec (.lateFrame d fine) s0 = s.onChip (lateFrameEffect d) := hx _
  dsimp only
  rw [e1, e2, e3]
  simp only [← eraseBurst_eq]
  refine ⟨fun b bs p l hb hp hl => ⟨fun h => State.onChip_eq (datasetStartEffect_idle hb hp hl h), fun hnew hst hcourse hon heod hstop hfits hnext => ⟨?_, ?_⟩⟩,
    fun h => State.onChip_eq (cellBoundaryEffect_off h), fun hg hon => ⟨fun hdue => ?_, fun hdue hstop => ?_⟩, fun hg hon hi hstop => ?_,
    fun hg hon hi => ⟨fun hl hstop => ?_, fun hl e he hle => ?_, fun hl => ?_⟩, fun b bs hb hst ht hg hstop => ⟨fun hm => ?_, fun hn => ?_⟩⟩
  · intro hk hpart hew
    refine State.onChip_eq ?_
    rw [datasetStartEffect_begins hb hp hl hnew hst hcourse hon heod hstop hfits, if_neg (by simp [hew])]
    exact congrArg (fun k => { s.chip with decks := s.chip.decks.set d k }) (DeckAll.begins_data hnext hk hpart hew bs s.chip.now)
  · intro hk
    refine State.onChip_eq ?_
    rw [datasetStartEffect_begins hb hp hl hnew hst hcourse hon heod hstop hfits, if_neg (by simp [hk])]
    exact congrArg (fun k => { s.chip with decks := s.chip.decks.set d k }) (DeckAll.begins_label hnext hk bs p l s.chip.now)
  · refine State.onChip_eq ?_
    rw [cellBoundaryEffect_gateOff hon hg, hdue, if_neg Bool.false_ne_true]
  · refine State.onChip_eq ?_
    rw [cellBoundaryEffect_gateOff hon hg, hdue, if_pos rfl, Chip.burstOut_on (.inl (by rw [Chip.modRoller_get]; exact hstop))]
    exact Chip.modDeck_modDeck ..
  · exact ⟨_, rfl, cellBoundaryEffect_lost_facts hon hg hi hstop⟩
  · refine State.onChip_eq ?_
    rw [cellBoundaryEffect_burst hon hg hi, if_neg hl, Chip.burstOut_on hstop]
    rfl
  · refine ⟨_, State.onChip_eq ((cellBoundaryEffect_burst hon hg hi).trans (if_neg hl)), Chip.burstOut_off he hle _ _⟩
  · refine congrArg (fun c => Host.Outcome.next { s with chip := c }) ?_
    rw [cellBoundaryEffect_burst hon hg hi, if_pos hl, lateFrameEffect_on hg, if_pos hl]
  · obtain ⟨kettle, hk, h⟩ := State.lateFrame_preamble hb hst hstop hm (if (s.chip.decks.get d).roller.boundary ≠ 0 ∧
      ((s.chip.decks.get d).cellInstant s.chip.now - (s.chip.decks.get d).roller.lastCell).toInt < 500
      then (s.chip.decks.get d).roller.lastCell + 500 else (s.chip.decks.get d).cellInstant s.chip.now)
    exact ⟨kettle, State.onChip_eq ((lateFrameEffect_on hg).trans hk), h⟩
  · obtain ⟨c, h⟩ := State.lateFrame_spoils hb hst ht hstop hn (if (s.chip.decks.get d).roller.boundary ≠ 0 ∧
      ((s.chip.decks.get d).cellInstant s.chip.now - (s.chip.decks.get d).roller.lastCell).toInt < 500
      then (s.chip.decks.get d).roller.lastCell + 500 else (s.chip.decks.get d).cellInstant s.chip.now)
    exact ⟨_, c, State.onChip_eq (lateFrameEffect_on hg), h⟩

end Sys2Proof.Machine
end

section
/-! SUPPORT. Encoder, index, limit, presence and marker inputs (R41, R422–R437, R440, R446, R464). -/

namespace Sys2Proof.Machine

/-! ### The instant of an input (R41) -/

theorem Chip.stamp_early {ch : Chip} {fine : BitVec 11} (h : min fine.toNat (ch.timebase.nominalTick - 1) ≤ ch.timebase.fine.toNat) : ch.stamp fine = ch := by
  refine if_neg fun ⟨_, hlt⟩ => ?_
  rw [BitVec.toNat_ofNat, Nat.mod_eq_of_lt (by omega)] at hlt
  omega

theorem Chip.stamp_zero (ch : Chip) : ch.stamp 0 = ch := Chip.stamp_early (by simp)

theorem State.onChipAt_zero (s : State) (f : Chip → Chip) : s.onChipAt 0 f = s.onChip f := by
  rw [State.onChipAt_stamped, Chip.stamp_zero]

/-- The pinches after the tick that a fine part stands for. -/
def Timebase.part (t : Timebase) (fine : BitVec 11) : W64 := BitVec.ofNat 64 (min fine.toNat (t.nominalTick - 1))

theorem Timebase.part_toNat (t : Timebase) (fine : BitVec 11) : (t.part fine).toNat = min fine.toNat (t.nominalTick - 1) := by
  have := fine.isLt
  rw [Timebase.part, BitVec.toNat_ofNat, Nat.mod_eq_of_lt (by omega)]

theorem Chip.stamp_now {ch : Chip} (hr : ch.timebase.running = true) (fine : BitVec 11) : (ch.stamp fine).now = ch.timebase.time +
    (if ch.timebase.fine.toNat < (ch.timebase.part fine).toNat then ch.timebase.part fine else ch.timebase.fine.setWidth 64) := by
  have hp := ch.timebase.part_toNat fine
  have hf : (BitVec.ofNat 11 (min fine.toNat (ch.timebase.nominalTick - 1))).toNat = min fine.toNat (ch.timebase.nominalTick - 1) := by
    have := fine.isLt
    rw [BitVec.toNat_ofNat, Nat.mod_eq_of_lt (by omega)]
  by_cases h : ch.timebase.fine.toNat < (ch.timebase.part fine).toNat
  · rw [if_pos h]
    unfold Chip.stamp
    dsimp only
    rw [if_pos ⟨hr, by rw [hf, ← hp]; exact h⟩]
    show ch.timebase.time + (BitVec.ofNat 11 (min fine.toNat (ch.timebase.nominalTick - 1))).setWidth 64 = _
    congr 1
    refine BitVec.eq_of_toNat_eq ?_
    have := fine.isLt
    rw [BitVec.toNat_setWidth, hf, hp, Nat.mod_eq_of_lt (by omega)]
  · rw [if_neg h, Chip.stamp_early (by rw [hp] at h; omega)]
    rfl

/-! ### Which levels count (R464) -/

theorem Chip.inputMay_on {ch : Chip} {d : Deck} (h1 : ch.servoOn d = true) (h2 : ch.power.viod.get d = true) (active : Bool) :
    ch.inputMay d active = true := by
  simp [Chip.inputMay, h1, h2]

theorem Chip.inputMay_off {ch : Chip} {d : Deck} (h : ch.servoOn d = false) (active : Bool) : ch.inputMay d active = false := by
  simp [Chip.inputMay, h]

theorem Chip.inputMay_bank {ch : Chip} {d : Deck} (h : ch.power.viod.get d = false) : ch.inputMay d true = false := by
  simp [Chip.inputMay, h]

section
variable {ch : Chip} {d : Deck}

theorem encoderEdgeEffect_not (h : ch.inputMay d true = false) (n : Fin 3) (a b : Bool) : encoderEdgeEffect d n a b ch = ch := if_pos (by simp [h])
theorem indexEdgeEffect_not (h : ch.inputMay d true = false) : indexEdgeEffect d ch = ch := if_pos (by simp [h])

theorem limitEdgeEffect_not {hi active : Bool} (h : ch.inputMay d active = false ∨ active = ((ch.decks.get d).io.limit hi).raw) (x y : Int) (n : Nat) :
    limitEdgeEffect d hi active x y n ch = ch := if_pos (h.imp_left fun h => by simp [h])

theorem presenceChangeEffect_not {door level : Bool}
    (h : ch.inputMay d level = false ∨ (if door then (ch.decks.get d).io.door else (ch.decks.get d).io.cart) = level) :
    presenceChangeEffect d door level ch = ch := if_pos (h.imp_left fun h => by simp [h])

theorem tapeMarkerEdgeEffect_not {rising : Bool} (h : ch.inputMay d rising = false ∨ (ch.decks.get d).io.tapemk = rising) :
    tapeMarkerEdgeEffect d rising ch = ch := if_pos (h.imp_left fun h => by simp [h])

end

/-! ### Encoders (R424, R425) -/

theorem Encoder.edge_same {e : Encoder} {a b : Bool} (ha : a = e.a) (hb : b = e.b) (t : W64) : e.edge a b t = (e, 0, false) := if_pos ⟨ha, hb⟩

/-- The times of the illegal transitions of the last millisecond, with the one at t. -/
def Encoder.illegalAt (e : Encoder) (t : W64) : List W64 := t :: e.illegal.filter fun x => decide ((t - x).toNat < 16000000)

/-- Both lines at once, or the turn of the other line's edge within 25 ns: an illegal transition (R424). -/
theorem Encoder.edge_illegal {e : Encoder} {a b : Bool} {t : W64} (hne : ¬ (a = e.a ∧ b = e.b))
    (h : (a ≠ e.a ∧ b ≠ e.b) ∨ (decide (b ≠ e.b) ≠ e.lastOnB ∧ e.lastA ≠ 0 ∧ (t - e.lastA).toNat < 400)) :
    e.edge a b t = ({ e with a := a, b := b, edges := [], lastA := t, lastOnB := decide (b ≠ e.b), illegal := e.illegalAt t }, 0, true) :=
  (if_neg hne).trans (if_pos h)

/-- The encoder with one edge counted. -/
def Encoder.counted (e : Encoder) (a b : Bool) (t : W64) : Encoder :=
  let fwd := decide ((quadPhase a b + 4 - quadPhase e.a e.b) % 4 = 1)
  { e with
    a := a, b := b, count := if fwd then e.count + 1 else e.count - 1, lastA := t, lastOnB := decide (b ≠ e.b), fwd := fwd
    way := some (e.way.getD fwd), mixed := e.mixed || decide (e.way = some (!fwd))
    edges := if e.edges = [] ∨ fwd ≠ e.fwd then [t] else (t :: e.edges).take 5 }

theorem Encoder.edge_counted {e : Encoder} {a b : Bool} {t : W64} (hne : ¬ (a = e.a ∧ b = e.b))
    (h : ¬ ((a ≠ e.a ∧ b ≠ e.b) ∨ (decide (b ≠ e.b) ≠ e.lastOnB ∧ e.lastA ≠ 0 ∧ (t - e.lastA).toNat < 400))) :
    e.edge a b t = (e.counted a b t, if (e.counted a b t).fwd then 1 else -1, false) := by
  refine ((if_neg hne).trans (if_neg h)).trans ?_
  unfold Encoder.counted
  simp only [List.isEmpty_iff]
  cases decide ((quadPhase a b + 4 - quadPhase e.a e.b) % 4 = 1) <;> rfl

/-- The deck with an encoder's lines at these levels. -/
def DeckAll.edged (k : DeckAll) (n : Fin 3) (a b : Bool) (t : W64) : DeckAll :=
  let r := (k.io.encs.get n).edge a b t
  { k with
    io := { k.io with encs := k.io.encs.set n r.1, encErr := if r.2.2 then k.io.encErr + 1 else k.io.encErr }
    pos := if n = 0 then k.pos + 1024 * r.2.1 else k.pos }

theorem tapeLoaded_of {st : DeckState} (h : measuring st = false) : tapeLoaded st = false := by
  cases st <;> first | rfl | cases h

theorem DeckAll.measureReels_not {k : DeckAll} (h : measuring k.seq.state = false) (p : Profile) : k.measureReels p = k := by
  unfold DeckAll.measureReels
  exact if_neg fun e => Bool.false_ne_true (h.symm.trans e.1)

theorem Chip.passEnds_not {ch : Chip} {d : Deck} (h : tapeLoaded (ch.decks.get d).seq.state = false) (p : Profile) (x y : Int) :
    ch.passEnds d p x y = ch := by
  have hb : (ch.decks.get d).mustBrake p ch.now = false := by simp [DeckAll.mustBrake, h]
  unfold Chip.passEnds
  simp [h, hb]

/-- While no tape counts, an edge moves the encoder and the position alone. -/
theorem encoderEdgeEffect_still {ch : Chip} {d : Deck} {n : Fin 3} (hi : ch.inputMay d true = true)
    (hm : n = 0 → measuring (ch.decks.get d).seq.state = false) (a b : Bool) :
    encoderEdgeEffect d n a b ch = ch.modDeck d (·.edged n a b ch.now) := by
  have hk : (ch.modDeck d (·.edged n a b ch.now)).decks.get d = (ch.decks.get d).edged n a b ch.now := vector_get_set_self ..
  have he : encoderEdgeEffect d n a b ch = match (ch.decks.get d).profile with
      | none => ch.modDeck d (·.edged n a b ch.now)
      | some p => if n = 0 then ((ch.modDeck d (·.edged n a b ch.now)).modDeck d (fun k => k.measureReels p)).passEnds d p (ch.decks.get d).pos
          ((ch.decks.get d).edged n a b ch.now).pos else ch.modDeck d (·.edged n a b ch.now) := if_neg (by simp [hi])
  rw [he]
  cases (ch.decks.get d).profile with
  | none => rfl
  | some p =>
    by_cases h0 : n = 0
    · have hq : ((ch.decks.get d).edged n a b ch.now).seq = (ch.decks.get d).seq := rfl
      have hr : (ch.modDeck d (·.edged n a b ch.now)).modDeck d (fun k => k.measureReels p) = ch.modDeck d (·.edged n a b ch.now) :=
        Chip.modDeck_fixed (DeckAll.measureReels_not (by rw [hk, hq]; exact hm h0) p)
      dsimp only
      rw [if_pos h0, hr, Chip.passEnds_not (by rw [hk, hq]; exact tapeLoaded_of (hm h0))]
    · exact if_neg h0

/-! ### What a change of one deck makes of the state -/

/-- A command that changes deck d alone ends with that deck changed. -/
theorem State.onChip_deck {s : State} {d : Deck} {F : Chip → Chip} {f : DeckAll → DeckAll} {k : DeckAll} (h : F s.chip = s.chip.modDeck d f)
    (hk : f (s.chip.decks.get d) = k) : s.onChip F = .next (s.withDeck d k) := by
  rw [← hk]
  exact State.onChip_to h rfl

theorem DeckAll.edged_same {k : DeckAll} {n : Fin 3} {a b : Bool} (ha : a = (k.io.encs.get n).a) (hb : b = (k.io.encs.get n).b) (t : W64) :
    k.edged n a b t = k := by
  unfold DeckAll.edged
  simp [Encoder.edge_same ha hb]

theorem DeckAll.edged_counted {k : DeckAll} {n : Fin 3} {a b : Bool} {t : W64}
    (h : (k.io.encs.get n).edge a b t = ((k.io.encs.get n).counted a b t, if ((k.io.encs.get n).counted a b t).fwd then 1 else -1, false)) :
    k.edged n a b t = { k with
      pos := if n = 0 then (if ((k.io.encs.get n).counted a b t).fwd then k.pos + 1024 else k.pos - 1024) else k.pos
      io := { k.io with encs := k.io.encs.set n ((k.io.encs.get n).counted a b t) } } := by
  unfold DeckAll.edged
  rw [h]
  cases ((k.io.encs.get n).counted a b t).fwd <;> rfl

theorem DeckAll.edged_illegal {k : DeckAll} {n : Fin 3} {a b : Bool} {t : W64} {e : Encoder} (h : (k.io.encs.get n).edge a b t = (e, 0, true)) :
    k.edged n a b t = { k with io := { k.io with encErr := k.io.encErr + 1, encs := k.io.encs.set n e } } := by
  unfold DeckAll.edged
  simp [h]

/-! ### Index, limits, marker and presence (R427, R431–R433, R440, R446) -/

section
variable {ch : Chip} {d : Deck}

theorem indexEdgeEffect_on (h : ch.inputMay d true = true) : indexEdgeEffect d ch = ch.modIo d fun io => { io with
    encs := io.encs.set 0 { (ch.decks.get d).io.encs.get 0 with indexAt := some ((ch.decks.get d).io.encs.get 0).count, way := none, mixed := false }
    indexErr := match ((ch.decks.get d).io.encs.get 0).indexAt, (ch.decks.get d).profile with
      | some c, some p => if (((ch.decks.get d).io.encs.get 0).count - c).natAbs ≠ 4 * p.capLines ∨ ((ch.decks.get d).io.encs.get 0).mixed = true
          then io.indexErr + 1 else io.indexErr
      | _, _ => io.indexErr } := by
  refine (if_neg (by simp [h])).trans ?_
  dsimp only
  cases ((ch.decks.get d).io.encs.get 0).indexAt with
  | none => rfl
  | some c =>
    cases (ch.decks.get d).profile with
    | none => rfl
    | some p => simp only [Bool.or_eq_true, decide_eq_true_eq]

@[simp] theorem MotionIo.setLimit_setLimit (io : MotionIo) (hi : Bool) (x y : Limit) : (io.setLimit hi x).setLimit hi y = io.setLimit hi y := by
  cases hi <;> rfl

theorem limitEdgeEffect_counts {hi active : Bool} (hm : ch.inputMay d active = true) (hr : active ≠ ((ch.decks.get d).io.limit hi).raw) {n : Nat} {t0 : W64}
    (hw : ((ch.decks.get d).io.limit hi).window = some (n, t0)) (x y : Int) (into : Nat) : limitEdgeEffect d hi active x y into ch =
      ch.modIo d fun io => io.setLimit hi { (ch.decks.get d).io.limit hi with raw := active, window := some (n + 1, t0) } := by
  refine (if_neg (by simp [hm, hr])).trans ?_
  rw [hw]

/-- While the loops do not run, an opening edge neither latches nor holds. -/
theorem limitEdgeEffect_opens {hi active : Bool} (hm : ch.inputMay d active = true) (hr : active ≠ ((ch.decks.get d).io.limit hi).raw)
    (hw : ((ch.decks.get d).io.limit hi).window = none) (hl : (ch.decks.get d).loops.running = false) (x y : Int) (into : Nat) :
    limitEdgeEffect d hi active x y into ch =
      ch.modIo d fun io => io.setLimit hi { (ch.decks.get d).io.limit hi with raw := active, window := some (1, ch.now) } := by
  have ho : ∀ raw t, ch.windowOpens d hi raw t = ch := fun _ _ => if_pos (.inl (by simp [hl]))
  refine (if_neg (by simp [hm, hr])).trans ?_
  rw [hw]
  dsimp only
  rw [ho]

/-- No window, no end of one. -/
theorem limitWindowEndEffect_none {hi : Bool} (hw : ((ch.decks.get d).io.limit hi).window = none) : limitWindowEndEffect d hi ch = ch := by
  unfold limitWindowEndEffect
  dsimp only
  rw [hw]

theorem limitWindowEndEffect_released {hi : Bool} {n : Nat} {t0 : W64} (hw : ((ch.decks.get d).io.limit hi).window = some (n, t0)) (hn : n ≤ 4)
    (hr : ((ch.decks.get d).io.limit hi).raw = false) (ha : ((ch.decks.get d).io.limit hi).active = true) : limitWindowEndEffect d hi ch =
      ch.modIo d fun io => io.setLimit hi { (ch.decks.get d).io.limit hi with window := none, active := false } := by
  unfold limitWindowEndEffect
  simp only [hw, hr, ha]
  rw [if_neg (by omega)]
  simp [Chip.modIo]

theorem Chip.releasePositioner_free (h : (ch.decks.get d).io.posHold = none) : ch.releasePositioner d = ch := by
  unfold Chip.releasePositioner
  rw [h]

/-- A window that ends without a change, outside homing and with the positioner free, is a glitch and no more. -/
theorem limitWindowEndEffect_glitch {hi : Bool} {n : Nat} {t0 : W64} (hw : ((ch.decks.get d).io.limit hi).window = some (n, t0)) (hn : n ≤ 4)
    (hr : ((ch.decks.get d).io.limit hi).raw = ((ch.decks.get d).io.limit hi).active) (hs : (ch.decks.get d).seq.state ≠ .homing)
    (hp : (ch.decks.get d).io.posHold = none) : limitWindowEndEffect d hi ch =
      ch.modIo d fun io => { io.setLimit hi { (ch.decks.get d).io.limit hi with window := none } with glitch := io.glitch + 1 } := by
  have hc : (ch.modIo d fun io => io.setLimit hi { (ch.decks.get d).io.limit hi with window := none }).modIo d (fun io => { io with glitch := io.glitch + 1 }) =
      ch.modIo d fun io => { io.setLimit hi { (ch.decks.get d).io.limit hi with window := none } with glitch := io.glitch + 1 } := by
    simp only [Chip.modIo, Chip.modDeck_modDeck]
    cases hi <;> rfl
  have hf : ((ch.modIo d fun io => { io.setLimit hi { (ch.decks.get d).io.limit hi with window := none } with glitch := io.glitch + 1 }).decks.get d).io.posHold = none := by
    rw [Chip.modIo, Chip.modDeck_decks, vector_get_set_self]
    cases hi <;> exact hp
  unfold limitWindowEndEffect
  dsimp only
  rw [hw]
  dsimp only
  rw [if_neg (by omega), if_neg (fun h => h hr), hc]
  cases (ch.decks.get d).profile with
  | none => rfl
  | some p =>
    dsimp only
    rw [if_neg (by simp [hs]), Chip.releasePositioner_free hf]

/-- With no tape that counts and none looked for, a marker edge keeps its level and place. -/
theorem tapeMarkerEdgeEffect_kept {rising : Bool} (hm : ch.inputMay d rising = true) (hr : rising ≠ (ch.decks.get d).io.tapemk)
    (hs : measuring (ch.decks.get d).seq.state = false) (hn : (ch.decks.get d).seq.state ≠ .scan) : tapeMarkerEdgeEffect d rising ch =
      ch.modIo d fun io => { io with tapemk := rising, markAt := (ch.decks.get d).positionAt ch.now } := by
  have hc : (ch.decks.get d).seq.state ≠ .calibrate := fun e => by simp [e, measuring] at hs
  refine (if_neg (by simp [hm, hr.symm])).trans ?_
  dsimp only
  rw [if_neg (by simp [hc, hs]), if_neg (by simp [hn, tapeLoaded_of hs])]

/-- In CALIBRATE the edge of the leader's end zeroes the position (R446). -/
theorem tapeMarkerEdgeEffect_zeroes {rising : Bool} (hm : ch.inputMay d rising = true) (hr : rising ≠ (ch.decks.get d).io.tapemk)
    (hs : (ch.decks.get d).seq.state = .calibrate) (hf : rising ≠ ((ch.decks.get d).io.encs.get 0).fwd) : tapeMarkerEdgeEffect d rising ch =
      ch.modDeck d fun k => { k with
        pos := k.pos - (ch.decks.get d).positionAt ch.now, seq := { k.seq with zeroed := true }
        io := { k.io with tapemk := rising, markAt := (ch.decks.get d).positionAt ch.now } } := by
  refine (if_neg (by simp [hm, hr.symm])).trans ?_
  dsimp only
  rw [if_pos ⟨hf, .inl hs⟩, Chip.modIo, Chip.modDeck_modDeck]
  rfl

theorem DeckAll.inState_seq (k : DeckAll) (st : DeckState) : (k.inState st).seq = { k.seq with state := st } := by simp [DeckAll.inState, DeckAll.modSeq]

theorem DeckAll.inState_io (k : DeckAll) (st : DeckState) : (k.inState st).io = { k.io with axes := (k.inState st).io.axes } := by
  unfold DeckAll.inState
  rw [DeckAll.retarget_io]
  rfl

/-- A change of state while no hold waits: the deck is in it, and the timebase and the other decks stay. -/
theorem Chip.setDeckState_unheld {st : DeckState} (hs : (ch.decks.get d).seq.state ≠ st) (hp : ch.domains.holdPend = 0) :
    (ch.setDeckState d st).decks = ch.decks.set d ((ch.decks.get d).inState st) ∧ (ch.setDeckState d st).timebase = ch.timebase := by
  obtain ⟨es, m, ev, xs, h, -⟩ := (ch.modDeck d (·.inState st)).postAt_frame (ch.modDeck d (·.inState st)).now Ev.deckState (.deck d) (servoUnit d)
    (deckObject d) (BitVec.ofNat 32 st.code)
  rw [Chip.setDeckState_ne hs, Chip.postDeck, Chip.post, h, Chip.applyHold_not]
  · exact ⟨rfl, rfl⟩
  · simp [hp]

end

/-! ### The commands -/

section
variable {s : State} {d : Deck}

/-- An input whose instant the delay lines resolve acts on the stamped chip as one at the tick does. -/
theorem exec_inputs_stamped (s : State) (d : Deck) (fine : BitVec 11) : let u : State := { s with chip := s.chip.stamp fine }
    (∀ n a b, exec (.encoderEdge d n a b fine) s = exec (.encoderEdge d n a b 0) u) ∧ exec (.indexEdge d fine) s = exec (.indexEdge d 0) u ∧
    (∀ hi act x y n, exec (.limitEdge d hi act fine x y n) s = exec (.limitEdge d hi act 0 x y n) u) ∧
    (∀ door lv, exec (.presenceChange d door lv fine) s = exec (.presenceChange d door lv 0) u) ∧
    (∀ r, exec (.tapeMarkerEdge d r fine) s = exec (.tapeMarkerEdge d r 0) u) ∧
    (∀ a, exec (.tripInputRelease d a fine) s = exec (.tripInputRelease d a 0) u) := by
  have h : ∀ F : Chip → Chip, s.onChipAt fine F = ({ s with chip := s.chip.stamp fine } : State).onChipAt 0 F := fun F => by
    rw [State.onChipAt_zero, State.onChipAt_stamped]
  exact ⟨fun _ _ _ => h _, h _, fun _ _ _ _ _ => h _, fun _ _ => h _, fun _ => h _, fun _ => h _⟩

/-- What the model makes of an input, where its effect is none. -/
theorem State.onChipAt_none {F : Chip → Chip} (h : F s.chip = s.chip) : s.onChipAt 0 F = .next s := by
  rw [State.onChipAt_zero]
  exact State.onChip_eq h

/-- The same where it changes deck d alone. -/
theorem State.onChipAt_deck {F : Chip → Chip} {f : DeckAll → DeckAll} {k : DeckAll} (h : F s.chip = s.chip.modDeck d f)
    (hk : f (s.chip.decks.get d) = k) : s.onChipAt 0 F = .next (s.withDeck d k) := by
  rw [State.onChipAt_zero]
  exact State.onChip_deck h hk

theorem exec_deckLeaveDormant_not (h : ¬ ((s.chip.decks.get d).seq.state = .dormant ∧ s.chip.servoOn d = true)) :
    exec (.deckLeaveDormant d) s = .next s :=
  State.onChip_eq (f := fun ch => ch.leaveDormant d) (if_neg fun ⟨h1, _, h2, _⟩ => h ⟨h1, h2⟩)

theorem exec_deckLeaveDormant (hs : (s.chip.decks.get d).seq.state = .dormant) (hc : s.chip.power.control = true) (hon : s.chip.servoOn d = true)
    (hb : s.chip.power.viod.get d = true) (hl : s.chip.timebase.refState = .locked) (hv : (s.chip.timebase.decks.get d).valid = true) :
    exec (.deckLeaveDormant d) s = .next { s with chip := s.chip.setDeckState d (if (s.chip.decks.get d).io.cart then .present else .empty) } :=
  State.onChip_eq (f := fun ch => ch.leaveDormant d) (if_pos ⟨hs, hc, hon, hb, hl, hv⟩)

/-- DORMANT is left for PRESENT or EMPTY (R440). -/
theorem exec_deckLeaveDormant_leaves (hs : (s.chip.decks.get d).seq.state = .dormant) (hc : s.chip.power.control = true)
    (hon : s.chip.servoOn d = true) (hb : s.chip.power.viod.get d = true) (hl : s.chip.timebase.refState = .locked)
    (hv : (s.chip.timebase.decks.get d).valid = true) (hp : s.chip.domains.holdPend = 0) : ∃ u, exec (.deckLeaveDormant d) s = .next u ∧
      (u.chip.decks.get d).seq = { (s.chip.decks.get d).seq with state := if (s.chip.decks.get d).io.cart then .present else .empty } ∧
      u.chip.timebase = s.chip.timebase ∧ ∀ e, e ≠ d → u.chip.decks.get e = s.chip.decks.get e := by
  have hne : (s.chip.decks.get d).seq.state ≠ if (s.chip.decks.get d).io.cart then .present else .empty := by
    rw [hs]
    split <;> exact fun e => nomatch e
  obtain ⟨h1, h2⟩ := Chip.setDeckState_unheld hne hp
  refine ⟨_, exec_deckLeaveDormant hs hc hon hb hl hv, ?_⟩
  dsimp only
  rw [h1, h2, vector_get_set_self, DeckAll.inState_seq]
  exact ⟨rfl, rfl, fun e he => vector_get_set_ne _ _ _ _ he⟩

/-- A cartridge inserted in EMPTY. -/
theorem presenceChangeEffect_inserted (hm : s.chip.inputMay d true = true) (hc : (s.chip.decks.get d).io.cart = false)
    (hr : (s.chip.decks.get d).loops.running = false) (hs : (s.chip.decks.get d).seq.state = .empty) :
    presenceChangeEffect d false true s.chip =
      ((s.chip.modIo d fun io => { io with cart := true }).post Ev.cartInserted .all (servoUnit d) (deckObject d) 0).setDeckState d .present := by
  refine (if_neg (by simp [hm, hc])).trans ?_
  simp [hr, hs]

theorem exec_presenceChange_inserted (hm : s.chip.inputMay d true = true) (hc : (s.chip.decks.get d).io.cart = false)
    (hr : (s.chip.decks.get d).loops.running = false) (hs : (s.chip.decks.get d).seq.state = .empty) (hp : s.chip.domains.holdPend = 0) :
    ∃ u, exec (.presenceChange d false true 0) s = .next u ∧
      (u.chip.decks.get d).io = { (s.chip.decks.get d).io with cart := true, axes := (u.chip.decks.get d).io.axes } ∧
      (u.chip.decks.get d).seq = { (s.chip.decks.get d).seq with state := .present } ∧
      u.chip.timebase = s.chip.timebase ∧ ∀ e, e ≠ d → u.chip.decks.get e = s.chip.decks.get e := by
  obtain ⟨es, m, ev, xs, hpost, -⟩ := (s.chip.modIo d fun io => { io with cart := true }).postAt_frame
    (s.chip.modIo d fun io => { io with cart := true }).now Ev.cartInserted .all (servoUnit d) (deckObject d) 0
  have he := presenceChangeEffect_inserted hm hc hr hs
  rw [Chip.post, hpost] at he
  obtain ⟨c, hcd⟩ : ∃ c : Chip, c = { (s.chip.modIo d fun io => { io with cart := true }) with
      log := { (s.chip.modIo d fun io => { io with cart := true }).log with pend := (s.chip.modIo d fun io => { io with cart := true }).log.pend ++ es }
      emergency := { (s.chip.modIo d fun io => { io with cart := true }).emergency with mirror := m }, events := ev, ctxs := xs } := ⟨_, rfl⟩
  have hdk : c.decks = s.chip.decks.set d { s.chip.decks.get d with io.cart := true } := by rw [hcd]; rfl
  have hk : c.decks.get d = { s.chip.decks.get d with io.cart := true } := by rw [hdk, vector_get_set_self]
  have ht : c.timebase = s.chip.timebase := by rw [hcd]; rfl
  have hd : c.domains = s.chip.domains := by rw [hcd]; rfl
  obtain ⟨h1, h2⟩ := Chip.setDeckState_unheld (ch := c) (d := d) (st := .present) (by rw [hk, hs]; exact fun e => nomatch e) (by rw [hd, hp])
  refine ⟨{ s with chip := c.setDeckState d .present }, (State.onChipAt_zero _ _).trans (State.onChip_eq (he.trans (by rw [hcd]))), ?_⟩
  dsimp only
  rw [h1, h2, ht, vector_get_set_self, DeckAll.inState_seq, hk]
  refine ⟨DeckAll.inState_io .., rfl, rfl, fun e hne => ?_⟩
  rw [vector_get_set_ne _ _ _ _ hne, hdk, vector_get_set_ne _ _ _ _ hne]

/-- No level of a deck counts whose servo I/O is off (R464). -/
theorem exec_inputs_servoOff (h : s.chip.servoOn d = false) : (∀ e a b, exec (.encoderEdge d e a b 0) s = .next s) ∧
    exec (.indexEdge d 0) s = .next s ∧ (∀ hi act x y n, exec (.limitEdge d hi act 0 x y n) s = .next s) ∧
    (∀ door lv, exec (.presenceChange d door lv 0) s = .next s) ∧ (∀ r, exec (.tapeMarkerEdge d r 0) s = .next s) ∧
    exec (.deckLeaveDormant d) s = .next s :=
  have hm : ∀ active, s.chip.inputMay d active = false := Chip.inputMay_off h
  ⟨fun _ _ _ => State.onChipAt_none (encoderEdgeEffect_not (hm _) ..), State.onChipAt_none (indexEdgeEffect_not (hm _)),
    fun _ _ _ _ _ => State.onChipAt_none (limitEdgeEffect_not (.inl (hm _)) ..), fun _ _ => State.onChipAt_none (presenceChangeEffect_not (.inl (hm _))),
    fun _ => State.onChipAt_none (tapeMarkerEdgeEffect_not (.inl (hm _))), exec_deckLeaveDormant_not fun ⟨_, h'⟩ => by simp [h] at h'⟩

/-- No active level of a deck counts whose bank is bad (R464). -/
theorem exec_inputs_bankBad (h : s.chip.power.viod.get d = false) : (∀ e a b, exec (.encoderEdge d e a b 0) s = .next s) ∧
    exec (.indexEdge d 0) s = .next s ∧ (∀ hi x y n, exec (.limitEdge d hi true 0 x y n) s = .next s) ∧
    (∀ door, exec (.presenceChange d door true 0) s = .next s) ∧ exec (.tapeMarkerEdge d true 0) s = .next s :=
  have hm : s.chip.inputMay d true = false := Chip.inputMay_bank h
  ⟨fun _ _ _ => State.onChipAt_none (encoderEdgeEffect_not hm ..), State.onChipAt_none (indexEdgeEffect_not hm),
    fun _ _ _ _ => State.onChipAt_none (limitEdgeEffect_not (.inl hm) ..), fun _ => State.onChipAt_none (presenceChangeEffect_not (.inl hm)),
    State.onChipAt_none (tapeMarkerEdgeEffect_not (.inl hm))⟩

section
variable {n : Fin 3} {a b : Bool} (hm : s.chip.inputMay d true = true) (hn : n = 0 → measuring (s.chip.decks.get d).seq.state = false)
include hm hn

theorem exec_encoderEdge {k : DeckAll} (h : (s.chip.decks.get d).edged n a b s.chip.now = k) :
    exec (.encoderEdge d n a b 0) s = .next (s.withDeck d k) := State.onChipAt_deck (encoderEdgeEffect_still hm hn a b) h

theorem exec_encoderEdge_same (ha : a = ((s.chip.decks.get d).io.encs.get n).a) (hb : b = ((s.chip.decks.get d).io.encs.get n).b) :
    exec (.encoderEdge d n a b 0) s = .next s :=
  State.onChipAt_none ((encoderEdgeEffect_still hm hn a b).trans (Chip.modDeck_fixed (DeckAll.edged_same ha hb _)))

/-- An edge of one line alone, in its turn or late enough, is counted. -/
theorem exec_encoderEdge_counted (h1 : (a ≠ ((s.chip.decks.get d).io.encs.get n).a) ≠ (b ≠ ((s.chip.decks.get d).io.encs.get n).b))
    (h2 : decide (b ≠ ((s.chip.decks.get d).io.encs.get n).b) = ((s.chip.decks.get d).io.encs.get n).lastOnB ∨
      ((s.chip.decks.get d).io.encs.get n).lastA = 0 ∨ 400 ≤ (s.chip.now - ((s.chip.decks.get d).io.encs.get n).lastA).toNat) :
    exec (.encoderEdge d n a b 0) s = .next (s.withDeck d { s.chip.decks.get d with
      pos := if n = 0 then (if (((s.chip.decks.get d).io.encs.get n).counted a b s.chip.now).fwd then (s.chip.decks.get d).pos + 1024
        else (s.chip.decks.get d).pos - 1024) else (s.chip.decks.get d).pos
      io := { (s.chip.decks.get d).io with
        encs := (s.chip.decks.get d).io.encs.set n (((s.chip.decks.get d).io.encs.get n).counted a b s.chip.now) } }) := by
  refine exec_encoderEdge hm hn (DeckAll.edged_counted (Encoder.edge_counted (fun ⟨ha, hb⟩ => h1 (by simp [ha, hb])) ?_))
  rintro (⟨ha, hb⟩ | ⟨ht, h0, hlt⟩)
  · exact h1 (by simp [ha, hb])
  · rcases h2 with h | h | h
    · exact ht h
    · exact h0 h
    · omega

theorem exec_encoderEdge_illegal (hne : ¬ (a = ((s.chip.decks.get d).io.encs.get n).a ∧ b = ((s.chip.decks.get d).io.encs.get n).b))
    (h : (a ≠ ((s.chip.decks.get d).io.encs.get n).a ∧ b ≠ ((s.chip.decks.get d).io.encs.get n).b) ∨
      (decide (b ≠ ((s.chip.decks.get d).io.encs.get n).b) ≠ ((s.chip.decks.get d).io.encs.get n).lastOnB ∧
        ((s.chip.decks.get d).io.encs.get n).lastA ≠ 0 ∧ (s.chip.now - ((s.chip.decks.get d).io.encs.get n).lastA).toNat < 400)) :
    exec (.encoderEdge d n a b 0) s = .next (s.withDeck d { s.chip.decks.get d with io := { (s.chip.decks.get d).io with
      encErr := (s.chip.decks.get d).io.encErr + 1
      encs := (s.chip.decks.get d).io.encs.set n { (s.chip.decks.get d).io.encs.get n with
        a := a, b := b, edges := [], lastA := s.chip.now, lastOnB := decide (b ≠ ((s.chip.decks.get d).io.encs.get n).b)
        illegal := ((s.chip.decks.get d).io.encs.get n).illegalAt s.chip.now } } }) :=
  exec_encoderEdge hm hn (DeckAll.edged_illegal (Encoder.edge_illegal hne h))

end

end

/-- Settles O52: beside the instant's stamp, every row changes its own deck alone, as the lemma about its effect says; DORMANT and EMPTY are left by a
change of state that no hold waits for. -/
theorem inputsOfADeck : Obligations.InputsOfADeck := by
  intro s d
  dsimp only
  refine ⟨fun fine => ⟨fun hr => Chip.stamp_now hr fine, fun h => ?_, exec_inputs_stamped s d fine⟩, exec_inputs_servoOff, exec_inputs_bankBad,
    fun a => State.onChipAt_deck (F := tripInputReleaseEffect d a) rfl rfl,
    fun hr => State.onRegister_reached hr (mioClearCountsEffect d), fun hon hb => ?_, fun hi => ⟨fun hw => ?_, ?_⟩⟩
  · have hp := s.chip.timebase.part_toNat fine
    rw [Chip.stamp_early (by rw [← hp]; exact h)]
  · have hm : ∀ active, s.chip.inputMay d active = true := Chip.inputMay_on hon hb
    refine ⟨fun n a b hn => ⟨exec_encoderEdge_same (hm _) hn, exec_encoderEdge_counted (hm _) hn, fun ha hb => ?_, fun hx ht h0 hlt => ?_⟩,
      State.onChipAt_deck (indexEdgeEffect_on (hm _)) rfl, fun hi x y into => ⟨State.onChipAt_none (limitEdgeEffect_not (.inr rfl) ..), fun n t0 hw => ?_,
        fun hw hl => ?_⟩, fun rising => ⟨State.onChipAt_none (tapeMarkerEdgeEffect_not (.inr rfl)), fun hr hs hns => ?_, fun hr hs hf => ?_⟩,
      State.onChipAt_none (presenceChangeEffect_not (.inr (if_pos rfl))), State.onChipAt_none (presenceChangeEffect_not (.inr (if_neg (by simp)))),
      fun hc hl hs hp => exec_presenceChange_inserted (hm _) hc hl hs hp, fun hs => exec_deckLeaveDormant_not fun h => hs h.1,
      fun hs hc hv hl hvd hp => exec_deckLeaveDormant_leaves hs hc hon hv hl hvd hp⟩
    · have := exec_encoderEdge_illegal (hm _) hn (fun h => ha h.1) (.inl ⟨ha, hb⟩)
      rwa [decide_eq_true hb] at this
    · exact exec_encoderEdge_illegal (hm _) hn (fun h => hx (by simp [h.1, h.2])) (.inr ⟨ht, h0, hlt⟩)
    · exact State.onChipAt_deck (limitEdgeEffect_counts (hm _) (by simp) hw ..) rfl
    · exact State.onChipAt_deck (limitEdgeEffect_opens (hm _) (by simp) hw hl ..) rfl
    · exact State.onChipAt_deck (tapeMarkerEdgeEffect_kept (hm _) hr hs hns) rfl
    · exact State.onChipAt_deck (tapeMarkerEdgeEffect_zeroes (hm _) hr hs hf) rfl
  · exact State.onChip_eq (limitWindowEndEffect_none hw)
  · intro n t0 hw hn
    exact ⟨fun hr ha => State.onChip_deck (limitWindowEndEffect_released hw hn hr ha) rfl,
      fun hr hs hp => State.onChip_deck (limitWindowEndEffect_glitch hw hn hr hs hp) rfl⟩

end Sys2Proof.Machine
end

section
/-! SUPPORT. The pins of an Ehran port with no packet open: what each row makes of its port, and that it changes nothing else (R67, R69, R71,
R74, R82, R83, R85). -/

namespace Sys2Proof.Machine

/-! ### The chip seen as one Ehran port and the rest -/

/-- The chip with Ehran port p become `e`. -/
def Chip.withEhran (ch : Chip) (p : EPort) (e : EhranPort) : Chip := { ch with ehran := ch.ehran.set p e }

theorem Chip.withEhran_self (ch : Chip) (p : EPort) : ch.withEhran p (ch.ehran.get p) = ch := by
  simp only [Chip.withEhran, vector_set_get]

@[simp] theorem Chip.withEhran_get (ch : Chip) (p : EPort) (e : EhranPort) : (ch.withEhran p e).ehran.get p = e := vector_get_set_self ..

@[simp] theorem Chip.withEhran_modEhran (ch : Chip) (p : EPort) (e : EhranPort) (f : EhranPort → EhranPort) :
    (ch.withEhran p e).modEhran p f = ch.withEhran p (f e) := by
  rw [Chip.modEhran, Chip.withEhran_get]
  simp only [Chip.withEhran, vector_set_set]

/-- A row that makes its port into `e` changes nothing else. -/
theorem State.onChip_ehran {s : State} {p : EPort} {f : Chip → Chip} {e : EhranPort}
    (h : f (s.chip.withEhran p (s.chip.ehran.get p)) = s.chip.withEhran p e) :
    s.onChip f = .next { s with chip.ehran := s.chip.ehran.set p e } := by
  rw [Chip.withEhran_self] at h
  exact State.onChip_eq h

theorem State.Selected.selected {s : State} {p : EPort} (h : s.Selected p) : (s.chip.withEhran p (s.chip.ehran.get p)).selected p = true := by
  rw [Chip.withEhran_self, Chip.selected, h.1, h.2, Bool.and_self]

/-! ### Cycles and levels while no packet is open (R74, R82) -/

/-- The port after a stray transfer with En_FRM low. -/
def EhranPort.strayed (e : EhranPort) (w : W16) : EhranPort :=
  { e with frm := false, armed := true, xferIn := e.xferIn + 1, stray := e.stray + 1, lastViol := 3, wave := cycleSteps false false false w }

/-- The port after a 16-bit transfer that begins a packet in a receive buffer with room. -/
def EhranPort.opened (e : EhranPort) (w : W16) : EhranPort :=
  { e with xferIn := e.xferIn + 1, rxOpen := true, armed := false, frm := true, rx := [w.extractLsb' 0 8, w.extractLsb' 8 8], rxLong := false,
           wave := cycleSteps true true true w }

/-- En_FRM high before it has been seen low begins no packet: the transfer is a stray. -/
theorem EhranPort.writeHigh_unarmed {e : EhranPort} (ho : e.rxOpen = false) (ha : e.armed = false) (w : W16) :
    e.writeHigh w = { e with frm := true, xferIn := e.xferIn + 1, stray := e.stray + 1, lastViol := 3 } := by
  simp [EhranPort.writeHigh, ho, ha, EhranPort.strayIn]

/-- En_FRM high after it has been seen low begins one. -/
theorem EhranPort.writeHigh_begins {e : EhranPort} (ho : e.rxOpen = false) (ha : e.armed = true) (w : W16) :
    e.writeHigh w = (EhranPort.openPacket { e with frm := true }).receive w := by
  rw [EhranPort.writeHigh, ho, ha]
  rfl

/-- The first transfer of a packet is within its length, which its header does not tell yet. -/
theorem EhranPort.receive_first {e : EhranPort} (hr : e.rx = []) (hl : e.rxLong = false) (w : W16) :
    e.receive w = { e with xferIn := e.xferIn + 1, rx := e.bytesOf w } := by
  simp only [EhranPort.receive, hr, hl, EhranPort.bytesOf, List.length_nil, List.nil_append]
  simp

theorem EhranPort.openPacket_room {e : EhranPort} (hh : e.rxHeld < 2) : EhranPort.openPacket { e with frm := true }
    = { e with frm := true, rxOpen := true, armed := false, rx := [], rxLong := false } := if_neg (Nat.not_le.mpr hh)

/-- With room in the receive buffer, the first transfer opens the packet (R74). -/
theorem EhranPort.writeHigh_room {e : EhranPort} (ho : e.rxOpen = false) (ha : e.armed = true) (hw : e.width16 = true) (hh : e.rxHeld < 2) (w : W16) :
    { e.writeHigh w with wave := cycleSteps true true true w } = e.opened w := by
  rw [EhranPort.writeHigh_begins ho ha, EhranPort.openPacket_room hh, EhranPort.receive_first rfl rfl]
  simp only [EhranPort.bytesOf, hw, if_true, EhranPort.opened]

/-- With none, it takes the place that frees, and the wait is counted (R82 kind 7, R85). -/
theorem EhranPort.writeHigh_paced {e : EhranPort} (ho : e.rxOpen = false) (ha : e.armed = true) (hw : e.width16 = true) (hh : 2 ≤ e.rxHeld) (w : W16) :
    { e.writeHigh w with wave := cycleSteps true true true w }
      = { e.opened w with rxHeld := e.rxHeld - 1, pace := e.pace + 1, lastViol := 7 } := by
  have hp : EhranPort.openPacket { e with frm := true }
      = { e with frm := true, rxOpen := true, armed := false, rx := [], rxLong := false, rxHeld := e.rxHeld - 1, pace := e.pace + 1, lastViol := 7 } :=
    if_pos hh
  rw [EhranPort.writeHigh_begins ho ha, hp, EhranPort.receive_first rfl rfl]
  simp only [EhranPort.bytesOf, hw, if_true, EhranPort.opened]

section
variable {ch : Chip} {p : EPort} {e : EhranPort}

theorem Chip.endPacket_closed (ho : e.rxOpen = false) : (ch.withEhran p e).endPacket p = ch.withEhran p e := by
  simp only [Chip.endPacket, Chip.withEhran_get, ho, Bool.false_eq_true, not_false_eq_true, if_true]

theorem Chip.frmLow_closed (ho : e.rxOpen = false) : (ch.withEhran p e).frmLow p = ch.withEhran p { e with frm := false, armed := true } := by
  rw [Chip.frmLow, Chip.endPacket_closed ho, Chip.withEhran_modEhran]

theorem Chip.turn_toHost (ho : e.rxOpen = false) :
    (ch.withEhran p e).turn p true = ch.withEhran p { e with frm := false, armed := true, dir := true } := by
  simp only [Chip.turn, if_true, Chip.frmLow_closed ho, Chip.withEhran_modEhran]

theorem Chip.turn_toDevice : (ch.withEhran p e).turn p false = ch.withEhran p { e with dir := false } := by
  simp only [Chip.turn, Bool.false_eq_true, if_false, Chip.withEhran_modEhran]

/-- En_FRM low lets a packet begin. -/
theorem Chip.takeFrm_closed (ho : e.rxOpen = false) :
    (if e.frm then ch.withEhran p e else (ch.withEhran p e).frmLow p) = ch.withEhran p { e with armed := e.armed || !e.frm } := by
  rw [Chip.frmLow_closed ho]
  cases e with | mk sel dirPin frm =>
  cases frm <;> simp

/-- En_DIR counts, and hands En_FRM over low where it turns the port toward the host (R71). -/
theorem Chip.takeDir_closed (ho : e.rxOpen = false) :
    (if e.dir ≠ e.dirPin then (ch.withEhran p e).turn p e.dirPin else ch.withEhran p e) = ch.withEhran p { e with
      dir := e.dirPin, frm := e.frm && !(e.dirPin && !e.dir), armed := e.armed || (e.dirPin && !e.dir) } := by
  cases e with | mk sel dirPin frm dir =>
  dsimp only at ho
  cases dirPin <;> cases dir
  · simp
  · simp [Chip.turn_toDevice]
  · simp [Chip.turn_toHost, ho]
  · simp

/-- The levels that a port takes: En_DIR counts, and En_FRM low, or turned with the bus, lets a packet begin (R74). -/
theorem Chip.takeLevels_closed (ho : e.rxOpen = false) :
    (ch.withEhran p e).takeLevels p = ch.withEhran p { e with
      dir := e.dirPin, frm := e.frm && !(e.dirPin && !e.dir), armed := e.armed || !e.frm || (e.dirPin && !e.dir) } := by
  rw [← Chip.takeDir_closed (e := { e with armed := e.armed || !e.frm }) ho, ← Chip.takeFrm_closed ho]
  simp only [Chip.takeLevels, Chip.withEhran_get]

theorem Chip.cycle_high (hd : e.dir = false) (w : W16) :
    (ch.withEhran p e).cycle p true w = ch.withEhran p { e.writeHigh w with wave := cycleSteps true true true w } := by
  simp [Chip.cycle, hd, Chip.writeCycle]

theorem Chip.cycle_opens (hd : e.dir = false) (ho : e.rxOpen = false) (ha : e.armed = true) (hw : e.width16 = true) (hh : e.rxHeld < 2)
    (w : W16) : (ch.withEhran p e).cycle p true w = ch.withEhran p (e.opened w) :=
  (Chip.cycle_high hd w).trans (congrArg (ch.withEhran p) (EhranPort.writeHigh_room ho ha hw hh w))

theorem Chip.cycle_low (hd : e.dir = false) (ho : e.rxOpen = false) (w : W16) :
    (ch.withEhran p e).cycle p false w = ch.withEhran p (e.strayed w) := by
  simp [Chip.cycle, hd, Chip.writeCycle, Chip.frmLow_closed ho, EhranPort.strayIn, EhranPort.strayed]

/-! ### The rows of a port turned toward the device (R67, R71, R82, R83, R85) -/

variable (hs : (ch.withEhran p e).selected p = true)
include hs

theorem strayTransferEffect_selected (hd : e.dir = false) (frm : Bool) (w : W16) :
    strayTransferEffect p frm w (ch.withEhran p e) = (ch.withEhran p e).cycle p frm w := by
  simp [strayTransferEffect, hs, hd]

theorem earlyReleaseEffect_abandoned (hd : e.dir = false) (ho : e.rxOpen = false) (w : W16) :
    earlyReleaseEffect p false w false (ch.withEhran p e)
      = ch.withEhran p { e with frm := false, armed := true, early := e.early + 1, lastViol := 4, wave := abandonedSteps false w } := by
  simp [earlyReleaseEffect, hs, hd, Chip.frmLow_closed, ho]

/-- A cycle that completes at an early release leaves what it leaves, with the early edges, and counts kind 4 (R83). -/
theorem earlyReleaseEffect_completed {frm : Bool} {w : W16} {e1 : EhranPort}
    (h : (ch.withEhran p { e with early := e.early + 1 }).cycle p frm w = ch.withEhran p { e1 with wave := cycleSteps frm frm frm w }) :
    earlyReleaseEffect p frm w true (ch.withEhran p e) = ch.withEhran p { e1 with lastViol := 4, wave := earlySteps frm frm frm w } := by
  simp only [earlyReleaseEffect, hs, not_true_eq_false, if_false, if_true, Chip.withEhran_modEhran, h]
  rfl

theorem earlyReleaseEffect_stray (hd : e.dir = false) (ho : e.rxOpen = false) (w : W16) :
    earlyReleaseEffect p false w true (ch.withEhran p e)
      = ch.withEhran p { e.strayed w with early := e.early + 1, lastViol := 4, wave := earlySteps false false false w } :=
  earlyReleaseEffect_completed (e1 := EhranPort.strayed { e with early := e.early + 1 } w) hs (Chip.cycle_low (e := { e with early := e.early + 1 }) hd ho w)

theorem earlyReleaseEffect_opens (hd : e.dir = false) (ho : e.rxOpen = false) (ha : e.armed = true) (hw : e.width16 = true) (hh : e.rxHeld < 2)
    (w : W16) : earlyReleaseEffect p true w true (ch.withEhran p e)
      = ch.withEhran p { e.opened w with early := e.early + 1, lastViol := 4, wave := earlySteps true true true w } :=
  earlyReleaseEffect_completed (e1 := EhranPort.opened { e with early := e.early + 1 } w) hs
    (Chip.cycle_opens (e := { e with early := e.early + 1 }) hd ho ha hw hh w)

theorem directionGlitchEffect_low (hd : e.dir = false) (ho : e.rxOpen = false) (w : W16) :
    directionGlitchEffect p false w (ch.withEhran p e)
      = ch.withEhran p { e.strayed w with dirGlitch := e.dirGlitch + 1, lastViol := 5, dir := true, dirPin := true } := by
  have ht := Chip.turn_toHost (ch := ch) (p := p) (e := { e.strayed w with dirGlitch := e.dirGlitch + 1, lastViol := 5 }) ho
  simp only [directionGlitchEffect, hs, not_true_eq_false, if_false, Chip.cycle_low hd ho, Chip.withEhran_modEhran, Chip.withEhran_get, hd, Bool.not_false]
  exact (congrArg (fun c => c.modEhran p fun x => { x with dirPin := true }) ht).trans (Chip.withEhran_modEhran ..)

theorem selectGlitchEffect_low (hd : e.dir = false) (ho : e.rxOpen = false) (w : W16) :
    selectGlitchEffect p false w (ch.withEhran p e)
      = ch.withEhran p { e.strayed w with selGlitch := e.selGlitch + 1, lastViol := 6, sel := false } := by
  simp only [selectGlitchEffect, hs, not_true_eq_false, if_false, Chip.cycle_low hd ho, Chip.withEhran_modEhran]
  rfl

theorem turnaroundEffect_toHost (hd : e.dir = false) (ho : e.rxOpen = false) :
    turnaroundEffect p true (ch.withEhran p e) = ch.withEhran p { e with frm := false, armed := true, dir := true, dirPin := true } := by
  simp [turnaroundEffect, hs, hd, Chip.turn_toHost, ho]

theorem turnaroundEffect_toDevice (hd : e.dir = true) :
    turnaroundEffect p false (ch.withEhran p e) = ch.withEhran p { e with dir := false, dirPin := false } := by
  simp [turnaroundEffect, hs, hd, Chip.turn_toDevice]

theorem paceReleaseEffect_full (hd : e.dir = false) (ho : e.rxOpen = false) (ha : e.armed = true) (hw : e.width16 = true) (hh : 2 ≤ e.rxHeld)
    (w : W16) : paceReleaseEffect p w (ch.withEhran p e)
      = ch.withEhran p { e.opened w with rxHeld := e.rxHeld - 1, pace := e.pace + 1, lastViol := 7 } := by
  simp [paceReleaseEffect, hs, hd, EhranPort.begins, ho, ha, hh, Chip.cycle_high hd, EhranPort.writeHigh_paced ho ha hw hh]

/-- The transfers of a run arrive one after the other (R69). -/
theorem Chip.writeRun_selected (hd : e.dir = false) (run : WriteRun) :
    (ch.withEhran p e).writeRun p run
      = ch.withEhran p { run.words.foldl EhranPort.writeHigh (e.moveOn run.moved) with wave := run.words.flatMap (cycleSteps true true true) } := by
  simp [Chip.writeRun, hs, hd]

end

theorem portReselectEffect_closed {ch : Chip} {p : EPort} {e : EhranPort} (hon : (ch.withEhran p e).ehranOn p = true) (ho : e.rxOpen = false)
    (frm toHost : Bool) : portReselectEffect p frm toHost (ch.withEhran p e)
      = ch.withEhran p { e with
          sel := true, dir := toHost, dirPin := toHost, frm := frm && !toHost, armed := e.armed || toHost || !frm } := by
  rw [portReselectEffect, Chip.withEhran_modEhran, if_pos hon, Chip.takeLevels_closed (by exact ho)]
  cases toHost <;> simp

/-- Settles O16: with no packet open a cycle, a change of direction and a change of selection each make one new port of the old. -/
theorem ehranPinEvents : Obligations.EhranPinEvents := by
  intro s p w
  dsimp only
  refine ⟨fun hsel ho hd => ?_, fun hsel hd => State.onChip_ehran (turnaroundEffect_toDevice hsel.selected hd),
    fun hon ho frm toHost => State.onChip_ehran (portReselectEffect_closed ((Chip.withEhran_self ..).symm ▸ hon) ho frm toHost)⟩
  have hs := hsel.selected
  refine ⟨State.onChip_ehran ((strayTransferEffect_selected hs hd ..).trans (Chip.cycle_low hd ho w)), fun ha => State.onChip_ehran ?_,
    State.onChip_ehran (earlyReleaseEffect_abandoned hs hd ho w), State.onChip_ehran (earlyReleaseEffect_stray hs hd ho w),
    State.onChip_ehran (directionGlitchEffect_low hs hd ho w), State.onChip_ehran (selectGlitchEffect_low hs hd ho w),
    State.onChip_ehran (turnaroundEffect_toHost hs hd ho),
    fun ha hw => ⟨fun hh => State.onChip_ehran (earlyReleaseEffect_opens hs hd ho ha hw hh w),
      fun hh => State.onChip_ehran (paceReleaseEffect_full hs hd ho ha hw hh w)⟩, fun run => State.onChip_ehran ?_⟩
  · rw [strayTransferEffect_selected hs hd, Chip.cycle_high hd, EhranPort.writeHigh_unarmed ho ha]
  · rw [portDeselectEffect, Chip.writeRun_selected hs hd, Chip.withEhran_modEhran]
    rfl

end Sys2Proof.Machine
end

section
/-! SUPPORT. The replies of a port: their staging, and their reading at an Ehran port; and the settings an Ehran port adopts (R76, R77, R79–R81,
R86–R88, R148, R278). -/

namespace Sys2Proof.Machine

/-! ### The reply side of a port (R79, R80) -/

theorem Chip.replyOut_ehran (ch : Chip) (p : EPort) : ch.replyOut (EPort.port p) = (ch.ehran.get p).out := dif_pos p.isLt

theorem Chip.modReplyOut_frame (ch : Chip) (p : Port) (f : ReplyOut → ReplyOut) :
    ch.modReplyOut p f = { ch with ehran := (ch.modReplyOut p f).ehran, spi := (ch.modReplyOut p f).spi } := by
  unfold Chip.modReplyOut
  split <;> rfl

theorem Chip.replyOut_modReplyOut_self (ch : Chip) (p : Port) (f : ReplyOut → ReplyOut) : (ch.modReplyOut p f).replyOut p = f (ch.replyOut p) := by
  unfold Chip.modReplyOut Chip.replyOut
  split
  · exact congrArg EhranPort.out (vector_get_set_self ..)
  · rfl

theorem Chip.replyOut_modReplyOut_ne (ch : Chip) {p q : Port} (h : q ≠ p) (f : ReplyOut → ReplyOut) :
    (ch.modReplyOut p f).replyOut q = ch.replyOut q := by
  have hv : q.val ≠ p.val := fun e => h (Fin.ext e)
  unfold Chip.modReplyOut Chip.replyOut
  by_cases hp : p.val < 4 <;> by_cases hq : q.val < 4
  · rw [dif_pos hp, dif_pos hq, dif_pos hq]
    exact congrArg EhranPort.out (vector_get_set_ne _ _ _ _ fun e => hv (Fin.mk.inj e))
  · rw [dif_pos hp, dif_neg hq, dif_neg hq]
    rfl
  · rw [dif_neg hp, dif_pos hq, dif_pos hq]
  · omega

theorem Chip.BufferOnly.replyOut {a b : Chip} (h : a.BufferOnly b) (q : Port) : b.replyOut q = a.replyOut q := by
  obtain ⟨l, m, k, g, rfl⟩ := h
  rfl

/-! ### Staging from the RPL queue (R148, R278) -/

section
variable {ch : Chip} {p : Port} {i : Ctx} {r : Reply} {rest : List Reply} {slots : List Nat} {dm : Damage}
variable (hup : ch.portsUp p = true) (hen : ch.portEnabled p = true) (hst : (ch.replyOut p).staged.length < 2) (hnext : ch.nextStaged p = some i)
  (hold : (ch.ctxs.get i).oldest = some (0, r)) (hf : r.fetch = none)
include hup hen hst hnext hold hf

/-- A completion that heads its context's RPL queue: the row waits for the banks of its entry, and reads the entry before it stages it. -/
theorem replyStageEffect_rpl :
    replyStageEffect p slots dm ch =
      let entry := (slots.take 1).flatMap (ch.placeWords i 1)
      let seen := ch.readEntry 1 dm entry
      let c1 := seen.1.modCtx i (fun x => x.popReply 0)
      if ¬ entry.all ch.bankServes then ch
      else if seen.2 then c1.lostReply i 0 r
      else { c1.modReplyOut p (fun o => { o with staged := o.staged ++ [r] }) with rotor := c1.rotor.set p i.val } := by
  have hgo : ¬ (¬ (ch.portsUp p && ch.portEnabled p) ∨ 2 ≤ (ch.replyOut p).staged.length) := by simp [hup, hen, hst]
  simp only [replyStageEffect, if_neg hgo, hnext, hold, hf, if_true, List.flatten_nil, List.append_nil]

theorem replyStageEffect_unserved (h : ((slots.take 1).flatMap (ch.placeWords i 1)).all ch.bankServes = false) :
    replyStageEffect p slots dm ch = ch := by
  rw [replyStageEffect_rpl hup hen hst hnext hold hf]
  exact if_pos (by simp [h])

variable (hrpl : (ch.ctxs.get i).rpl = r :: rest) (hb : ((slots.take 1).flatMap (ch.placeWords i 1)).all ch.bankServes = true)
include hrpl hb

/-- An entry read without poison: its reply takes a place of the reply buffer, and the context is the one staged last (R148). -/
theorem replyStageEffect_staged (hok : (ch.readEntry 1 dm ((slots.take 1).flatMap (ch.placeWords i 1))).2 = false) :
    replyStageEffect p slots dm ch =
      ({ (ch.readEntry 1 dm ((slots.take 1).flatMap (ch.placeWords i 1))).1 with
          ctxs := ch.ctxs.set i { ch.ctxs.get i with rpl := rest }, rotor := ch.rotor.set p i.val } : Chip).modReplyOut p
        (fun o => { o with staged := o.staged ++ [r] }) := by
  rw [replyStageEffect_rpl hup hen hst hnext hold hf]
  dsimp only
  rw [if_neg (by simp [hb]), hok, if_neg Bool.false_ne_true]
  obtain ⟨l, m, k, g, h⟩ := ch.readEntry_bufferOnly 1 dm ((slots.take 1).flatMap (ch.placeWords i 1))
  rw [h]
  simp only [Chip.modCtx, Context.popReply, if_true, hrpl, List.drop_succ_cons, List.drop_zero]
  unfold Chip.modReplyOut
  split <;> rfl

/-- An entry read as poison: a completion ENGINE_FAULT of the present instant stands in the reply's place (R278, log entry 92). -/
theorem replyStageEffect_lost (hp : (ch.readEntry 1 dm ((slots.take 1).flatMap (ch.placeWords i 1))).2 = true) :
    replyStageEffect p slots dm ch = { (ch.readEntry 1 dm ((slots.take 1).flatMap (ch.placeWords i 1))).1 with
      ctxs := ch.ctxs.set i { ch.ctxs.get i with rpl := { r with stat := Stat.engineFault, payload := [], time := ch.now } :: rest } } := by
  rw [replyStageEffect_rpl hup hen hst hnext hold hf]
  dsimp only
  rw [if_neg (by simp [hb]), hp, if_pos rfl]
  obtain ⟨l, m, k, g, h⟩ := ch.readEntry_bufferOnly 1 dm ((slots.take 1).flatMap (ch.placeWords i 1))
  rw [h]
  simp only [Chip.lostReply, Chip.modCtx, Context.popReply, if_true, hrpl, List.drop_succ_cons, List.drop_zero, vector_get_set_self, vector_set_set, hf]
  rfl

end

/-! ### The transfers of a reply (R77) -/

namespace EhranPort
variable {e : EhranPort}

/-- How many transfers carry n bytes. -/
def transfersOf (e : EhranPort) (n : Nat) : Nat := if e.width16 then (n + 1) / 2 else n

/-- The words of the transfers that carry these bytes. -/
def replyWords (e : EhranPort) (bs : List Byte) : List W16 := e.transferWords (if e.width16 then 2 else 1) (e.transfersOf bs.length) bs

theorem transfersLeft (e : EhranPort) (n : Nat) :
    (n + (if e.width16 then 2 else 1) - 1) / (if e.width16 then 2 else 1) = e.transfersOf n := by
  unfold transfersOf
  split
  · rfl
  · exact Nat.div_one _

theorem two_le_transfersOf (e : EhranPort) {n : Nat} (h : 4 ≤ n) : 2 ≤ e.transfersOf n := by
  unfold transfersOf
  split <;> omega

theorem length_transferWords (step n : Nat) (bs : List Byte) : (e.transferWords step n bs).length = n := by
  induction n generalizing bs with
  | zero => rfl
  | succ n ih => exact congrArg Nat.succ (ih _)

theorem length_replyWords (e : EhranPort) (bs : List Byte) : (e.replyWords bs).length = e.transfersOf bs.length := length_transferWords ..

theorem bytesOf_transferWord_wide (hw : e.width16 = true) (bs : List Byte) : e.bytesOf (e.transferWord bs) = [byteAt bs 0, byteAt bs 1] := by
  simp only [bytesOf, transferWord, hw, if_true, BitVec.extractLsb'_append_eq_left, BitVec.extractLsb'_append_eq_right]

theorem bytesOf_transferWord_narrow (hw : e.width16 = false) (bs : List Byte) : e.bytesOf (e.transferWord bs) = [byteAt bs 0] := by
  simp only [bytesOf, transferWord, hw, Bool.false_eq_true, if_false, BitVec.extractLsb'_append_eq_right]

/-- On 16 bits the bytes go in pairs, low lane first, and 0x00 follows an odd last one. -/
theorem transferWords_wide (hw : e.width16 = true) : ∀ bs : List Byte,
    (e.transferWords 2 ((bs.length + 1) / 2) bs).flatMap e.bytesOf = bs ++ if bs.length % 2 = 1 then [0] else []
  | [] => rfl
  | [a] => by simp [transferWords, bytesOf_transferWord_wide hw, byteAt]
  | a :: b :: bs => by
    have h := transferWords_wide hw bs
    have hn : (bs.length + 1 + 1 + 1) / 2 = (bs.length + 1) / 2 + 1 := by omega
    have hm : (bs.length + 1 + 1) % 2 = bs.length % 2 := by omega
    rw [List.length_cons, List.length_cons, hn, hm, transferWords, List.flatMap_cons, List.drop_succ_cons, List.drop_succ_cons, List.drop_zero, h,
      bytesOf_transferWord_wide hw]
    rfl

/-- On 8 bits every transfer carries one. -/
theorem transferWords_narrow (hw : e.width16 = false) (bs : List Byte) : (e.transferWords 1 bs.length bs).flatMap e.bytesOf = bs := by
  induction bs with
  | nil => rfl
  | cons b bs ih =>
    rw [List.length_cons, transferWords, List.flatMap_cons, List.drop_succ_cons, List.drop_zero, ih,
      bytesOf_transferWord_narrow hw]
    rfl

/-- The host takes the reply's bytes, and 0x00 on the upper lane of an odd reply's last 16-bit transfer. -/
theorem replyWords_bytes (bs : List Byte) :
    (e.replyWords bs).flatMap e.bytesOf = bs ++ (if e.width16 ∧ bs.length % 2 = 1 then [0] else []) := by
  cases hw : e.width16
  · simp [replyWords, transfersOf, hw, transferWords_narrow hw]
  · simp [replyWords, transfersOf, hw, transferWords_wide hw]

end EhranPort

/-! ### En_FRM on the wire (R76, log entry 76) -/

/-- The edges of transfer number `x.2`, which carries `x.1`, of the k transfers of a reply. -/
def replyCycle (k : Nat) (x : W16 × Nat) : List BusStep := cycleSteps (decide (0 < x.2)) true (!decide (x.2 + 1 = k)) x.1

theorem cycleSteps_frames (before during after : Bool) (w : W16) :
    (cycleSteps before during after w).map (·.frm) = [before, during, during, after] := rfl

/-- From the second transfer on En_FRM is high, until it falls at the end of the last. -/
theorem replyCycle_frames_later (k : Nat) : ∀ (ws : List W16) (j : Nat), 0 < j → ws ≠ [] → j + ws.length = k →
    ((ws.zipIdx j).flatMap (replyCycle k)).map (·.frm) = List.replicate (4 * ws.length - 1) true ++ [false]
  | [w], j, hj, _, hk => by
    have hl : j + 1 = k := hk
    simp [replyCycle, cycleSteps_frames, hj, hl]
  | w :: v :: ws, j, hj, _, hk => by
    have hk' : j + 1 + (v :: ws).length = k := by rw [← hk, List.length_cons (a := w)]; omega
    have ih := replyCycle_frames_later k (v :: ws) (j + 1) (by omega) (by simp) hk'
    have hl : ¬ j + 1 = k := by simp at hk'; omega
    have hn : 4 * (w :: v :: ws).length - 1 = 4 + (4 * (v :: ws).length - 1) := by simp; omega
    rw [List.zipIdx_cons, List.flatMap_cons, List.map_append, ih, hn, List.replicate_add, List.append_assoc]
    simp [replyCycle, cycleSteps_frames, hj, hl]

/-- A reply of two transfers or more begins with En_FRM low, which rises within the first cycle and falls within the last. -/
theorem replyCycle_frames {ws : List W16} (h : 2 ≤ ws.length) :
    (ws.zipIdx.flatMap (replyCycle ws.length)).map (·.frm) = false :: List.replicate (4 * ws.length - 2) true ++ [false] := by
  match ws, h with
  | w :: v :: ws, _ =>
    have hr := replyCycle_frames_later (w :: v :: ws).length (v :: ws) 1 (by omega) (by simp) (by simp; omega)
    have hn : 4 * (w :: v :: ws).length - 2 = 3 + (4 * (v :: ws).length - 1) := by simp; omega
    rw [List.zipIdx_cons, List.flatMap_cons, List.map_append, hr, hn, List.replicate_add]
    simp [replyCycle, cycleSteps_frames]

/-- The edges of the transfers that carry a reply of these bytes. -/
def EhranPort.replyEdges (e : EhranPort) (bs : List Byte) : List BusStep := (e.replyWords bs).zipIdx.flatMap (replyCycle (e.transfersOf bs.length))

theorem EhranPort.replyEdges_frames {e : EhranPort} {bs : List Byte} (h : 4 ≤ bs.length) :
    (e.replyEdges bs).map (·.frm) = false :: List.replicate (4 * e.transfersOf bs.length - 2) true ++ [false] := by
  have hl := e.length_replyWords bs
  have hf := replyCycle_frames (ws := e.replyWords bs) (hl.symm ▸ e.two_le_transfersOf h)
  rwa [hl] at hf

/-! ### Reading a staged reply (R79–R81) -/

theorem replyBytes_length_le (r : Reply) (nibble : BitVec 4) : 8 ≤ (replyBytes r nibble).length := by
  unfold replyBytes
  split <;> simp <;> omega

/-- With no wire reply waiting and none partly read, a read presents the first staged reply. -/
theorem Chip.current_staged {ch : Chip} {p : Port} {r : Reply} {rest : List Reply} (hw : (ch.replyOut p).wire = [])
    (hs : (ch.replyOut p).staged = r :: rest) (hc : (ch.replyOut p).cur = none) :
    ch.current p = { source := .staged, bytes := replyBytes r (ch.nibbleFor r.ctx), done := 0 } := by
  simp only [Chip.current, Chip.present, hw, hs, hc]

section
variable {ch : Chip} {p : EPort} {r : Reply} {rest : List Reply}

/-- A reply read to its last transfer frees its place (R80). -/
theorem Chip.readTransfers_staged (hw : (ch.ehran.get p).out.wire = []) (hs : (ch.ehran.get p).out.staged = r :: rest)
    (hc : (ch.ehran.get p).out.cur = none) {bytes : List Byte} (hb : replyBytes r (ch.nibbleFor r.ctx) = bytes) {n : Nat}
    (hn : (ch.ehran.get p).transfersOf bytes.length ≤ n) :
    ch.readTransfers p n = ch.withEhran p { ch.ehran.get p with
      wave := (ch.ehran.get p).replyEdges bytes
      xferOut := (ch.ehran.get p).xferOut + BitVec.ofNat 32 ((ch.ehran.get p).transfersOf bytes.length)
      pktOut := (ch.ehran.get p).pktOut + 1
      out := { wire := [], staged := rest, cur := none, last := ((ch.ehran.get p).replyWords bytes).flatMap (ch.ehran.get p).bytesOf } } := by
  have h8 : 8 ≤ bytes.length := hb ▸ replyBytes_length_le ..
  have hcur : ch.current (EPort.port p) = { source := .staged, bytes := bytes, done := 0 } := by
    have ho := ch.replyOut_ehran p
    exact hb ▸ Chip.current_staged (ho ▸ hw) (ho ▸ hs) (ho ▸ hc)
  have h2 := (ch.ehran.get p).two_le_transfersOf (n := bytes.length) (by omega)
  have hn0 : n ≠ 0 := by omega
  simp only [Chip.readTransfers, if_neg hn0, hcur, Nat.sub_zero, EhranPort.transfersLeft, Nat.min_eq_right hn, if_true, List.drop_zero,
    ReplyOut.finished, Chip.modEhran, hw, hs, List.drop_succ_cons, decide_true, Bool.true_and, Nat.lt_irrefl, decide_false,
    Bool.false_or, reduceCtorEq, and_false, if_false]
  rfl

theorem ehranReplyReadEffect_staged (hon : ch.ehranOn p = true) (hsel : (ch.ehran.get p).sel = true) (hd : (ch.ehran.get p).dir = true)
    (hw : (ch.ehran.get p).out.wire = []) (hs : (ch.ehran.get p).out.staged = r :: rest) (hc : (ch.ehran.get p).out.cur = none)
    {bytes : List Byte} (hb : replyBytes r (ch.nibbleFor r.ctx) = bytes) {n : Nat} (hn : (ch.ehran.get p).transfersOf bytes.length ≤ n) :
    ehranReplyReadEffect p n ch = ch.withEhran p { ch.ehran.get p with
      wave := (ch.ehran.get p).replyEdges bytes
      xferOut := (ch.ehran.get p).xferOut + BitVec.ofNat 32 ((ch.ehran.get p).transfersOf bytes.length)
      pktOut := (ch.ehran.get p).pktOut + 1
      out := { wire := [], staged := rest, cur := none
               last := bytes ++ (if (ch.ehran.get p).width16 ∧ bytes.length % 2 = 1 then [0] else []) } } := by
  have hgo : (ch.selected p && (ch.ehran.get p).dir) = true := by simp [Chip.selected, hon, hsel, hd]
  rw [ehranReplyReadEffect, if_pos hgo, Chip.readTransfers_staged hw hs hc hb hn, EhranPort.replyWords_bytes]

end

/-! ### Port settings (R86–R88) -/

/-- The chip with port p's rate in force at Kettle become `r`. -/
def Chip.withRate (ch : Chip) (p : Port) (r : BitVec 6) : Chip := { ch with kettle.ports := ch.kettle.ports.set p r }

/-- A rate that raises nothing is in force at once, and no raise pends (R34, R88). -/
theorem Chip.declareRate_lower {ch : Chip} {p : Port} {r : BitVec 6} (hn : ch.kettle.raising = [])
    (hr : r.toNat ≤ (ch.kettle.ports.get p).toNat) : ch.declareRate p r = ch.withRate p r := by
  have hk : ch.modKettle (fun k => { k with raising := k.left (.port p r) }) = ch := by
    rw [Chip.modKettle, (Kettle.left_nil hn _).trans hn.symm]
  have hd : ch.declare (.port p r) none = (ch.withRate p r, .applied) := by
    refine (if_pos (by simp [Kettle.isRaise_port hr])).trans ?_
    exact congrArg (fun c : Chip => (c.modKettle fun k => k.apply (.port p r), Declared.applied)) hk
  rw [Chip.declareRate, hd]
  exact if_pos Declared.noConfusion

section
variable {ch : Chip} {p : EPort} {e : EhranPort} (hc : ch.power.core = true) (ho : e.rxOpen = false) (hn : ch.kettle.raising = [])
include hc ho hn

/-- At a boundary a port takes width, rate and enable; one that comes on then takes the levels of its pins (R86, R74). -/
theorem portConfigAdoptEffect_boundary {g : PortCfg} (hw : ch.wanted (EPort.port p) = g) (hg : g.enable = true) (hp : e.cfgPending = true)
    (hcur : e.out.cur = none) {r : BitVec 6} (hr : g.rate (if g.wide then 50 else 25) = r) (hle : r.toNat ≤ (ch.kettle.ports.get (EPort.port p)).toNat) :
    portConfigAdoptEffect p (ch.withEhran p e) =
      let c1 := (ch.withRate (EPort.port p) r).withEhran p { e with enabled := true, width16 := g.wide, cfgPending := false }
      if e.enabled then c1 else if c1.ehranOn p then c1.takeLevels p else c1 := by
  have hd : ((ch.withEhran p e).modEhran p fun e => { e with enabled := true, width16 := g.wide, cfgPending := false }).declareRate
      (EPort.port p) r = (ch.withRate (EPort.port p) r).withEhran p { e with enabled := true, width16 := g.wide, cfgPending := false } := by
    rw [Chip.withEhran_modEhran]
    exact Chip.declareRate_lower (ch := ch.withEhran p _) hn hle
  have hc' : (ch.withEhran p e).power.core = true := hc
  have hw' : (ch.withEhran p e).wanted (EPort.port p) = g := hw
  simp only [portConfigAdoptEffect, Chip.withEhran_get, hc', hw', ho, hp, hcur, hg, hr, Option.isNone_none, Bool.not_false, Bool.and_self,
    not_true_eq_false, and_false, or_false, if_false, if_true, ne_eq, decide_false, hd]

/-- A port whose settings say so goes off, with no packet open (R87). -/
theorem portDisableEffect_closed {g : PortCfg} (hw : ch.wanted (EPort.port p) = g) (hg : g.enable = false) (he : e.enabled = true) (moved : Nat) :
    portDisableEffect p ⟨moved, []⟩ (ch.withEhran p e) =
      (ch.withRate (EPort.port p) 0).withEhran p { e with
        enabled := false, cfgPending := decide (e.width16 ≠ g.wide), rxHeld := e.rxHeld - moved
        wave := if (ch.withEhran p e).selected p && !e.dir then [] else e.wave } := by
  have hrun : (ch.withEhran p e).writeRun p ⟨moved, []⟩ = ch.withEhran p { e with
      rxHeld := e.rxHeld - moved, wave := if (ch.withEhran p e).selected p && !e.dir then [] else e.wave } := by
    simp only [Chip.writeRun, Chip.withEhran_get, Chip.withEhran_modEhran]
    split <;> rfl
  have hgo : ¬ (¬ (ch.withEhran p e).power.core ∨ ¬ ((ch.withEhran p e).ehran.get p).enabled ∨ ((ch.withEhran p e).wanted (EPort.port p)).enable) := by
    have hc' : (ch.withEhran p e).power.core = true := hc
    have hw' : (ch.withEhran p e).wanted (EPort.port p) = g := hw
    simp [hc', hw', he, hg]
  have hw' : (ch.withEhran p e).wanted (EPort.port p) = g := hw
  rw [portDisableEffect, hrun, Chip.endPacket_closed (by exact ho), Chip.withEhran_modEhran]
  refine (if_neg hgo).trans ?_
  rw [hw']
  exact Chip.declareRate_lower (ch := ch.withEhran p _) hn (Nat.zero_le _)

end

/-! ### The obligation -/

/-- Settles O17: a reply is staged as its entry is read, a read to its last transfer frees its place, and a boundary lets new settings in. -/
theorem repliesAndPortSettings : Obligations.RepliesAndPortSettings := by
  intro s
  refine ⟨fun p i r rest slots damage hup hen hst hnext hold hrpl hf => ?_, fun p r rest n hsel => ?_, fun p hc ho hn => ?_⟩
  · dsimp only
    refine ⟨fun h => State.onChip_eq (replyStageEffect_unserved hup hen hst hnext hold hf h),
      fun hb hok => ⟨_, State.onChip_eq (replyStageEffect_staged hup hen hst hnext hold hf hrpl hb hok), ?_, ?_, fun q hq => ?_⟩,
      fun hb hlost => State.onChip_eq (replyStageEffect_lost hup hen hst hnext hold hf hrpl hb hlost)⟩
    · exact congrArg (fun c => { s with chip := c }) (Chip.modReplyOut_frame ..)
    · exact (Chip.replyOut_modReplyOut_self ..).trans (congrArg (fun o : ReplyOut => { o with staged := o.staged ++ [r] })
        ((s.chip.readEntry_bufferOnly ..).replyOut p))
    · exact (Chip.replyOut_modReplyOut_ne _ hq _).trans ((s.chip.readEntry_bufferOnly ..).replyOut q)
  · intro e bytes transfers hd hw hs hcur hle
    exact ⟨e.replyEdges bytes, EhranPort.replyEdges_frames (Nat.le_trans (by decide) (replyBytes_length_le ..)),
      State.onChip_eq (ehranReplyReadEffect_staged hsel.1 hsel.2 hd hw hs hcur rfl hle)⟩
  · intro e g r turned
    refine ⟨fun hg hp hcur hle => ?_, fun moved hg he => State.onChip_eq ?_⟩
    · have h := portConfigAdoptEffect_boundary hc ho hn rfl hg hp hcur rfl hle
      rw [Chip.withEhran_self] at h
      refine ⟨fun he => State.onChip_eq ((h.trans (if_pos he)).trans ?_), fun he hup => State.onChip_eq ((h.trans (if_neg (ne_true_of_eq_false he))).trans ?_)⟩
      · exact congrArg (fun b => (s.chip.withRate (EPort.port p) r).withEhran p { e with enabled := b, width16 := g.wide, cfgPending := false }) he.symm
      · refine (if_pos ?_).trans (Chip.takeLevels_closed ho)
        rw [Chip.ehranOn, Chip.withEhran_get]
        exact (Bool.and_true _).trans hup
    · have h := portDisableEffect_closed hc ho hn rfl hg he moved
      rw [Chip.withEhran_self] at h
      exact h

end Sys2Proof.Machine
end

section
/-! SUPPORT. A packet that passes every check of Table 5-4: its transfers at an Ehran port, its judgement, and its admission from there and from
port S (R74, R75, R77, R85, R97, R127). -/

namespace Sys2Proof.Machine

/-! ### The header tells the length (R75) -/

/-- Bytes after a whole header do not change the length that it tells. -/
theorem packetExpected_append {a : List Byte} (h : 8 ≤ a.length) (b : List Byte) : packetExpected (a ++ b) = packetExpected a := by
  have h6 : byteAt (a ++ b) 6 = byteAt a 6 := by rw [byteAt, byteAt, List.getElem?_append_left (by omega)]
  have hl : hdrLength (a ++ b) = hdrLength a := by
    simp only [hdrLength, leAt]
    rw [List.drop_append_of_le_length (by omega), List.take_append_of_le_length (by rw [List.length_drop]; omega)]
  rw [packetExpected, packetExpected, hdrPcrc, hdrPcrc, h6, hl]

/-! ### The transfers of a packet (R74, R75, R77) -/

namespace EhranPort
variable {e : EhranPort}

/-- A transfer within the packet's length adds its bytes. -/
theorem receive_within {bs : List Byte} {w : W16} (hl : e.rxLong = false)
    (hb : (e.rx ++ e.bytesOf w ++ bs).length ≤ e.wireLength (packetExpected (e.rx ++ e.bytesOf w ++ bs))) :
    e.receive w = { e with xferIn := e.xferIn + 1, rx := e.rx ++ e.bytesOf w } := by
  have hnot : ¬ (8 ≤ e.rx.length ∧ hdrLength (e.rx ++ e.bytesOf w) ≤ 4096 ∧
      e.wireLength (packetExpected (e.rx ++ e.bytesOf w)) < (e.rx ++ e.bytesOf w).length) := by
    rintro ⟨h8, -, hlt⟩
    rw [packetExpected_append (by rw [List.length_append]; omega)] at hb
    rw [List.length_append (bs := bs)] at hb
    omega
  unfold receive
  dsimp only
  rw [if_neg (by simp [hl])]
  exact if_neg hnot

theorem writeHigh_open (ho : e.rxOpen = true) (hf : e.frm = true) (w : W16) : e.writeHigh w = e.receive w := by
  rw [writeHigh, if_pos ho, ← hf]

/-- The transfers of an open packet, all within its length. -/
theorem writeHigh_within (ws : List W16) : ∀ e : EhranPort, e.rxOpen = true → e.frm = true → e.rxLong = false →
    (e.rx ++ ws.flatMap e.bytesOf).length ≤ e.wireLength (packetExpected (e.rx ++ ws.flatMap e.bytesOf)) →
    ws.foldl writeHigh e = { e with xferIn := e.xferIn + BitVec.ofNat 32 ws.length, rx := e.rx ++ ws.flatMap e.bytesOf } := by
  induction ws with
  | nil => intro e _ _ _ _; simp
  | cons w ws ih =>
    intro e ho hf hl hb
    have hb' : e.rx ++ (w :: ws).flatMap e.bytesOf = e.rx ++ e.bytesOf w ++ ws.flatMap e.bytesOf := by simp
    rw [hb'] at hb ⊢
    have hw : e.writeHigh w = { e with xferIn := e.xferIn + 1, rx := e.rx ++ e.bytesOf w } := by
      rw [writeHigh_open ho hf, receive_within hl hb]
    have hx : e.xferIn + 1 + BitVec.ofNat 32 ws.length = e.xferIn + BitVec.ofNat 32 (w :: ws).length := by
      rw [List.length_cons, Nat.add_comm, BitVec.ofNat_add, BitVec.add_assoc]
      rfl
    rw [List.foldl_cons, hw]
    exact (ih { e with xferIn := e.xferIn + 1, rx := e.rx ++ e.bytesOf w } ho hf hl hb).trans
      (congrArg (fun x => { e with xferIn := x, rx := e.rx ++ e.bytesOf w ++ ws.flatMap e.bytesOf }) hx)

/-- The port with the transfers of a packet received, and the packet open. -/
def received (e : EhranPort) (ws : List W16) : EhranPort :=
  { e with frm := true, rxOpen := true, armed := false, rxLong := false, xferIn := e.xferIn + BitVec.ofNat 32 ws.length, rx := ws.flatMap e.bytesOf }

/-- The transfers of a whole packet that begins in a receive buffer with room. -/
theorem writeHigh_packet {ws : List W16} (ho : e.rxOpen = false) (ha : e.armed = true) (hh : e.rxHeld < 2) (hne : ws ≠ [])
    (hb : (ws.flatMap e.bytesOf).length ≤ e.wireLength (packetExpected (ws.flatMap e.bytesOf))) :
    ws.foldl writeHigh e = e.received ws := by
  obtain ⟨w, ws, rfl⟩ := List.exists_cons_of_ne_nil hne
  have hw : e.writeHigh w = writeHigh { e with frm := true, rxOpen := true, armed := false, rx := [], rxLong := false } w := by
    rw [writeHigh_begins ho ha, openPacket_room hh, writeHigh_open rfl rfl]
  rw [List.foldl_cons, hw, ← List.foldl_cons, writeHigh_within (w :: ws) { e with frm := true, rxOpen := true, armed := false, rx := [], rxLong := false } rfl rfl rfl hb]
  rfl

/-- The port when the packet has ended and been taken: it fills a place of the receive buffer. -/
def closed (e : EhranPort) (ws : List W16) : EhranPort :=
  { e with xferIn := e.xferIn + BitVec.ofNat 32 ws.length, pktIn := e.pktIn + 1, rxHeld := e.rxHeld + 1
           wave := ws.flatMap (cycleSteps true true true), frm := false }

/-- A port that waits for a packet, with nothing of one received. -/
theorem awaiting (ho : e.rxOpen = false) (ha : e.armed = true) (hr : e.rx = []) (hl : e.rxLong = false) :
    { e with rxOpen := false, armed := true, rx := [], rxLong := false } = e := by
  cases e
  dsimp only at ho ha hr hl
  subst ho ha hr hl
  rfl

/-- Nothing else is left of the packet at its port. -/
theorem received_closed (ho : e.rxOpen = false) (ha : e.armed = true) (hr : e.rx = []) (hl : e.rxLong = false) (ws : List W16) :
    { e.received ws with
      rxOpen := false, rx := [], rxLong := false, pktIn := e.pktIn + 1, rxHeld := e.rxHeld + 1
      wave := ws.flatMap (cycleSteps true true true), frm := false, armed := true } = e.closed ws :=
  congrArg (fun x : EhranPort => x.closed ws) (awaiting ho ha hr hl)

end EhranPort

/-! ### Admission (R127, Table 5-4) -/

/-- A merge buffer without entries has nothing to flush (R283). -/
theorem Chip.flushBuffer_empty {ch : Chip} {b : Fin 9} (h : ch.merge.get b = []) (dm : Damage) : ch.flushBuffer b dm = ch := by
  rw [Chip.flushBuffer, Chip.flushWhere, h]
  simp only [List.filter_nil, List.foldl_nil]
  rw [← h, vector_set_get]

/-- The chip after `c` has joined its context's CMD queue from port p, and has been counted (R127, R129). -/
def Chip.admitted (ch : Chip) (p : Port) (c : Cmd) : Chip :=
  { ch with
    ctxs := ch.ctxs.set c.ctx { ch.ctxs.get c.ctx with
      cmd := (ch.ctxs.get c.ctx).cmd ++ [c], cmdAt := (ch.ctxs.get c.ctx).cmdAt ++ [ch.now] }
    sieve := ch.sieve.set p { ch.sieve.get p with admitted := (ch.sieve.get p).admitted + 1 } }

theorem Chip.sieve4to16_admitted {ch : Chip} {p : Port} {bs : List Byte} {c : Cmd} (h : ch.check p bs = .inr c)
    (ho : (ch.ctxs.get c.ctx).isOpen = true) (hr : c.op ≠ .ctxReset) : ch.sieve4to16 p bs = ch.admitted p c := by
  simp only [Chip.sieve4to16, h]
  rw [Chip.place]
  simp [ho, hr]
  rfl

/-- A port that keeps its replies leaves those of every port. -/
theorem Chip.replyOut_sameOut {ch : Chip} {p : EPort} {e : EhranPort} (h : e.out = (ch.ehran.get p).out) (q : Port) :
    (ch.withEhran p e).replyOut q = ch.replyOut q := by
  unfold Chip.replyOut
  split
  · rename_i hq
    by_cases hp : (⟨q.val, hq⟩ : EPort) = p
    · rw [hp, Chip.withEhran_get, h]
    · exact congrArg EhranPort.out (vector_get_set_ne _ _ _ _ hp)
  · rfl

/-- Sieve's checks look at a port for its waiting completions alone (R492). -/
theorem Chip.check_congr {a b : Chip} (hp : a.phase = b.phase) (hx : a.ctxs = b.ctxs) (hk : a.cook = b.cook) (hq : a.openQ = b.openQ)
    (hr : ∀ q, a.replyOut q = b.replyOut q) (p : Port) (bs : List Byte) : a.check p bs = b.check p bs := by
  have ho : ∀ i, a.outstanding i = b.outstanding i := fun i => by simp only [Chip.outstanding, hx, hr]
  simp only [Chip.check, hp, hx, hk, ho, Chip.openUsed, hq]
  rfl

theorem Chip.check_sameOut {ch : Chip} {p : EPort} {e : EhranPort} (h : e.out = (ch.ehran.get p).out) (q : Port) (bs : List Byte) :
    (ch.withEhran p e).check q bs = ch.check q bs :=
  Chip.check_congr (a := ch.withEhran p e) (b := ch) rfl rfl rfl rfl (Chip.replyOut_sameOut h) q bs

theorem Chip.admitted_withEhran (ch : Chip) (p : EPort) (e : EhranPort) (q : Port) (c : Cmd) :
    (ch.withEhran p e).admitted q c = (ch.admitted q c).withEhran p e := rfl

/-! ### The end of a packet (R74, R75, R127) -/

section
variable {ch : Chip} {p : EPort} {e : EhranPort} {c : Cmd}

/-- An open packet of its expected length that passes Sieve's checks is admitted, and fills a place of the receive buffer (R85). -/
theorem Chip.endPacket_admitted (hm : ch.merge.get (Fin.castLE (by omega) p) = []) (ho : e.rxOpen = true) (hl : e.rxLong = false)
    (h8 : 8 ≤ e.rx.length) (hh : hdrLength e.rx ≤ 4096) (hx : e.rx.length = e.wireLength (packetExpected e.rx)) (hout : e.out = (ch.ehran.get p).out)
    (hk : ch.check (EPort.port p) (e.rx.take (packetExpected e.rx)) = .inr c) (hopen : (ch.ctxs.get c.ctx).isOpen = true) (hr : c.op ≠ .ctxReset) :
    (ch.withEhran p e).endPacket p = (ch.admitted (EPort.port p) c).withEhran p { e with
      rxOpen := false, rx := [], rxLong := false, pktIn := e.pktIn + 1, rxHeld := e.rxHeld + 1 } := by
  have hf : (ch.withEhran p e).flushBuffer (Fin.castLE (by omega) p) [] = ch.withEhran p e :=
    Chip.flushBuffer_empty (ch := ch.withEhran p e) hm []
  have hc : (ch.withEhran p { e with rxOpen := false, rx := [], rxLong := false, pktIn := e.pktIn + 1, rxHeld := e.rxHeld + 1 }).check
      (EPort.port p) (e.rx.take (packetExpected e.rx)) = .inr c := by
    rw [Chip.check_sameOut (by exact hout)]
    exact hk
  simp only [Chip.endPacket, Chip.withEhran_get, hf, Chip.withEhran_modEhran]
  rw [if_neg (by simp [ho]), if_neg (by omega), if_neg (by omega), if_neg (by simp [hl]), if_neg (by omega)]
  rw [Chip.sieve4to16_admitted hc hopen hr, Chip.admitted_withEhran]

/-- The transfers of the packet, and then En_FRM low or En_DIR toward the host (R74). -/
theorem ehranPacketEndEffect_admitted {words : List W16} (hs : (ch.withEhran p e).selected p = true)
    (hm : ch.merge.get (Fin.castLE (by omega) p) = []) (hd : e.dir = false) (ho : e.rxOpen = false) (ha : e.armed = true) (hh : e.rxHeld < 2)
    (hrx : e.rx = []) (hlong : e.rxLong = false) (h8 : 8 ≤ (words.flatMap e.bytesOf).length) (hl : hdrLength (words.flatMap e.bytesOf) ≤ 4096)
    (hx : (words.flatMap e.bytesOf).length = e.wireLength (packetExpected (words.flatMap e.bytesOf))) (hout : e.out = (ch.ehran.get p).out)
    (hk : ch.check (EPort.port p) ((words.flatMap e.bytesOf).take (packetExpected (words.flatMap e.bytesOf))) = .inr c)
    (hopen : (ch.ctxs.get c.ctx).isOpen = true) (hr : c.op ≠ .ctxReset) (how : PacketEnd) :
    ehranPacketEndEffect p ⟨0, words⟩ how (ch.withEhran p e) = (ch.admitted (EPort.port p) c).withEhran p { e.closed words with
      dir := decide (how = .direction), dirPin := e.dirPin || decide (how = .direction) } := by
  have hne : words ≠ [] := by rintro rfl; simp at h8
  have hrun : (ch.withEhran p e).writeRun p ⟨0, words⟩
      = ch.withEhran p { e.received words with wave := words.flatMap (cycleSteps true true true) } :=
    (Chip.writeRun_selected hs hd _).trans (congrArg (fun x : EhranPort => ch.withEhran p { x with wave := words.flatMap (cycleSteps true true true) })
      (EhranPort.writeHigh_packet ho ha hh hne (Nat.le_of_eq hx)))
  have hlow : ((ch.withEhran p e).writeRun p ⟨0, words⟩).frmLow p = (ch.admitted (EPort.port p) c).withEhran p (e.closed words) := by
    rw [hrun, Chip.frmLow, Chip.endPacket_admitted (e := { e.received words with wave := _ }) hm rfl rfl h8 hl hx hout hk hopen hr,
      Chip.withEhran_modEhran]
    exact congrArg ((ch.admitted (EPort.port p) c).withEhran p) (EhranPort.received_closed ho ha hrx hlong words)
  have hgo : ¬ ¬ ((ch.withEhran p e).selected p && !((ch.withEhran p e).ehran.get p).dir) = true := by simp [hs, hd]
  unfold ehranPacketEndEffect
  refine (if_neg hgo).trans ?_
  cases how with
  | frame =>
    exact hlow.trans (congrArg₂ (fun a b => (ch.admitted (EPort.port p) c).withEhran p { e.closed words with dir := a, dirPin := b })
      hd (Bool.or_false _).symm)
  | direction =>
    simp only [Chip.turn, if_true, hlow, Chip.withEhran_modEhran, decide_true, Bool.or_true]

end

/-! ### Port S (R96, R97) -/

section
variable {ch : Chip} {v : SpiPort} {c : Cmd}

/-- The chip with port S become `v`. -/
def Chip.withSpi (ch : Chip) (v : SpiPort) : Chip := { ch with spi := v }

/-- S_CS# falls with room in the receive buffer (R102). -/
theorem Chip.beginXact_room (hc : ch.spi.cs = none) (hr : ch.spi.rxHeld < 2) :
    ch.beginXact 0 = ch.withSpi { ch.spi with door := ch.doorByte true, cs := some true } := by
  have hroom : ch.spi.room = true := decide_eq_true hr
  have h : ch.beginXact 0 = if ch.spi.cs.isSome then ch else ch.csFall := rfl
  rw [h, hc, if_neg (by simp), Chip.csFall, hroom]
  rfl

/-- A body of its expected length that passes Sieve's checks is admitted, and fills a place of the receive buffer (R97, R127). -/
theorem Chip.packetIn_admitted {body : List Byte} (hm : ch.merge.get 4 = []) (hcs : v.cs = some true) (h8 : 8 ≤ body.length)
    (hh : hdrLength body ≤ 4096) (hx : body.length = packetExpected body) (hout : v.out = ch.spi.out) (hk : ch.check 4 body = .inr c)
    (hopen : (ch.ctxs.get c.ctx).isOpen = true) (hr : c.op ≠ .ctxReset) :
    (ch.withSpi v).packetIn body false = (ch.admitted 4 c).withSpi { v with xactIn := v.xactIn + 1, rxHeld := v.rxHeld + 1 } := by
  have hf : (ch.withSpi v).flushBuffer 4 [] = ch.withSpi v := Chip.flushBuffer_empty (ch := ch.withSpi v) hm []
  have hne : ¬ body.isEmpty = true := by rw [List.isEmpty_iff]; rintro rfl; simp at h8
  have hro : ∀ q, (ch.withSpi { v with xactIn := v.xactIn + 1, rxHeld := v.rxHeld + 1 }).replyOut q = ch.replyOut q := fun q => by
    unfold Chip.replyOut
    split
    · rfl
    · exact hout
  have hc : (ch.withSpi { v with xactIn := v.xactIn + 1, rxHeld := v.rxHeld + 1 }).check portS body = .inr c :=
    (Chip.check_congr (a := ch.withSpi { v with xactIn := v.xactIn + 1, rxHeld := v.rxHeld + 1 }) (b := ch) rfl rfl rfl rfl hro portS body).trans hk
  have hcs' : ¬ (ch.withSpi v).spi.cs ≠ some true := not_not.mpr hcs
  rw [Chip.packetIn, if_neg hne, hf]
  dsimp only
  rw [if_neg hcs', if_neg Bool.false_ne_true, if_neg (by omega), if_neg (by omega), if_neg (by omega), if_neg (by omega)]
  exact Chip.sieve4to16_admitted hc hopen hr

theorem spiPacketInEffect_admitted {body : List Byte} (hon : ch.spiOn = true) (hc : ch.spi.cs = none) (hroom : ch.spi.rxHeld < 2)
    (hm : ch.merge.get 4 = []) (h8 : 8 ≤ body.length) (hh : hdrLength body ≤ 4096) (hx : body.length = packetExpected body)
    (hk : ch.check 4 body = .inr c) (hopen : (ch.ctxs.get c.ctx).isOpen = true) (hr : c.op ≠ .ctxReset) :
    spiPacketInEffect 0 body false false ch = (ch.admitted 4 c).withSpi { ch.spi with
      door := ch.doorByte true, rxHeld := ch.spi.rxHeld + 1, xactIn := ch.spi.xactIn + 1 } := by
  have hp := Chip.packetIn_admitted (ch := ch) (v := { ch.spi with door := ch.doorByte true, cs := some true }) hm rfl h8 hh hx rfl hk hopen hr
  have ht : (ch.beginXact 0).transaction 0x5A body false 0 = (ch.beginXact 0).packetIn body false := rfl
  rw [spiPacketInEffect, if_pos hon, ht, Chip.beginXact_room hc hroom, hp]
  exact congrArg (fun x => (ch.admitted 4 c).withSpi { ch.spi with
    cs := x, door := ch.doorByte true, rxHeld := ch.spi.rxHeld + 1, xactIn := ch.spi.xactIn + 1 }) hc.symm

end

/-- Settles O18: the transfers of the packet leave it whole in its port, and its end, or that of port S's transaction, admits its command. -/
theorem packetsAreAdmitted : Obligations.PacketsAreAdmitted := by
  intro s c hopen hop
  refine ⟨fun p words how hsel => ?_, fun bytes hon hc hroom hm h8 hh hx hk =>
    State.onChip_eq (spiPacketInEffect_admitted hon hc hroom hm h8 hh hx hk hopen hop)⟩
  intro e bytes hd ho ha hh hr hl hm h8 hlen hx hk
  have h := ehranPacketEndEffect_admitted hsel.selected hm hd ho ha hh hr hl h8 hlen hx rfl hk hopen hop how
  rw [Chip.withEhran_self] at h
  exact State.onChip_eq h

end Sys2Proof.Machine
end

section
/-! SUPPORT. Whole transactions of the I2C port on KETTLE_LIMITS: its bytes, plain writes and reads, those under PEC, a time-out, and a
transaction that calls another address (R106, R109–R113). -/

namespace Sys2Proof.Machine

/-! ### KETTLE_LIMITS in bytes (Table 2-5) -/

/-- The four bytes of KETTLE_LIMITS. -/
def Kettle.limitsBytes (k : Kettle) : List Byte := [k.vminCode.setWidth 8, k.vmaxCode.setWidth 8, 0, 0]

/-- The codes that a write of KETTLE_LIMITS brings, from the bytes of its data. -/
theorem wordAt_limits (b0 b1 b2 b3 : Byte) :
    (wordAt [b0, b1, b2, b3] 0).extractLsb' 0 7 = b0.setWidth 7 ∧ (wordAt [b0, b1, b2, b3] 0).extractLsb' 8 7 = b1.setWidth 7 := by
  have h0 := b0.isLt
  have h1 := b1.isLt
  have hw : (wordAt [b0, b1, b2, b3] 0).toNat = (b0.toNat + 256 * (b1.toNat + 256 * (b2.toNat + 256 * b3.toNat))) % 2 ^ 32 := by
    simp [wordAt, leAt, leNat]
  constructor <;> apply BitVec.eq_of_toNat_eq <;> simp only [BitVec.extractLsb'_toNat, BitVec.toNat_setWidth, hw, Nat.shiftRight_eq_div_pow] <;> omega

theorem Chip.readReg_kettleLimits (ch : Chip) : leBytes 4 (ch.readReg 0x0104).toNat = ch.kettle.limitsBytes := by
  have h0 := ch.kettle.vminCode.isLt
  have h1 := ch.kettle.vmaxCode.isLt
  have hr : ch.readReg 0x0104 = fields [(ch.kettle.vminCode.toNat, 0), (ch.kettle.vmaxCode.toNat, 8)] := rfl
  have hn : (ch.readReg 0x0104).toNat = ch.kettle.vminCode.toNat + 256 * ch.kettle.vmaxCode.toNat := by
    rw [hr]
    simp [fields]
    omega
  rw [hn, Kettle.limitsBytes]
  simp only [leBytes, List.cons.injEq, and_true]
  refine ⟨?_, ?_, ?_, ?_⟩ <;> apply BitVec.eq_of_toNat_eq <;> simp <;> omega

/-- The chip with these codes in KETTLE_LIMITS, and the port's pointer behind it. -/
def Chip.withLimits (ch : Chip) (b0 b1 : Byte) : Chip :=
  (ch.modKettle fun k => { k with vminCode := b0.setWidth 7, vmaxCode := b1.setWidth 7 }).pointAt 0x0108

/-- The data of a write at KETTLE_LIMITS (R109). -/
theorem Chip.writeRegs_kettleLimits (ch : Chip) (b0 b1 b2 b3 : Byte) : Chip.writeRegs 0x0104 [b0, b1, b2, b3] ch = ch.withLimits b0 b1 := by
  obtain ⟨h0, h1⟩ := wordAt_limits b0 b1 b2 b3
  have hw : ∀ c : Chip, c.writeReg (0x0104 : W16).toNat (wordAt [b0, b1, b2, b3] 0)
      = c.modKettle fun k => { k with vminCode := b0.setWidth 7, vmaxCode := b1.setWidth 7 } := fun c => by
    rw [← h0, ← h1]
    exact Chip.writeReg_kettleLimits c _
  rw [Chip.writeRegs, hw]
  rfl

/-- The port delivers KETTLE_LIMITS from its pointer there (R108, R109). -/
theorem Chip.readBytes_kettleLimits (ch : Chip) : Chip.readBytes 4 none (ch.pointAt 0x0104) = (ch.pointAt 0x0108, ch.kettle.limitsBytes) := by
  refine (Chip.readBytes_register ch (p := 0x0104) (by decide) 0 (by simp)).trans ?_
  rw [show (ch.pointAt 0x0104).fetchReg (0x0104 : W16).toNat = (ch.pointAt 0x0104, (ch.pointAt 0x0104).readReg 0x0104) from rfl]
  dsimp only
  rw [Chip.readReg_kettleLimits]
  rfl

/-! ### Whom the port answers (R106) -/

theorem State.Reached.answers_own {s : State} (h : s.Reached) : s.chip.i2cAnswers s.chip.i2c.addr = true := by simp [Chip.i2cAnswers, h]

theorem Chip.i2cAnswers_other {ch : Chip} {b : BitVec 7} (hb : b ≠ ch.i2c.addr) : ch.i2cAnswers b = false := by simp [Chip.i2cAnswers, hb]

theorem exec_i2cWrite_other {s : State} {b : BitVec 7} (hb : b ≠ s.chip.i2c.addr) (parts : List (List Byte)) :
    exec (.i2cWrite b parts) s = .next { s with chip.i2c.acked := false, chip.i2c.out := [] } := by
  refine State.onChip_eq (f := fun ch => ch.i2cWriting b parts) ?_
  rw [Chip.i2cWriting, Chip.i2cAnswers_other hb]
  rfl

theorem exec_i2cRead_other {s : State} {b : BitVec 7} (hb : b ≠ s.chip.i2c.addr) (parts : List (List Byte)) (n : Nat) :
    exec (.i2cRead b parts n) s = .next { s with chip.i2c.acked := false, chip.i2c.out := List.replicate n 0xFF } := by
  refine State.onChip_eq (f := fun ch => ch.i2cReading b parts n) ?_
  rw [Chip.i2cReading, Chip.i2cAnswers_other hb]
  rfl

/-! ### Without PEC (R109, R110, R112) -/

section
variable {s : State} (h : s.Reached) (hen : s.chip.i2c.pecOn = s.chip.i2c.pecEn) (hon : s.chip.i2c.pecOn = false)
include h hen hon

theorem exec_i2cWrite_kettleLimits (b0 b1 b2 b3 : Byte) :
    exec (.i2cWrite s.chip.i2c.addr [[0x04, 0x01, b0, b1, b2, b3]]) s = .next { s with
      chip.kettle.vminCode := b0.setWidth 7
      chip.kettle.vmaxCode := b1.setWidth 7
      chip.i2c.ptr := 0x0108
      chip.i2c.acked := true
      chip.i2c.xact := s.chip.i2c.xact + 1 } := by
  refine State.onChip_eq (f := fun ch => ch.i2cWriting s.chip.i2c.addr [[0x04, 0x01, b0, b1, b2, b3]]) ?_
  have hp : Chip.plainParts [[0x04, 0x01, b0, b1, b2, b3]] s.chip
      = (Chip.writeRegs 0x0104 [b0, b1, b2, b3] (s.chip.modI2c fun i => { i with acked := true }), true) := rfl
  rw [Chip.i2cWriting, if_neg (not_not_intro h.answers_own), if_neg (ne_true_of_eq_false hon), hp, Chip.writeRegs_kettleLimits,
    Chip.stopI2c_settled (by exact hen.symm)]
  simp only [Chip.withLimits, Chip.pointAt, Chip.modI2c, Chip.modKettle]

theorem exec_i2cRead_kettleLimits :
    exec (.i2cRead s.chip.i2c.addr [[0x04, 0x01]] 4) s = .next { s with
      chip.i2c.ptr := 0x0108
      chip.i2c.acked := true
      chip.i2c.out := s.chip.kettle.limitsBytes
      chip.i2c.xact := s.chip.i2c.xact + 1 } := by
  rw [exec_i2cRead_at h hon (by decide), show (0x01 : Byte) ++ (0x04 : Byte) = (0x0104 : W16) from rfl, Chip.readBytes_kettleLimits,
    Chip.stopI2c_settled (by exact hen.symm)]
  simp only [Chip.showI2c, Chip.pointAt, Chip.modI2c]

/-- A write abandoned after its pointer (R112). -/
theorem exec_i2cTimeout_pointer :
    exec (.i2cTimeout s.chip.i2c.addr [[0x04, 0x01]] none) s = .next { s with
      chip.i2c.ptr := 0x0104
      chip.i2c.acked := true
      chip.i2c.timeout := s.chip.i2c.timeout + 1 } := by
  refine State.onChip_eq ?_
  have hp : (Chip.plainParts [[0x04, 0x01]] s.chip).1 = (s.chip.modI2c fun i => { i with acked := true }).pointAt 0x0104 := rfl
  rw [i2cTimeoutEffect, if_neg (not_not_intro h.answers_own)]
  dsimp only
  rw [if_neg (ne_true_of_eq_false hon), hp]
  simp only [Chip.endI2c, Chip.pointAt, Chip.modI2c, ← hen]

end

/-! ### With PEC (R111, R113) -/

/-- The bytes on the wire before the PEC of a write of KETTLE_LIMITS. -/
def limitsWire (a : BitVec 7) (b0 b1 b2 b3 : Byte) : List Byte := [a ++ 0#1, 0x04, 0x01, b0, b1, b2, b3]

/-- A write of one register: its PEC decides whether the register is written or the write is discarded. -/
theorem Chip.pecWrite_kettleLimits (ch : Chip) (b0 b1 b2 b3 pec : Byte) :
    ch.pecWrite [[0x04, 0x01, b0, b1, b2, b3, pec]] =
      if crc8 (limitsWire ch.i2c.addr b0 b1 b2 b3) ≠ pec then (ch.pointAt 0x0104).pecDiscard false
      else ((ch.pointAt 0x0104).withLimits b0 b1).modI2c fun i => { i with pecErr := false, acked := true } := by
  have hc : ch.pecWrite [[0x04, 0x01, b0, b1, b2, b3, pec]] = ch.pecCommit [0x04, 0x01, b0, b1, b2, b3, pec] [] := rfl
  have hd : Chip.writeRegs 0x0104 [b0, b1, b2, b3] (ch.pointAt 0x0104) = (ch.pointAt 0x0104).withLimits b0 b1 :=
    Chip.writeRegs_kettleLimits ..
  rw [hc, ← hd, Chip.pecCommit, if_neg (by simp)]
  exact if_congr (by simp [limitsWire, I2cPort.addrW, byteAt]) rfl rfl

/-- A read of one register with its PEC takes the pointer, delivers the register and then the CRC-8 of all that went over the wire. -/
theorem Chip.pecRead_kettleLimits (ch : Chip) :
    ch.pecRead [[0x04, 0x01, 0x01]] 5 = Chip.showI2c (ch.pointAt 0x0108, ch.kettle.limitsBytes ++
      [crc8 ([ch.i2c.addr ++ 0#1, 0x04, 0x01, 0x01, ch.i2c.addr ++ 1#1] ++ ch.kettle.limitsBytes)]) := by
  have hc : ch.pecRead [[0x04, 0x01, 0x01]] 5 =
      let d := Chip.readBytes 4 none (ch.pointAt 0x0104)
      Chip.showI2c (d.1.modI2c (fun i => { i with overread := i.overread }),
        d.2 ++ [crc8 (ch.i2c.addrW :: ([0x04, 0x01, 0x01] ++ ch.i2c.addrR :: d.2))]) := rfl
  rw [hc, Chip.readBytes_kettleLimits]
  rfl

section
variable {s : State} (h : s.Reached) (hen : s.chip.i2c.pecOn = s.chip.i2c.pecEn) (hon : s.chip.i2c.pecOn = true)
include h hen hon

theorem exec_i2cPecWrite_kettleLimits {b0 b1 b2 b3 pec : Byte} (hpec : pec = crc8 (limitsWire s.chip.i2c.addr b0 b1 b2 b3)) :
    exec (.i2cPecWrite s.chip.i2c.addr [[0x04, 0x01, b0, b1, b2, b3, pec]]) s = .next { s with
      chip.kettle.vminCode := b0.setWidth 7
      chip.kettle.vmaxCode := b1.setWidth 7
      chip.i2c.ptr := 0x0108
      chip.i2c.acked := true
      chip.i2c.pecErr := false
      chip.i2c.xact := s.chip.i2c.xact + 1 } := by
  refine State.onChip_eq (f := fun ch => ch.i2cWriting s.chip.i2c.addr [[0x04, 0x01, b0, b1, b2, b3, pec]]) ?_
  rw [Chip.i2cWriting, if_neg (not_not_intro h.answers_own), if_pos hon, Chip.pecWrite_kettleLimits, if_neg (not_not_intro hpec.symm),
    Chip.stopI2c_settled (by exact hen.symm)]
  simp only [Chip.withLimits, Chip.pointAt, Chip.modI2c, Chip.modKettle]

/-- A write with a wrong PEC is discarded; its pointer stays at the register (R111; log entry 20). -/
theorem exec_i2cPecWrite_damaged {b0 b1 b2 b3 pec : Byte} (hpec : pec ≠ crc8 (limitsWire s.chip.i2c.addr b0 b1 b2 b3)) :
    exec (.i2cPecWrite s.chip.i2c.addr [[0x04, 0x01, b0, b1, b2, b3, pec]]) s = .next { s with
      chip.i2c.ptr := 0x0104
      chip.i2c.acked := true
      chip.i2c.pecErr := true
      chip.i2c.pec := s.chip.i2c.pec + 1
      chip.i2c.xact := s.chip.i2c.xact + 1 } := by
  refine State.onChip_eq (f := fun ch => ch.i2cWriting s.chip.i2c.addr [[0x04, 0x01, b0, b1, b2, b3, pec]]) ?_
  rw [Chip.i2cWriting, if_neg (not_not_intro h.answers_own), if_pos hon, Chip.pecWrite_kettleLimits, if_pos hpec.symm,
    Chip.stopI2c_settled (by exact hen.symm)]
  simp only [Chip.pecDiscard, Chip.pointAt, Chip.modI2c, Bool.false_eq_true, if_false]

theorem exec_i2cPecRead_kettleLimits :
    exec (.i2cPecRead s.chip.i2c.addr [[0x04, 0x01, 0x01]] 5) s = .next { s with
      chip.i2c.ptr := 0x0108
      chip.i2c.acked := true
      chip.i2c.out := s.chip.kettle.limitsBytes ++
        [crc8 ([s.chip.i2c.addr ++ 0#1, 0x04, 0x01, 0x01, s.chip.i2c.addr ++ 1#1] ++ s.chip.kettle.limitsBytes)]
      chip.i2c.xact := s.chip.i2c.xact + 1 } := by
  refine State.onChip_eq (f := fun ch => ch.i2cReading s.chip.i2c.addr [[0x04, 0x01, 0x01]] 5) ?_
  rw [Chip.i2cReading, if_neg (not_not_intro h.answers_own), if_pos hon, Chip.pecRead_kettleLimits,
    Chip.stopI2c_settled (by exact hen.symm)]
  simp only [Chip.showI2c, Chip.pointAt, Chip.modI2c]

end

/-- Settles O14: each transaction is the one row of the port's rule in force, and at another address no row of it. -/
theorem i2cTransactions : Obligations.I2cTransactions := by
  intro s h hen i a limits aw ar
  exact ⟨fun hon => ⟨exec_i2cWrite_kettleLimits h hen hon, exec_i2cRead_kettleLimits h hen hon, exec_i2cTimeout_pointer h hen hon⟩,
    fun hon => ⟨fun b0 b1 b2 b3 pec => ⟨exec_i2cPecWrite_kettleLimits h hen hon, exec_i2cPecWrite_damaged h hen hon⟩,
      exec_i2cPecRead_kettleLimits h hen hon⟩,
    fun b parts n hb => ⟨exec_i2cWrite_other hb parts, exec_i2cRead_other hb parts n⟩⟩

end Sys2Proof.Machine
end

section
/-! SUPPORT. Port S: the two ends of a transaction, the transactions that read no reply, a whole staged reply read, and the settings that the
port adopts (R96–R103). -/

namespace Sys2Proof.Machine

/-! ### A transaction from the fall of S_CS# to its rise (R96, R102) -/

section
variable {ch : Chip} {v : SpiPort} {moved : Nat}

/-- The room that there is once `moved` packets have left the receive buffer. -/
def SpiPort.roomAfter (v : SpiPort) (moved : Nat) : Bool := decide (v.rxHeld - moved < 2)

/-- Port S become `v`, with `moved` packets gone from the receive buffer, the door byte of that room, and S_CS# as given. -/
def Chip.inXact (ch : Chip) (v : SpiPort) (moved : Nat) (cs : Option Bool) : Chip :=
  ch.withSpi { v with rxHeld := ch.spi.rxHeld - moved, door := ch.doorByte (ch.spi.roomAfter moved), cs := cs }

theorem Chip.beginXact_high (hc : ch.spi.cs = none) (moved : Nat) :
    ch.beginXact moved = ch.inXact ch.spi moved (some (ch.spi.roomAfter moved)) := by
  have hb : ch.beginXact moved = if ch.spi.cs.isSome then ch.modSpi (fun v => { v with rxHeld := v.rxHeld - moved })
      else (ch.modSpi (fun v => { v with rxHeld := v.rxHeld - moved })).csFall := rfl
  rw [hb, hc]
  rfl

/-- The door byte shows the room and the reply side. -/
theorem Chip.doorByte_withSpi (h : v.out = ch.spi.out) (room : Bool) : (ch.withSpi v).doorByte room = ch.doorByte room := by
  unfold Chip.doorByte
  rw [← h]
  rfl

/-- S_CS# rises. Where it falls again at once the room is the same, and the door byte is too while the reply side is. -/
theorem Chip.endXact_inXact (hon : ch.spiOn = true) (hen : v.enabled = ch.spi.enabled) {next : Bool} (hout : next = true → v.out = ch.spi.out) :
    (ch.inXact v moved (some (ch.spi.roomAfter moved))).endXact next
      = ch.inXact v moved (if next then some (ch.spi.roomAfter moved) else none) := by
  cases next with
  | false => rfl
  | true =>
    have hup : (ch.inXact v moved none).spiOn = true := (congrArg (fun b => ch.portsUp portS && b) hen).trans hon
    have he : (ch.inXact v moved (some (ch.spi.roomAfter moved))).endXact true
        = if (ch.inXact v moved none).spiOn then (ch.inXact v moved none).csFall else ch.inXact v moved none := rfl
    rw [he, hup, if_pos rfl, if_pos rfl, Chip.csFall]
    exact congrArg (fun b => ch.withSpi { v with
      rxHeld := ch.spi.rxHeld - moved, door := b, cs := some (ch.spi.roomAfter moved) }) (Chip.doorByte_withSpi (by exact hout rfl) _)

/-! ### The transactions that read no reply (R97, R101) -/

theorem framingOf_other {b : Byte} (h1 : b ≠ 0x5A) (h2 : b ≠ 0xA5) : framingOf b = .bad := by rw [framingOf, if_neg h1, if_neg h2]

variable (hon : ch.spiOn = true) (hc : ch.spi.cs = none)
include hon hc

/-- A packet-in that ends before its body begins leaves the room behind it (R97). -/
theorem spiPacketInEffect_empty (moved : Nat) (odd next : Bool) :
    spiPacketInEffect moved [] odd next ch = ch.inXact ch.spi moved (if next then some (ch.spi.roomAfter moved) else none) := by
  rw [spiPacketInEffect, if_pos hon, Chip.beginXact_high hc]
  exact Chip.endXact_inXact hon rfl fun _ => rfl

/-- A door peek is a packet-in with no body (R97). -/
theorem doorPeekEffect_on (next : Bool) :
    doorPeekEffect next ch = ch.inXact ch.spi 0 (if next then some (ch.spi.roomAfter 0) else none) :=
  spiPacketInEffect_empty hon hc 0 false next

theorem spiFragmentEffect_on (next : Bool) :
    spiFragmentEffect next ch = ch.inXact (ch.spi.violation 2) 0 (if next then some (ch.spi.roomAfter 0) else none) := by
  rw [spiFragmentEffect, if_pos hon, Chip.beginXact_high hc]
  exact Chip.endXact_inXact (v := ch.spi.violation 2) hon rfl fun _ => rfl

theorem spiBadFramingEffect_on {b : Byte} (h1 : b ≠ 0x5A) (h2 : b ≠ 0xA5) (next : Bool) :
    spiBadFramingEffect b next ch = ch.inXact (ch.spi.violation 3) 0 (if next then some (ch.spi.roomAfter 0) else none) := by
  rw [spiBadFramingEffect, if_pos hon, Chip.beginXact_high hc, Chip.transaction, framingOf_other h1 h2]
  exact Chip.endXact_inXact (v := ch.spi.violation 3) hon rfl fun _ => rfl

/-! ### A staged reply read whole (R80, R98, R99) -/

/-- The reply side once the first staged reply, these bytes long, has been shifted out and 0x00 after it. -/
def readOutTo (rest : List Reply) (bytes : List Byte) (shifted : Nat) : ReplyOut :=
  { wire := [], staged := rest, cur := none, last := bytes ++ List.replicate (shifted - bytes.length) 0 }

omit hon hc in
/-- A packet-out that shifts the whole of the first staged reply frees its slot. -/
theorem Chip.packetOut_staged {r : Reply} {rest : List Reply} (hw : ch.spi.out.wire = []) (hs : ch.spi.out.staged = r :: rest)
    (hcur : ch.spi.out.cur = none) {bytes : List Byte} (hb : replyBytes r (ch.nibbleFor r.ctx) = bytes) {shifted : Nat} (hn : bytes.length ≤ shifted) :
    ch.packetOut shifted = ch.withSpi { ch.spi with xactOut := ch.spi.xactOut + 1, out := readOutTo rest bytes shifted } := by
  have hcurrent : ch.current portS = { source := .staged, bytes := bytes, done := 0 } := hb ▸ Chip.current_staged hw hs hcur
  have hseen : (bytes ++ List.replicate (shifted - bytes.length) 0#8).take shifted = bytes ++ List.replicate (shifted - bytes.length) 0#8 :=
    List.take_of_length_le (by simp; omega)
  simp only [Chip.packetOut, hcurrent, if_pos hn, hseen, Chip.modSpi, ReplyOut.finished, hw, hs, List.drop_succ_cons, List.drop_zero]
  rfl

theorem spiPacketOutEffect_staged {r : Reply} {rest : List Reply} (hw : ch.spi.out.wire = []) (hs : ch.spi.out.staged = r :: rest)
    (hcur : ch.spi.out.cur = none) {bytes : List Byte} (hb : replyBytes r (ch.nibbleFor r.ctx) = bytes) {shifted : Nat} (hn : bytes.length ≤ shifted)
    (moved : Nat) :
    spiPacketOutEffect moved shifted false ch
      = ch.inXact { ch.spi with xactOut := ch.spi.xactOut + 1, out := readOutTo rest bytes shifted } moved none := by
  have ht : ∀ c : Chip, c.transaction 0xA5 [] false shifted = c.packetOut shifted := fun _ => rfl
  rw [spiPacketOutEffect, if_pos hon, Chip.beginXact_high hc, ht,
    Chip.packetOut_staged (ch := ch.inXact ch.spi moved (some (ch.spi.roomAfter moved))) hw hs hcur hb hn]
  rfl

end

/-! ### Settings (R103) -/

/-- While S_CS# is high the port takes the generation's enable, mode and rate; a rate that raises nothing is in force at once (R88, R103). -/
theorem spiConfigAdoptEffect_lower {ch : Chip} (hp : ch.power.core = true) (hpend : ch.spi.cfgPending = true) (hc : ch.spi.cs = none)
    (hn : ch.kettle.raising = []) {g : PortCfg} (hg : ch.wanted portS = g) {r : BitVec 6} (hr : g.rate (if g.wide then 25 else 7) = r)
    (hle : r.toNat ≤ (ch.kettle.ports.get portS).toNat) :
    spiConfigAdoptEffect ch = (ch.withSpi { ch.spi with enabled := g.enable, quad := g.wide, cfgPending := false }).withRate portS r := by
  have hgo : ¬ (¬ ch.power.core ∨ ¬ ch.spi.cfgPending ∨ ch.spi.cs.isSome) := by simp [hp, hpend, hc]
  rw [spiConfigAdoptEffect, hg, hr]
  exact (if_neg hgo).trans (Chip.declareRate_lower (ch := ch.withSpi _) hn hle)

/-- Settles O15: what a transaction does stands between the fall and the rise of S_CS#, which show and keep the same room. -/
theorem portSTransactions : Obligations.PortSTransactions := by
  intro s hc v room door after
  refine ⟨fun hon => ⟨fun next => ⟨State.onChip_eq (doorPeekEffect_on hon hc next),
      fun moved odd => State.onChip_eq (spiPacketInEffect_empty hon hc moved odd next), State.onChip_eq (spiFragmentEffect_on hon hc next),
      fun b h1 h2 => State.onChip_eq (spiBadFramingEffect_on hon hc h1 h2 next)⟩, fun r rest shifted moved hw hs hcur => ?_⟩,
    fun hp hpend hn => ?_⟩
  · intro bytes hle
    exact State.onChip_eq (spiPacketOutEffect_staged hon hc hw hs hcur rfl hle moved)
  · intro g r hle
    exact State.onChip_eq (spiConfigAdoptEffect_lower hp hpend hc hn rfl rfl hle)

end Sys2Proof.Machine
end

section
/-! SUPPORT. The test access port: the boundary register's patterns, what an instruction captures, EXTEST's holds and MACRO-ISOLATE
(R114–R117, R522, R528). -/

namespace Sys2Proof.Machine

/-! ### Boundary patterns (R115, R528) -/

/-- Cell j drives its pad on. -/
abbrev cellOn (cells : List Bool) (j : Nat) : Prop := (cells[j]?).getD false = true

/-- Both outputs of the leg whose first cell is i are driven on. -/
abbrev LegShort (cells : List Bool) (i : Nat) : Prop := ∀ j ∈ [i, i + 1, i + 2, i + 3], cellOn cells j

/-- No cell is on in b that is not on in a. -/
def Quieter (a b : List Bool) : Prop := b.length = a.length ∧ ∀ j, cellOn b j → cellOn a j

theorem Quieter.refl (a : List Bool) : Quieter a a := ⟨rfl, fun _ h => h⟩

theorem Quieter.trans {a b c : List Bool} (h : Quieter a b) (g : Quieter b c) : Quieter a c := ⟨g.1.trans h.1, fun j hj => h.2 j (g.2 j hj)⟩

/-- Both outputs of a leg driven off. -/
def legOff (cells : List Bool) (i : Nat) : List Bool := (cells.set i false).set (i + 2) false

theorem cellOn_set_false {cells : List Bool} {i j : Nat} : cellOn (cells.set i false) j ↔ j ≠ i ∧ cellOn cells j := by
  rw [cellOn, List.getElem?_set]
  by_cases h : i = j
  · subst h
    by_cases hl : i < cells.length <;> simp [hl]
  · simp [h, Ne.symm h]

theorem cellOn_legOff {cells : List Bool} {i j : Nat} : cellOn (legOff cells i) j ↔ j ≠ i + 2 ∧ j ≠ i ∧ cellOn cells j := by
  rw [legOff, cellOn_set_false, cellOn_set_false]

theorem legOff_quieter (cells : List Bool) (i : Nat) : Quieter cells (legOff cells i) :=
  ⟨by simp [legOff], fun _ h => (cellOn_legOff.mp h).2.2⟩

section
variable {α : Type} {f : List Bool → α → List Bool} (hf : ∀ l x, Quieter l (f l x))
include hf

theorem foldl_quieter (xs : List α) (l : List Bool) : Quieter l (xs.foldl f l) := by
  induction xs generalizing l with
  | nil => exact .refl l
  | cons x xs ih => exact (hf l x).trans (ih _)

/-- What one of the steps brings about stays, where turning cells off does not undo it. -/
theorem foldl_attains {Q : List Bool → Prop} (hQ : ∀ a b, Quieter a b → Q a → Q b) {x : α} {xs : List α} (hx : x ∈ xs) (hfx : ∀ l, Q (f l x))
    (l : List Bool) : Q (xs.foldl f l) := by
  induction xs generalizing l with
  | nil => exact absurd hx List.not_mem_nil
  | cons y ys ih =>
    rcases List.mem_cons.mp hx with rfl | h
    · exact hQ _ _ (foldl_quieter hf ys _) (hfx l)
    · exact ih h _

end

/-! ### Legs are never shorted (R115) -/

theorem safeLeg_eq (cells : List Bool) (i : Nat) : safeLeg cells i = if LegShort cells i then legOff cells i else cells :=
  if_congr List.all_eq_true rfl rfl

theorem safeLeg_quieter (cells : List Bool) (i : Nat) : Quieter cells (safeLeg cells i) := by
  rw [safeLeg_eq]
  split
  · exact legOff_quieter cells i
  · exact .refl cells

theorem safeLeg_safe (cells : List Bool) (i : Nat) : ¬ LegShort (safeLeg cells i) i := by
  rw [safeLeg_eq]
  split
  · exact fun h => (cellOn_legOff.mp (h i (by simp))).2.1 rfl
  · assumption

/-- A pattern of 521 cells that shorts no leg. -/
abbrev SafeCells (cells : List Bool) : Prop := cells.length = 521 ∧ ∀ i ∈ pwmLegs, ¬ LegShort cells i

theorem safePattern_safe (p : List Bool) : SafeCells (safePattern p) := by
  have hlen : ((p ++ List.replicate (boundaryCells - p.length) false).take boundaryCells).length = 521 := by
    simp [boundaryCells]
    omega
  rw [safePattern]
  refine ⟨(foldl_quieter safeLeg_quieter _ _).1.trans hlen, fun i hi => ?_⟩
  exact foldl_attains safeLeg_quieter (Q := fun l => ¬ LegShort l i) (fun a b h hs hb => hs fun j hj => h.2 j (hb j hj)) hi
    (fun l => safeLeg_safe l i) _

/-- A safe pattern is driven as it is. -/
theorem safePattern_of_safe {p : List Bool} (h : SafeCells p) : safePattern p = p := by
  obtain ⟨hl, hs⟩ := h
  have hp : (p ++ List.replicate (boundaryCells - p.length) false).take boundaryCells = p := by simp [boundaryCells, hl]
  rw [safePattern, hp]
  exact foldl_fixed_of_mem fun i hi => (safeLeg_eq p i).trans (if_neg (hs i hi))

/-- A trip input keeps the outputs of its axis off, whatever the boundary register holds (R115). -/
theorem Chip.extestPads_tripped {ch : Chip} {pads : List Bool} (h : ch.extestPads = some pads) {d : Deck} {a : Axis}
    (ht : ((ch.decks.get d).io.axes.get a).tripIn = true) {i : Nat} (hi : i ∈ axisLegs d a) : ¬ cellOn pads i ∧ ¬ cellOn pads (i + 2) := by
  have hx : ch.jtag.extest = true := by
    by_contra hn
    rw [Chip.extestPads, if_pos hn] at h
    cases h
  have hQ : ∀ b c, Quieter b c → ¬ cellOn b i ∧ ¬ cellOn b (i + 2) → ¬ cellOn c i ∧ ¬ cellOn c (i + 2) :=
    fun b c hq hb => ⟨fun hc => hb.1 (hq.2 _ hc), fun hc => hb.2 (hq.2 _ hc)⟩
  have hlegs : ∀ (e : Deck) (x : Axis) (l : List Bool), Quieter l ((axisLegs e x).foldl legOff l) := fun e x l => foldl_quieter legOff_quieter _ l
  have haxis : ∀ (e : Deck) (l : List Bool) (x : Axis), Quieter l (if ((ch.decks.get e).io.axes.get x).tripIn then (axisLegs e x).foldl legOff l else l) :=
    fun e l x => by
      split
      · exact hlegs e x l
      · exact .refl l
  rw [Chip.extestPads, if_neg (not_not_intro hx), Option.some.injEq] at h
  rw [← h]
  refine foldl_attains (fun l e => foldl_quieter (haxis e) _ l) hQ (mem_allDecks d) (fun l => ?_) _
  refine foldl_attains (haxis d) hQ (mem_allDecks a) (fun l => ?_) _
  rw [if_pos ht]
  exact foldl_attains legOff_quieter hQ hi (fun l => ⟨fun hc => (cellOn_legOff.mp hc).2.1 rfl, fun hc => (cellOn_legOff.mp hc).1 rfl⟩) _
/-! ### The stop of a deck leaves the TAP alone (R454, R522) -/

theorem Chip.LadleOnly.jtag {a b : Chip} (h : a.LadleOnly b) : b.jtag = a.jtag := by
  obtain ⟨_, _, _, _, _, _, rfl⟩ := h
  rfl

@[simp] theorem Chip.postDeck_jtag (ch : Chip) (d : Deck) (code : Byte) (unit : Nat) (arg : W32) : (ch.postDeck d code unit arg).jtag = ch.jtag := by
  obtain ⟨es, m, ev, xs, h, -⟩ := ch.postAt_frame ch.now code (.deck d) unit (deckObject d) arg
  rw [Chip.postDeck, Chip.post, h]

@[simp] theorem Chip.complete_jtag (ch : Chip) (i : Ctx) (tag : W16) (rcrc : Bool) (st : Stat) (payload : List Byte) :
    (ch.complete i tag rcrc st payload).jtag = ch.jtag := by
  unfold Chip.complete
  split <;> rfl

@[simp] theorem Chip.endOp_jtag (ch : Chip) (d : Deck) (st : Stat) (payload : List Byte) : (ch.endOp d st payload).jtag = ch.jtag := by
  unfold Chip.endOp
  split
  · rfl
  · dsimp only
    split <;> simp

@[simp] theorem Chip.endWaiters_jtag (ch : Chip) (d : Deck) (st : Stat) : (ch.endWaiters d st).jtag = ch.jtag := by
  unfold Chip.endWaiters
  refine List.foldlRecOn (motive := fun c : Chip => c.jtag = ch.jtag) _ _ rfl fun c hc w _ => ?_
  rw [Chip.complete_jtag, hc]

@[simp] theorem Chip.haltEngines_jtag (ch : Chip) (d : Deck) : (ch.haltEngines d).jtag = ch.jtag := by
  have h1 : (ch.modDeck d DeckAll.endReading).LadleOnly (ch.stopReading d) := Chip.releaseBlocks_ladleOnly ..
  have h2 : ((ch.stopReading d).modDeck d DeckAll.endWriting).LadleOnly (ch.haltEngines d) := Chip.releaseBlocks_ladleOnly ..
  rw [h2.jtag, Chip.modDeck_jtag, h1.jtag, Chip.modDeck_jtag]

@[simp] theorem Chip.setDeckState_faultStop_jtag (ch : Chip) (d : Deck) : (ch.setDeckState d .faultStop).jtag = ch.jtag := by
  by_cases h : (ch.decks.get d).seq.state = .faultStop
  · exact congrArg Chip.jtag (if_pos h)
  · have hs : (((ch.modDeck d (·.inState .faultStop)).postDeck d Ev.deckState (servoUnit d) (BitVec.ofNat 32 DeckState.faultStop.code)).decks.get
        d).seq.state = .faultStop := by
      rw [Chip.postDeck, Chip.post_decks, Chip.modDeck_decks, vector_get_set_self]
      simp [DeckAll.inState, DeckAll.modSeq]
    rw [Chip.setDeckState_ne h, Chip.applyHold_faultStop hs, Chip.postDeck_jtag, Chip.modDeck_jtag]

@[simp] theorem Chip.faultStop_jtag (ch : Chip) (d : Deck) (c : Cause) (cartOut coast : Bool) : (ch.faultStop d c cartOut coast).jtag = ch.jtag := by
  unfold Chip.faultStop
  dsimp only
  split
  · simp
  split
  · rfl
  split
  · rfl
  · simp

theorem Chip.stopNewlyHeld_jtag (ch : Chip) (before : Deck → Bool) : (ch.stopNewlyHeld before).jtag = ch.jtag := by
  unfold Chip.stopNewlyHeld
  refine List.foldlRecOn (motive := fun c : Chip => c.jtag = ch.jtag) _ _ rfl fun c hc d _ => ?_
  split
  · rw [Chip.emergencyStop, Chip.faultStop_jtag, Chip.postDeck_jtag, hc]
  · exact hc

/-! ### EXTEST's holds (R115, R522) -/

/-- The log with EXTEST's entry, `on` telling whether the pads are taken or returned, and DECK_HOLD with the new mask after it. -/
def State.holdsLogged (s : State) (on : W32) (mask : BitVec 12) : FaultLog :=
  ({ s with chip.log := s.logged 2 0x60 148 0 0xFF on 0 0 } : State).logged 2 0x61 155 0 0xFF (mask.setWidth 32) 0 0

/-- A fault entry of the chip as a whole changes the log alone. -/
theorem State.logFault_plain {s : State} (hv : s.chip.power.valid = true) (code : Byte) (unit : Nat) (x y z : W32) :
    s.chip.logFault code unit 0 x y z = { s.chip with log := s.logged 2 code unit 0 0xFF x y z } :=
  State.report_plain hv (by decide) ..

/-- Another EXTEST hold makes another mask. -/
theorem Emergency.mask_jtag {e : Emergency} {x : BitVec 4} (h : x ≠ e.jtag) : ({ e with jtag := x } : Emergency).mask ≠ e.mask := by
  intro hm
  have h8 : x ++ e.thermal = e.jtag ++ e.thermal := by
    simpa only [Emergency.mask, BitVec.extractLsb'_append_eq_left] using congrArg (BitVec.extractLsb' 4 8) hm
  exact h (by simpa only [BitVec.extractLsb'_append_eq_left] using congrArg (BitVec.extractLsb' 4 4) h8)

/-- With all four EXTEST holds set every deck is held. -/
theorem Chip.deckHeld_extest {ch : Chip} (h : ch.emergency.jtag = 0xF) (d : Deck) : ch.deckHeld d = true := by
  have hd : (0xF : BitVec 4).getLsbD d.val = true := by
    revert d
    decide
  rw [Chip.deckHeld, BitVec.getLsbD_or, h, hd, Bool.or_true, Bool.true_or]

/-- With the EXTEST holds gone no deck is held that was not held before. -/
theorem Chip.deckHeld_noExtest {ch : Chip} {log : FaultLog} {j : Jtag} {d : Deck}
    (h : ({ ch with jtag := j, emergency := { ch.emergency with jtag := 0 }, log := log } : Chip).deckHeld d = true) : ch.deckHeld d = true := by
  simp only [Chip.deckHeld, BitVec.getLsbD_or, BitVec.ofNat_eq_ofNat, BitVec.getLsbD_zero, Bool.or_false, Bool.or_eq_true] at h ⊢
  exact h.imp_left .inl

theorem Chip.enterExtest_fresh {ch : Chip} (hx : ch.jtag.extest = false) :
    ch.enterExtest = (({ ch with jtag := { ch.jtag with ir := 0, extest := true } } : Chip).logFault 0x60 148 0 1 0 0).changeHolds
      (fun e => { e with jtag := 0xF }) := by
  rw [Chip.enterExtest, hx]
  rfl

section
variable {s : State} (hv : s.chip.power.valid = true)
include hv

/-- A change of the EXTEST holds: the log tells of it when they differ, and then come the stops. -/
theorem State.changeHolds_jtag (x : BitVec 4) : ∃ log, s.chip.changeHolds (fun e => { e with jtag := x })
      = ({ s.chip with emergency := { s.chip.emergency with jtag := x }, log := log } : Chip).stopNewlyHeld s.chip.deckHeld ∧
    (x ≠ s.chip.emergency.jtag →
      log = s.logged 2 0x61 155 0 0xFF ((x ++ s.chip.emergency.thermal ++ s.chip.emergency.hold).setWidth 32) 0 0) := by
  rw [Chip.changeHolds]
  dsimp only
  split
  · next hm => exact ⟨s.chip.log, rfl, fun hx => absurd hm (Emergency.mask_jtag hx)⟩
  · exact ⟨_, congrArg (fun c : Chip => c.stopNewlyHeld s.chip.deckHeld)
      (State.logFault_plain (s := { s with chip.emergency.jtag := x }) hv ..), fun _ => rfl⟩

/-- EXTEST's own entry, and the change of the holds that it brings. -/
theorem State.extest_changes (j : Jtag) (on : W32) (x : BitVec 4) :
    ∃ log, (({ s.chip with jtag := j } : Chip).logFault 0x60 148 0 on 0 0).changeHolds (fun e => { e with jtag := x })
        = ({ s.chip with jtag := j, emergency := { s.chip.emergency with jtag := x }, log := log } : Chip).stopNewlyHeld s.chip.deckHeld ∧
      (x ≠ s.chip.emergency.jtag → log = s.holdsLogged on (x ++ s.chip.emergency.thermal ++ s.chip.emergency.hold)) := by
  have hlog : ({ s.chip with jtag := j } : Chip).logFault 0x60 148 0 on 0 0
      = ({ s with chip.jtag := j, chip.log := s.logged 2 0x60 148 0 0xFF on 0 0 } : State).chip :=
    State.logFault_plain (s := { s with chip.jtag := j }) hv ..
  rw [hlog]
  exact State.changeHolds_jtag (s := { s with chip.jtag := j, chip.log := s.logged 2 0x60 148 0 0xFF on 0 0 }) hv x

/-- EXTEST becomes current: the boundary register has the pads, and every deck is held (R115). -/
theorem State.enterExtest_holds (hx : s.chip.jtag.extest = false) : s.chip.enterExtest.jtag = { s.chip.jtag with ir := 0, extest := true } ∧
    s.chip.enterExtest.emergency.jtag = 0xF ∧ ∀ d, s.chip.enterExtest.deckHeld d = true := by
  obtain ⟨log, h, -⟩ := State.extest_changes hv { s.chip.jtag with ir := 0, extest := true } 1 0xF
  rw [Chip.enterExtest_fresh hx, h]
  have hj := congrArg Emergency.jtag (Chip.stopNewlyHeld_keeps ({ s.chip with
    jtag := { s.chip.jtag with ir := 0, extest := true }, emergency := { s.chip.emergency with jtag := 0xF }, log := log } : Chip)
    s.chip.deckHeld).emergency
  exact ⟨Chip.stopNewlyHeld_jtag .., hj, Chip.deckHeld_extest hj⟩

/-- Where every deck is held already, EXTEST stops none. -/
theorem State.enterExtest_held (hx : s.chip.jtag.extest = false) (hall : ∀ d, s.chip.deckHeld d = true) (hj : s.chip.emergency.jtag = 0) :
    s.chip.enterExtest = { s.chip with
      jtag := { s.chip.jtag with ir := 0, extest := true }
      emergency := { s.chip.emergency with jtag := 0xF }
      log := s.holdsLogged 1 (0xF#4 ++ s.chip.emergency.thermal ++ s.chip.emergency.hold) } := by
  obtain ⟨log, h, hlog⟩ := State.extest_changes hv { s.chip.jtag with ir := 0, extest := true } 1 0xF
  rw [Chip.enterExtest_fresh hx, h, hlog (by rw [hj]; decide)]
  exact Chip.stopNewlyHeld_none fun d _ => hall d

/-- Leaving EXTEST returns the pads and ends its holds, which stops no deck (R115). -/
theorem State.leaveExtest_current (hx : s.chip.jtag.extest = true) (hj : s.chip.emergency.jtag ≠ 0) :
    s.chip.leaveExtest = { s.chip with
      jtag := { s.chip.jtag with extest := false }
      emergency := { s.chip.emergency with jtag := 0 }
      log := s.holdsLogged 0 (0#4 ++ s.chip.emergency.thermal ++ s.chip.emergency.hold) } := by
  obtain ⟨log, h, hlog⟩ := State.extest_changes hv { s.chip.jtag with extest := false } 0 0
  rw [Chip.leaveExtest, if_pos hx]
  refine h.trans ?_
  rw [hlog hj.symm]
  exact Chip.stopNewlyHeld_none fun d => Chip.deckHeld_noExtest

end

/-! ### What an instruction captures (R114, R116, R117) -/

/-- The data register that Capture-DR loads for an instruction; those of the boundary register capture nothing that the model keeps. -/
def Chip.captured (ch : Chip) (ir : BitVec 5) : BitVec 80 :=
  match jtagIr ir with
  | .extest | .samplePreload => ch.jtag.dr
  | .idcode => jtagIdcode.setWidth 80
  | .delaycalRead => ch.timebase.calRegister
  | .macroIsolate => ch.isolateCapture.setWidth 80
  | .bypass => 0

/-- The TAP after a scan: the opcode in the instruction register, 0b00001 captured, and the data register. -/
def Jtag.scanned (j : Jtag) (ir : BitVec 5) (dr : BitVec 80) : Jtag := { j with ir := ir, irOut := irCapture, dr := dr }

/-- While EXTEST is not current, every other instruction loads the instruction register and its data register alone. -/
theorem Chip.updateIr_scanned {ch : Chip} (hx : ch.jtag.extest = false) {ir : BitVec 5} (hir : jtagIr ir ≠ .extest) :
    ch.updateIr ir = ch.modJtag fun j => j.scanned ir (ch.captured ir) := by
  have hsel : (ch.modJtag fun j => { j with irOut := irCapture }).selectIr ir = ch.modJtag fun j => j.scanned ir ch.jtag.dr := by
    have hl : (ch.modJtag fun j => { j with irOut := irCapture }).leaveExtest = ch.modJtag fun j => { j with irOut := irCapture } :=
      if_neg (ne_true_of_eq_false hx)
    rw [Chip.selectIr, hl]
    rfl
  unfold Chip.updateIr Chip.captured
  dsimp only
  rw [hsel]
  cases h : jtagIr ir with
  | extest => exact absurd h hir
  | _ => rfl

/-- IDCODE while EXTEST is current leaves it (R115). -/
theorem State.updateIr_idcode_leaves {s : State} (hv : s.chip.power.valid = true) (hx : s.chip.jtag.extest = true)
    (hj : s.chip.emergency.jtag ≠ 0) : s.chip.updateIr 0b00001 = { s.chip with
      jtag := { s.chip.jtag.scanned 0b00001 (jtagIdcode.setWidth 80) with extest := false }
      emergency := { s.chip.emergency with jtag := 0 }
      log := s.holdsLogged 0 (0#4 ++ s.chip.emergency.thermal ++ s.chip.emergency.hold) } := by
  have hl := State.leaveExtest_current (s := { s with chip := s.chip.modJtag fun j => { j with irOut := irCapture } }) hv hx hj
  have hu : s.chip.updateIr 0b00001 = (s.chip.modJtag fun j => { j with irOut := irCapture }).leaveExtest.modJtag fun j =>
      { j with ir := 0b00001, dr := jtagIdcode.setWidth 80 } := rfl
  rw [hu, hl]
  rfl

/-- The pads take the pattern of 521 cells that shorts no leg (R115). -/
theorem Chip.updateBoundary_eq (ch : Chip) (p : List Bool) : ch.updateBoundary p = ch.modJtag fun j => { j with boundary := safePattern p } := rfl

/-! ### MACRO-ISOLATE (R117, R279) -/

/-- The capture of MACRO-ISOLATE in its register. -/
def Chip.isolateDr (ch : Chip) : BitVec 80 :=
  BitVec.ofNat 80 (ch.jtag.isoMacro.toNat + 32 * bit ch.jtag.isoOn + 64 * bit ch.jtag.isoRefused + 128 * bit ch.declaredErasure.isSome)

/-- That capture is a byte. -/
theorem Chip.isolateCapture_setWidth (ch : Chip) : ch.isolateCapture.setWidth 80 = ch.isolateDr := by
  have hm := ch.jtag.isoMacro.isLt
  have hb : ∀ b, bit b ≤ 1 := by decide
  have h1 := hb ch.jtag.isoOn
  have h2 := hb ch.jtag.isoRefused
  have h3 := hb ch.declaredErasure.isSome
  apply BitVec.eq_of_toNat_eq
  rw [Chip.isolateCapture, Chip.isolateDr]
  simp only [BitVec.toNat_setWidth, BitVec.toNat_ofNat]
  omega

/-- The byte that names Mm (Table 11-1), without and with enable. -/
theorem isolateValue (m : Fin 19) : (BitVec.ofNat 8 m.val).getLsbD 7 = false ∧ (BitVec.ofNat 8 (128 + m.val)).getLsbD 7 = true ∧
    (BitVec.ofNat 8 (128 + m.val)).extractLsb' 0 5 = BitVec.ofNat 5 m.val ∧ (BitVec.ofNat 5 m.val).toNat = m.val ∧
    (BitVec.ofNat 5 m.val).setWidth 32 = BitVec.ofNat 32 m.val := by
  revert m
  decide

/-- ERASURE_CHANGED's argument: the number of the one erased from now on, or 0xFF. -/
def erasedWord : Option (Fin 19) → W32
  | some a => BitVec.ofNat 32 a.val
  | none => 0xFF

/-- Erasure `a` in force by isolation, with none declared. -/
def Sram.inForce (m : Sram) (a : Option (Fin 19)) : Sram := { m with erased := a, erasePending := false, declared := none }

/-- While no erasure is declared, the erasure in force follows the isolation, and ERASURE_CHANGED tells of another one. -/
theorem State.settleErasure_undeclared {s : State} (hv : s.chip.power.valid = true) (hd : s.chip.declaredErasure = none) {a : Option (Fin 19)}
    (hi : s.chip.sram.isolated = a) (hne : s.chip.sram.erased ≠ a) : s.chip.settleErasure = { s.chip with
      sram := s.chip.sram.inForce a, log := s.logged 2 0x16 153 0 0xFF (erasedWord a) 0 0 } := by
  have hs : s.chip.settleErasure = (s.chip.modSram (·.inForce a)).logFault 0x16 153 0 (erasedWord a) 0 0 := by
    unfold Chip.settleErasure
    rw [hd, hi]
    cases a with
    | none => exact if_neg hne
    | some b => exact if_neg hne
  exact hs.trans (State.logFault_plain (s := { s with chip := s.chip.modSram (·.inForce a) }) hv ..)

/-- The log with the isolation's entry, of number m and `on` or off, and ERASURE_CHANGED to `a` after it. -/
def State.isolationLogged (s : State) (m on : W32) (a : Option (Fin 19)) : FaultLog :=
  ({ s with chip.log := s.logged 2 0x15 148 0 0xFF m on 0 } : State).logged 2 0x16 153 0 0xFF (erasedWord a) 0 0

/-- An isolation that begins or ends, with its entry, changes the erasure in force. -/
theorem State.isolation_settles {s : State} (hv : s.chip.power.valid = true) (hd : s.chip.declaredErasure = none) (j : Jtag) {a : Option (Fin 19)}
    (hne : s.chip.sram.erased ≠ a) (m on : W32) :
    (({ s.chip with jtag := j, sram := { s.chip.sram with isolated := a } } : Chip).logFault 0x15 148 0 m on 0).settleErasure = { s.chip with
      jtag := j, sram := ({ s.chip.sram with isolated := a } : Sram).inForce a, log := s.isolationLogged m on a } := by
  have hlog := State.logFault_plain (s := { s with chip.jtag := j, chip.sram.isolated := a }) hv 0x15 148 m on 0
  refine (congrArg Chip.settleErasure hlog).trans ?_
  exact State.settleErasure_undeclared
    (s := { s with chip.jtag := j, chip.sram.isolated := a, chip.log := s.logged 2 0x15 148 0 0xFF m on 0 }) hv hd rfl hne

/-- Without enable the isolation ends, if there is one. -/
theorem Chip.isolate_off {ch : Chip} (hon : ch.tapOn = true) {m : Fin 19} :
    macroIsolateEffect (BitVec.ofNat 8 m.val) ch = (ch.updateIr 0b10001).endIsolation.modJtag fun j => { j with isoRefused := false } := by
  rw [macroIsolateEffect, if_neg (not_not_intro hon)]
  dsimp only
  rw [if_pos (by rw [(isolateValue m).1]; exact Bool.false_ne_true)]

/-- Number m is refused: another one is isolated, or declared erased (R117). -/
abbrev Chip.IsolateBarred (ch : Chip) (m : Fin 19) : Prop :=
  (ch.jtag.isoOn = true ∧ ch.jtag.isoMacro ≠ BitVec.ofNat 5 m.val) ∨ ∃ a, ch.declaredErasure = some a ∧ a ≠ m

/-- With enable: number m is refused where another one is isolated or declared, and otherwise comes to be isolated. -/
theorem Chip.isolate_on {ch : Chip} (hon : ch.tapOn = true) (m : Fin 19) {c1 : Chip} (hc : ch.updateIr 0b10001 = c1) :
    (c1.IsolateBarred m → macroIsolateEffect (BitVec.ofNat 8 (128 + m.val)) ch = c1.modJtag fun j => { j with isoRefused := true }) ∧
    (c1.declaredErasure = none → c1.jtag.isoOn = false → macroIsolateEffect (BitVec.ofNat 8 (128 + m.val)) ch =
      (({ c1 with
        jtag := { c1.jtag with isoOn := true, isoMacro := BitVec.ofNat 5 m.val, isoRefused := false }
        sram := { c1.sram with isolated := some m } } : Chip).logFault 0x15 148 0 (BitVec.ofNat 32 m.val) 1 0).settleErasure) := by
  obtain ⟨-, h7, hm, hn, hw⟩ := isolateValue m
  have hlt : (BitVec.ofNat 5 m.val).toNat < 19 := hn.trans_lt m.isLt
  have hfin : (⟨(BitVec.ofNat 5 m.val).toNat, hlt⟩ : Fin 19) = m := Fin.ext hn
  unfold macroIsolateEffect
  rw [if_neg (not_not_intro hon), hc]
  dsimp only
  rw [if_neg (by rw [h7]; exact not_not_intro rfl)]
  simp only [hm]
  rw [dif_pos hlt]
  refine ⟨fun h => if_pos ?_, fun hd hi => (if_neg ?_).trans ?_⟩
  · rcases h with ⟨h1, h2⟩ | ⟨a, ha, hne⟩
    · exact .inr ⟨h1, h2⟩
    · refine .inl ?_
      rw [ha, hn]
      simpa [Fin.ext_iff] using hne
  · simp [hd, hi]
  · refine (if_neg (by exact ne_true_of_eq_false hi)).trans ?_
    rw [hw, hfin]
    rfl

theorem Chip.endIsolation_none {ch : Chip} (h : ch.jtag.isoOn = false) : ch.endIsolation = ch := if_neg (ne_true_of_eq_false h)

/-- The end of an isolation, with no erasure declared, ends the erasure in force. -/
theorem State.endIsolation_undeclared {s : State} (hv : s.chip.power.valid = true) (hd : s.chip.declaredErasure = none)
    (hi : s.chip.jtag.isoOn = true) (he : s.chip.sram.erased ≠ none) : s.chip.endIsolation = { s.chip with
      jtag := { s.chip.jtag with isoOn := false, isoMacro := 0 }
      sram := ({ s.chip.sram with isolated := none } : Sram).inForce none
      log := s.isolationLogged (s.chip.jtag.isoMacro.setWidth 32) 0 none } :=
  (if_pos hi).trans (State.isolation_settles hv hd { s.chip.jtag with isoOn := false, isoMacro := 0 } he (s.chip.jtag.isoMacro.setWidth 32) 0)

/-! ### The commands -/

section
variable {s : State} (hon : s.chip.tapOn = true)
include hon

theorem exec_idcode_leaves (hv : s.chip.power.valid = true) (hx : s.chip.jtag.extest = true) (hj : s.chip.emergency.jtag ≠ 0) :
    exec .idcode s = .next { s with
      chip.jtag := { s.chip.jtag.scanned 0b00001 0x2A440C5B with extest := false }
      chip.emergency.jtag := 0
      chip.log := s.holdsLogged 0 (0#4 ++ s.chip.emergency.thermal ++ s.chip.emergency.hold) } :=
  State.onChip_eq ((if_pos hon).trans (State.updateIr_idcode_leaves hv hx hj))

variable (hx : s.chip.jtag.extest = false)
include hx

theorem exec_idcode : exec .idcode s = .next { s with chip.jtag := s.chip.jtag.scanned 0b00001 0x2A440C5B } :=
  State.onChip_eq ((if_pos hon).trans (Chip.updateIr_scanned hx (by decide)))

theorem exec_bypass {ir : BitVec 5} (hir : jtagIr ir = .bypass) : exec (.bypass ir) s = .next { s with chip.jtag := s.chip.jtag.scanned ir 0 } := by
  have hdr : s.chip.captured ir = 0 := by rw [Chip.captured, hir]
  refine State.onChip_eq ((if_pos hon).trans ((Chip.updateIr_scanned hx ?_).trans ?_))
  · rw [hir]
    decide
  · rw [hdr]
    rfl

theorem exec_delaycalRead : exec .delaycalRead s = .next { s with chip.jtag := s.chip.jtag.scanned 0b10000 s.chip.timebase.calRegister } :=
  State.onChip_eq ((if_pos hon).trans (Chip.updateIr_scanned hx (by decide)))

theorem exec_testLogicReset (hi : s.chip.jtag.isoOn = false) : exec .testLogicReset s = .next { s with chip.jtag.ir := 0b00001 } := by
  have hs : s.chip.selectIr 0b00001 = s.chip.modJtag fun j => { j with ir := 0b00001 } :=
    congrArg (fun c : Chip => c.modJtag fun j => { j with ir := 0b00001 }) (if_neg (ne_true_of_eq_false hx))
  refine State.onChip_eq ((if_pos hon).trans ?_)
  rw [hs]
  exact Chip.endIsolation_none hi

theorem exec_samplePreload (pattern : List Bool) : exec (.samplePreload pattern) s = .next { s with
    chip.jtag := { s.chip.jtag.scanned 0b00010 s.chip.jtag.dr with boundary := safePattern pattern } } :=
  State.onChip_eq ((if_pos hon).trans (congrArg (Chip.updateBoundary · pattern) (Chip.updateIr_scanned hx (by decide))))

variable (hv : s.chip.power.valid = true)
include hv

/-- EXTEST holds every deck and takes the pads with the pattern left in the boundary register (R115). -/
theorem exec_extest_holds : ∃ u, exec (.extest none) s = .next u ∧
    u.chip.jtag = { s.chip.jtag with ir := 0, irOut := irCapture, extest := true } ∧ u.chip.emergency.jtag = 0xF ∧ ∀ d, u.chip.deckHeld d = true :=
  ⟨_, State.onChip_eq (if_neg (not_not_intro hon)),
    State.enterExtest_holds (s := { s with chip := s.chip.modJtag fun j => { j with irOut := irCapture } }) hv hx⟩

section
variable (hall : ∀ d, s.chip.deckHeld d = true) (hj : s.chip.emergency.jtag = 0)
include hall hj

omit hon in
theorem State.updateIr_extest_held : s.chip.updateIr 0b00000 = { s.chip with
    jtag := { s.chip.jtag.scanned 0b00000 s.chip.jtag.dr with extest := true }
    emergency := { s.chip.emergency with jtag := 0xF }
    log := s.holdsLogged 1 (0xF#4 ++ s.chip.emergency.thermal ++ s.chip.emergency.hold) } :=
  State.enterExtest_held (s := { s with chip := s.chip.modJtag fun j => { j with irOut := irCapture } }) hv hx hall hj

theorem exec_extest_held : exec (.extest none) s = .next { s with
    chip.jtag := { s.chip.jtag.scanned 0b00000 s.chip.jtag.dr with extest := true }
    chip.emergency.jtag := 0xF
    chip.log := s.holdsLogged 1 (0xF#4 ++ s.chip.emergency.thermal ++ s.chip.emergency.hold) } :=
  State.onChip_eq ((if_neg (not_not_intro hon)).trans (State.updateIr_extest_held hx hv hall hj))

theorem exec_extest_held_pattern (pattern : List Bool) : exec (.extest (some pattern)) s = .next { s with
    chip.jtag := { s.chip.jtag.scanned 0b00000 s.chip.jtag.dr with extest := true, boundary := safePattern pattern }
    chip.emergency.jtag := 0xF
    chip.log := s.holdsLogged 1 (0xF#4 ++ s.chip.emergency.thermal ++ s.chip.emergency.hold) } :=
  State.onChip_eq ((if_neg (not_not_intro hon)).trans
    (congrArg (Chip.updateBoundary · pattern) (State.updateIr_extest_held hx hv hall hj)))

end

omit hon hv in
theorem State.updateIr_isolate : s.chip.updateIr 0b10001 = s.chip.modJtag (·.scanned 0b10001 s.chip.isolateDr) := by
  rw [Chip.updateIr_scanned hx (by decide), ← Chip.isolateCapture_setWidth]
  rfl

theorem exec_macroIsolate_begins (m : Fin 19) (hd : s.chip.declaredErasure = none) (he : s.chip.sram.erased = none)
    (hi : s.chip.jtag.isoOn = false) :
    exec (.macroIsolate (BitVec.ofNat 8 (128 + m.val))) s = .next { s with
      chip.jtag := { s.chip.jtag.scanned 0b10001 s.chip.isolateDr with isoOn := true, isoMacro := BitVec.ofNat 5 m.val, isoRefused := false }
      chip.sram := ({ s.chip.sram with isolated := some m } : Sram).inForce (some m)
      chip.log := s.isolationLogged (BitVec.ofNat 32 m.val) 1 (some m) } := by
  have hne : s.chip.sram.erased ≠ some m := by
    rw [he]
    simp
  exact State.onChip_eq (((Chip.isolate_on hon m (State.updateIr_isolate hx)).2 hd hi).trans
    (State.isolation_settles (s := { s with chip := s.chip.modJtag (·.scanned 0b10001 s.chip.isolateDr) }) hv hd _ hne _ _))

omit hv in
theorem exec_macroIsolate_barred {m : Fin 19} (h : s.chip.IsolateBarred m) :
    exec (.macroIsolate (BitVec.ofNat 8 (128 + m.val))) s = .next { s with
      chip.jtag := { s.chip.jtag.scanned 0b10001 s.chip.isolateDr with isoRefused := true } } :=
  State.onChip_eq ((Chip.isolate_on hon m (State.updateIr_isolate hx)).1 h)

omit hv in
theorem exec_macroIsolate_idle (m : Fin 19) (hi : s.chip.jtag.isoOn = false) :
    exec (.macroIsolate (BitVec.ofNat 8 m.val)) s = .next { s with
      chip.jtag := { s.chip.jtag.scanned 0b10001 s.chip.isolateDr with isoRefused := false } } := by
  refine State.onChip_eq ((Chip.isolate_off hon).trans ?_)
  rw [State.updateIr_isolate hx, Chip.endIsolation_none (by exact hi)]
  rfl

theorem exec_macroIsolate_ends (m : Fin 19) (hi : s.chip.jtag.isoOn = true) (hd : s.chip.declaredErasure = none)
    (he : s.chip.sram.erased ≠ none) :
    exec (.macroIsolate (BitVec.ofNat 8 m.val)) s = .next { s with
      chip.jtag := { s.chip.jtag.scanned 0b10001 s.chip.isolateDr with isoOn := false, isoMacro := 0, isoRefused := false }
      chip.sram := ({ s.chip.sram with isolated := none } : Sram).inForce none
      chip.log := s.isolationLogged (s.chip.jtag.isoMacro.setWidth 32) 0 none } := by
  refine State.onChip_eq ((Chip.isolate_off hon).trans ?_)
  rw [State.updateIr_isolate hx]
  exact congrArg (fun c : Chip => c.modJtag fun j => { j with isoRefused := false })
    (State.endIsolation_undeclared (s := { s with chip := s.chip.modJtag (·.scanned 0b10001 s.chip.isolateDr) }) hv hd hi he)

end

/-- The opcodes that Table 4-7 does not list select BYPASS. -/
theorem jtagIr_unlisted {ir : BitVec 5} (h : ir ∉ [0b00000, 0b00001, 0b00010, 0b10000, 0b10001]) : jtagIr ir = .bypass := by
  simp only [List.mem_cons, List.not_mem_nil, or_false, not_or] at h
  obtain ⟨h0, h1, h2, h3, h4⟩ := h
  rw [jtagIr, if_neg h0, if_neg h1, if_neg h2, if_neg h3, if_neg h4]

/-- Settles O30: a scan loads the instruction register and its data register; beside it EXTEST changes the holds, the boundary register takes safe
patterns only, and MACRO-ISOLATE changes the erasure in force. -/
theorem jtagInstructions : Obligations.JtagInstructions := by
  intro s hready hviom hv j t safe entry selected
  have hon : s.chip.tapOn = true := by simp [Chip.tapOn, hready, hviom]
  refine ⟨fun hx => ⟨exec_idcode hon hx, fun ir hir => exec_bypass hon hx (jtagIr_unlisted hir), exec_delaycalRead hon hx,
    exec_testLogicReset hon hx, fun pattern => ?_, ?_⟩, fun hx hj => exec_idcode_leaves hon hv hx hj, fun pads hp d a ht i hi => ?_⟩
  · exact ⟨safePattern pattern, safePattern_safe pattern, safePattern_of_safe, exec_samplePreload hon hx pattern, exec_extest_holds hon hx hv,
      fun hall hj => ⟨exec_extest_held hon hx hv hall hj, exec_extest_held_pattern hon hx hv hall hj pattern⟩⟩
  · intro capture captured m
    exact ⟨fun hd _ he hi => exec_macroIsolate_begins hon hx hv m hd he hi, exec_macroIsolate_idle hon hx m,
      fun hi hd he => exec_macroIsolate_ends hon hx hv m hi hd (by rw [he]; simp), exec_macroIsolate_barred hon hx⟩
  · obtain ⟨h1, h2⟩ := Chip.extestPads_tripped hp ht hi
    exact ⟨Bool.eq_false_iff.mpr h1, Bool.eq_false_iff.mpr h2⟩

end Sys2Proof.Machine
end

section
/-! SUPPORT. What the fault log, the mirrors and the event path take from a change of a lock (R140, R163, R513, R523), and the end of the lease
and of the lock of a deck on which nothing runs (R167–R170, Table 6-8). -/

namespace Sys2Proof.Machine

/-! ### What a lock's change and an event to every context leave of the chip (R140, R163) -/

/-- The chip with another fault log and other deck mirrors. -/
def Chip.noted (ch : Chip) (log : FaultLog) (mirror : Vector Mirror 4) : Chip :=
  { ch with log := log, emergency := { ch.emergency with mirror := mirror } }

theorem Chip.report_noted (ch : Chip) (kind code : Byte) (unit : Nat) (object : W16) (ctx : Byte) (a0 a1 a2 : W32) :
    ∃ log mirror, ch.report kind code unit object ctx a0 a1 a2 = ch.noted log mirror := by
  obtain ⟨es, m, h, -⟩ := ch.report_frame kind code unit object ctx a0 a1 a2
  exact ⟨_, m, h⟩

theorem Chip.setLock_noted (ch : Chip) (d : Deck) (l : DeckLock) :
    ∃ log mirror, ch.setLock d l = (ch.modDeck d fun k => { k with lock := l }).noted log mirror := by
  obtain ⟨es, m, h⟩ := ch.setLock_frame d l
  exact ⟨_, m, h⟩

/-- An event that names some context, while the event path has room, joins the path; beside that the log and the mirrors change. -/
theorem Chip.post_noted {ch : Chip} {sc : Scope} {object : W16} (ht : ch.targets sc object ≠ []) (he : ch.events.length < 64) (code : Byte)
    (unit : Nat) (arg : W32) : ∃ log mirror, ch.post code sc unit object arg = ({ ch with
      events := ch.events ++ [{ code := code, arg := arg, time := ch.now, targets := ch.targets sc object }] } : Chip).noted log mirror := by
  unfold Chip.post Chip.postAt
  dsimp only
  generalize hr : ch.report 1 code unit object _ arg 0 0 = c
  obtain ⟨log, mirror, h⟩ := ch.report_noted 1 code unit object _ arg 0 0
  rw [hr] at h
  subst h
  rw [if_neg (by simpa using ht)]
  exact ⟨log, mirror, if_pos he⟩

/-- An open context is among those that an event to all contexts names. -/
theorem Chip.targets_all_ne_nil {ch : Chip} {i : Ctx} (h : (ch.ctxs.get i).isOpen = true) (object : W16) : ch.targets .all object ≠ [] := by
  refine List.ne_nil_of_mem (a := (i, object)) (List.mem_filterMap.mpr ⟨i, ?_, by simp [h]⟩)
  simp [allCtxs]

/-- A lock's change with an event to all contexts: the lock and the event path, beside the log and the mirrors. -/
theorem Chip.setLock_post_all {ch : Chip} {i : Ctx} (ho : (ch.ctxs.get i).isOpen = true) (he : ch.events.length < 64) (d : Deck) (l : DeckLock)
    (code : Byte) (unit : Nat) (object : W16) (arg : W32) : ∃ log mirror, (ch.setLock d l).post code .all unit object arg = ({ ch with
      decks := ch.decks.set d { ch.decks.get d with lock := l }
      events := ch.events ++ [{ code := code, arg := arg, time := ch.now, targets := ch.targets .all object }] } : Chip).noted log mirror := by
  obtain ⟨log, mirror, h⟩ := ch.setLock_noted d l
  rw [h]
  exact Chip.post_noted (ch := (ch.modDeck d fun k => { k with lock := l }).noted log mirror) (sc := .all) (Chip.targets_all_ne_nil ho object) he
    code unit arg

/-! ### A deck on which nothing runs: what its orphaning and its freeing find to end (R169, Table 6-8) -/

/-- Nothing of deck d runs or waits, and the owner of its lock has nothing for it: what `State.Still` says, of the chip alone. -/
structure Chip.Resting (ch : Chip) (d : Deck) : Prop where
  idle : (ch.decks.get d).Idle
  raising : ch.kettle.raising = []
  held : ch.held = []
  recs : ∀ i, (ch.decks.get d).lock.owner = some i → (ch.ctxs.get i).wdata.get d = []
  ticket : ∀ i, (ch.decks.get d).lock.owner = some i → (ch.ctxs.get i).ticket = none

theorem State.Still.resting {s : State} {d : Deck} (h : s.Still d) : s.chip.Resting d := by
  obtain ⟨hi, hr, hh, ho⟩ := h
  exact ⟨hi, hr, hh, fun i e => (ho i e).1, fun i e => (ho i e).2⟩

/-- It rests on while the owner stands and nothing but the lock, the log, the mirrors and the event path changes. -/
theorem Chip.Resting.withLock {a b : Chip} {d : Deck} {l : DeckLock} (h : a.Resting d) (hk : b.decks.get d = { a.decks.get d with lock := l })
    (ho : l.owner = (a.decks.get d).lock.owner) (hx : b.ctxs = a.ctxs) (hr : b.kettle = a.kettle) (hh : b.held = a.held) : b.Resting d := by
  have hl : (b.decks.get d).lock.owner = (a.decks.get d).lock.owner := by rw [hk]; exact ho
  refine ⟨?_, hr ▸ h.raising, hh ▸ h.held, ?_, ?_⟩
  · rw [hk]; exact h.idle
  · rw [hl, hx]; exact h.recs
  · rw [hl, hx]; exact h.ticket

/-- A 16-bit count is its own saturation. -/
theorem satU16_toNat (x : W16) : satU16 x.toNat = x := by
  rw [satU16, Nat.min_eq_left (by omega), BitVec.ofNat_toNat, BitVec.setWidth_eq]

section
variable {ch : Chip} {d : Deck} (h : ch.Resting d)
include h

theorem Chip.Resting.waitingRecs {i : Ctx} (ho : (ch.decks.get d).lock.owner = some i) : ch.waitingRecs i d = [] := by
  simp [Chip.waitingRecs, h.recs i ho, h.held]

theorem Chip.Resting.dropWaiting (st : Option Stat) : ch.dropWaiting d st = ch := by
  unfold Chip.dropWaiting
  cases ho : (ch.decks.get d).lock.owner with
  | none => rfl
  | some i =>
    have hw : { ch.ctxs.get i with wdata := (ch.ctxs.get i).wdata.set d [] } = ch.ctxs.get i := by rw [← h.recs i ho, vector_set_get]
    have hc : ({ ch with held := [] } : Chip).modCtx i (fun x => { x with wdata := x.wdata.set d [] }) = ch := by
      rw [Chip.modCtx, hw, vector_set_get, ← h.held]
    cases st <;> simpa [h.waitingRecs ho, h.held] using hc

theorem Chip.Resting.endStops (st : Stat) : ch.endStops d st = ch := by
  obtain ⟨-, -, -, hs, -⟩ := h.idle
  rw [Chip.endStops, hs]
  exact Chip.modDeck_fixed (by rw [DeckAll.modSeq, ← hs])

theorem Chip.Resting.stagedObjects : ch.stagedObjects d = 0 :=
  State.Still.stagedObjects (s := { chip := ch, pending := [] }) ⟨h.idle, h.raising, h.held, fun i e => ⟨h.recs i e, h.ticket i e⟩⟩
    rfl rfl rfl rfl fun _ => rfl

/-- Nothing staged is discarded, so nothing is logged (Table 6-8, step 9). -/
theorem Chip.Resting.discardStaged : ch.discardStaged d = ch := by
  obtain ⟨-, -, -, -, hst, hfl, hpo, -⟩ := h.idle
  have hk : ch.modDeck d (fun k => { k with staged := [], inFlight := [], poisoned := [] }) = ch := Chip.modDeck_fixed (by
    generalize ch.decks.get d = k at hst hfl hpo ⊢
    cases k
    cases hst; cases hfl; cases hpo
    rfl)
  unfold Chip.discardStaged
  cases ho : (ch.decks.get d).lock.owner with
  | none => simp [hst, hk, h.dropWaiting]
  | some i => simp [hst, hk, h.dropWaiting, h.waitingRecs ho]

/-- No record is in flight and no ticket is open (Table 6-8, step 3). -/
theorem Chip.Resting.orphanTicket {i : Ctx} (ho : (ch.decks.get d).lock.owner = some i) : ch.orphanTicket d i = ch := by
  obtain ⟨-, -, -, -, hst, -⟩ := h.idle
  unfold Chip.orphanTicket
  simp only [h.ticket i ho, h.waitingRecs ho, h.dropWaiting, List.map_nil, List.isEmpty_nil, if_true, List.length_nil, Nat.add_zero, satU16_toNat]
  exact Chip.modDeck_fixed (by rw [hst, List.map_nil, ← hst])

/-- No object is complete outside a closed dataset, and Roller holds no buffer (Table 6-8, step 4). -/
theorem Chip.Resting.orphanDiscard : ch.orphanDiscard d = ch := by
  obtain ⟨-, -, -, -, hst, hfl, hpo, -, -, hop, hbl, hpl, -⟩ := h.idle
  unfold Chip.orphanDiscard
  simp only [hst, hfl, hop, hbl, List.append_nil, List.filter_nil, List.isEmpty_nil, List.length_nil, List.foldl_nil, Nat.add_zero, if_true, satU16_toNat,
    Option.bind_none, Option.isSome_none, Bool.false_eq_true, if_false]
  refine (congrArg (Chip.dropBuffer · d []) (Chip.modDeck_fixed ?_)).trans rfl
  generalize (ch.decks.get d).cutAt = cut
  generalize ch.decks.get d = k at hst hfl hpo hop hbl hpl ⊢
  obtain ⟨_, _, _, _, _, _, _, _, roller, _⟩ := k
  cases roller
  cases hst; cases hfl; cases hpo; cases hop; cases hbl; cases hpl
  rfl

/-- There is nothing to write and no motion to stop (Table 6-8, steps 4 to 7). -/
theorem Chip.Resting.drainStep : ch.drainStep d = ch := by
  obtain ⟨hs, -, -, -, -, -, -, -, hord, hop, -, -, hbuf, -, hmark, -⟩ := h.idle
  have hw : ch.writeIdle d = true := by simp [Chip.writeIdle, h.stagedObjects, hord, hop, hbuf]
  have hn : (ch.decks.get d).seq.state ≠ .streaming := by rcases hs with e | e | e <;> simp [e]
  unfold Chip.drainStep
  simp only [h.stagedObjects, hw, hmark, hn, Nat.lt_irrefl, if_false, Bool.false_eq_true, not_true, false_and, ite_self]
  split <;> rfl

end

/-! ### The orphaning and the freeing of such a deck (R169, R489) -/

/-- The outcome of a drain as it stands when the drain begins (R169, R170). -/
def DeckAll.drainReport (k : DeckAll) (byLease : Bool) : DrainReport :=
  { DrainReport.reset with
    byLease := byLease
    noMove := k.cannotMove
    lastDurable := match k.tape.durDs with
      | some n => n.setWidth 32
      | none => 0xFFFFFFFF }

/-- The lock of an orphaned deck as its drain begins: keep and window stand (R169). -/
def DeckAll.orphanedLock (k : DeckAll) (i : Ctx) (byLease : Bool) : DeckLock :=
  { k.lock with state := .draining i, report := k.drainReport byLease }

/-- The deck at rest has no sequence to stop and no tape moving (Table 6-8, steps 1 and 2). -/
theorem Chip.orphanEnds_atRest {ch : Chip} {d : Deck} (hs : (ch.decks.get d).seq.state.inSequence = false)
    (hm : (ch.decks.get d).seq.state ≠ .streaming) (i : Ctx) (byLease : Bool) :
    ch.orphanEnds d i byLease =
      ((((ch.setLock d ((ch.decks.get d).orphanedLock i byLease)).post Ev.lockOrphaned .all 9 (deckObject d)
        (BitVec.ofNat 32 i.val)).abortWork d Stat.byLockLoss).endStops d Stat.byLockLoss) :=
  (if_neg (by simp [hs])).trans (if_neg fun e => hm e.1)

section
variable {ch : Chip} {d : Deck} {i : Ctx} (h : ch.Resting d) (ho : (ch.ctxs.get i).isOpen = true) (he : ch.events.length < 64)
include h ho he

/-- The lock of a deck at rest becomes DRAINING and LOCK_ORPHANED goes out; the drain finds nothing to do, whatever keep says. -/
theorem Chip.Resting.orphan (hl : (ch.decks.get d).lock.state = .held i) (byLease : Bool) :
    ∃ log mirror, ch.orphan d byLease = ({ ch with
      decks := ch.decks.set d { ch.decks.get d with lock := (ch.decks.get d).orphanedLock i byLease }
      events := ch.events ++ [{ code := Ev.lockOrphaned, arg := BitVec.ofNat 32 i.val, time := ch.now
                                targets := ch.targets .all (deckObject d) }] } : Chip).noted log mirror := by
  obtain ⟨log, mirror, e⟩ := Chip.setLock_post_all ho he d ((ch.decks.get d).orphanedLock i byLease) Ev.lockOrphaned 9 (deckObject d)
    (BitVec.ofNat 32 i.val)
  refine ⟨log, mirror, ?_⟩
  rw [← e]
  generalize hc : Chip.post _ _ _ _ _ _ = c
  rw [hc] at e
  have hd : c.decks.get d = { ch.decks.get d with lock := (ch.decks.get d).orphanedLock i byLease } := by rw [e]; exact vector_get_set_self ..
  have hr : c.Resting d := h.withLock hd (by simp [DeckLock.owner, DeckAll.orphanedLock, hl]) (by rw [e]; rfl) (by rw [e]; rfl) (by rw [e]; rfl)
  have hown : (c.decks.get d).lock.owner = some i := by rw [hd]; rfl
  have hs : (ch.decks.get d).seq.state.inSequence = false ∧ (ch.decks.get d).seq.state ≠ .streaming := by
    rcases h.idle.1 with e | e | e <;> rw [e] <;> exact ⟨rfl, by decide⟩
  have hends : ch.orphanEnds d i byLease = c := by
    rw [Chip.orphanEnds_atRest hs.1 hs.2, hc, Chip.abortWork_quiet hr.idle.quiet hr.raising, hr.endStops]
  simp only [Chip.orphan, hl, hends, hr.orphanTicket hown, hr.orphanDiscard, ite_self, hr.drainStep]

end

/-- The load of a deck whose write or read declaration has ended (R489). -/
def withdrawnLoad (l : DeckLoad) : DeckLoad :=
  { l with tracks := 0, reading := false, compress := false, decompress := false, cellRate := 0 }

/-- A withdrawn load raises no demand (R34). -/
theorem loadRaises_withdrawnLoad (l : DeckLoad) : loadRaises l (withdrawnLoad l) = false := by
  refine Bool.or_eq_false_iff.mpr ⟨(Bool.or_eq_false_iff.mp (loadRaises_self l)).1, ?_⟩
  simp [demandsOf, withdrawnLoad]

/-- With no raise pending, a declaration that raises no demand takes effect at once (R34). -/
theorem Chip.declare_lower {ch : Chip} (hr : ch.kettle.raising = []) {x : Declaration} (hx : ch.kettle.isRaise x = false) (cmd : Option Cmd) :
    ch.declare x cmd = ({ ch with kettle := ch.kettle.apply x }, .applied) := by
  have hk : ch.modKettle (fun k => { k with raising := k.left x }) = ch := by
    rw [Chip.modKettle, (Kettle.left_nil hr _).trans hr.symm]
  refine (if_pos (by simp [hx])).trans ?_
  exact congrArg (fun c : Chip => (c.modKettle fun k => k.apply x, Declared.applied)) hk

/-- A deck without a standing buffer gives up its declaration: the load and the mark of it (R489). -/
theorem Chip.endDeclaration_bare {ch : Chip} {d : Deck} (hs : (ch.decks.get d).standing = []) (hr : ch.kettle.raising = []) :
    ch.endDeclaration d = { ch with
      kettle.decks := ch.kettle.decks.set d (withdrawnLoad (ch.kettle.decks.get d))
      decks := ch.decks.set d { ch.decks.get d with tape.declared := none } } := by
  have hk : (ch.releaseBlocks (rollerOwner d) (ch.decks.get d).standing).modDeck d (fun k => { k with standing := [], tape.declared := none })
      = ch.modDeck d (fun k => { k with tape.declared := none }) := by
    rw [hs]
    exact congrArg (fun b => ch.modDeck d fun k => { k with standing := b, tape.declared := none }) hs.symm
  unfold Chip.endDeclaration
  dsimp only
  rw [hk]
  exact congrArg Prod.fst (Chip.declare_lower (ch := ch.modDeck d fun k => { k with tape.declared := none })
    (x := .deck d (withdrawnLoad (ch.kettle.decks.get d))) hr (loadRaises_withdrawnLoad _) none)

/-- A deck without a standing buffer or a hold becomes FREE: LOCK_FREED goes out and its declaration ends (R166, R169, R489). -/
theorem Chip.freeLock_bare {ch : Chip} {d : Deck} {i : Ctx} (hs : (ch.decks.get d).standing = []) (hr : ch.kettle.raising = [])
    (ho : (ch.ctxs.get i).isOpen = true) (he : ch.events.length < 64) (hp : ch.domains.holdPend.getLsbD d.val = false) :
    ∃ log mirror, ch.freeLock d = ({ ch with
      kettle.decks := ch.kettle.decks.set d (withdrawnLoad (ch.kettle.decks.get d))
      decks := ch.decks.set d { ch.decks.get d with lock := DeckLock.reset, tape.declared := none }
      events := ch.events ++ [{ code := Ev.lockFreed, arg := 0, time := ch.now, targets := ch.targets .all (deckObject d) }] } : Chip).noted
      log mirror := by
  obtain ⟨log, mirror, e⟩ := Chip.setLock_post_all ho he d DeckLock.reset Ev.lockFreed 9 (deckObject d) 0
  refine ⟨log, mirror, ?_⟩
  rw [Chip.freeLock]
  generalize Chip.post _ _ _ _ _ _ = c at e ⊢
  have hd : c.decks.get d = { ch.decks.get d with lock := DeckLock.reset } := by rw [e]; exact vector_get_set_self ..
  have hp' : c.domains.holdPend.getLsbD d.val = false := by rw [e]; exact hp
  rw [Chip.endDeclaration_bare (by rw [hd]; exact hs) (by rw [e]; exact hr)]
  refine (Chip.applyHold_not ?_).trans ?_
  · exact fun h => absurd (hp'.symm.trans h) Bool.false_ne_true
  · rw [hd, e]
    simp [Chip.noted]

/-! ### The commands -/

/-- A lease runs where its length is set and no command of the holder names the deck (R167). -/
theorem Chip.leaseRuns_held {ch : Chip} {d : Deck} {i : Ctx} (hl : (ch.decks.get d).lock.state = .held i) (h0 : (ch.decks.get d).lock.lease ≠ 0)
    (hw : (ch.ctxs.get i).working d = false) : ch.leaseRuns d = true := by
  simpa [Chip.leaseRuns, DeckLock.holder, hl, hw] using h0

section
variable {s : State} {d : Deck} {i : Ctx}

/-- The state with another fault log and other deck mirrors. -/
def State.noted (s : State) (log : FaultLog) (mirror : Vector Mirror 4) : State := { s with chip := s.chip.noted log mirror }

/-- LEASE_WARNING, once per run (R167). -/
theorem exec_leaseWarning_runs (h : s.Hears d i) (hrun : s.chip.leaseRuns d = true) (hw : (s.chip.decks.get d).lock.warned = false) :
    exec (.leaseWarning d) s = .next ((s.told d i Ev.leaseWarning 9
      (BitVec.ofNat 32 (min ((s.chip.decks.get d).lock.lease.toNat / 4) 1000))).withDeck d
        { s.chip.decks.get d with lock.warned := true }) := by
  have hh : (s.withDeck d { s.chip.decks.get d with lock.warned := true }).Hears d i := by
    obtain ⟨hv, hl, ho, he⟩ := h
    exact ⟨hv, by simp [hl], ho, he⟩
  refine State.onChip_eq ((if_pos ⟨hrun, by simp [hw]⟩).trans ?_)
  rw [State.modDeck_eq, State.postDeck_told hh (by decide) (by decide)]
  rfl

/-- LEASE_EXPIRY of a deck at rest (R167, R169). -/
theorem exec_leaseExpiry_resting (hr : s.chip.Resting d) (hl : (s.chip.decks.get d).lock.state = .held i) (hrun : s.chip.leaseRuns d = true)
    (ho : (s.chip.ctxs.get i).isOpen = true) (he : s.chip.events.length < 63) : ∃ log mirror,
    exec (.leaseExpiry d) s = .next (({ s with
      chip.decks := s.chip.decks.set d { s.chip.decks.get d with lock := (s.chip.decks.get d).orphanedLock i true }
      chip.events := s.chip.events ++ [{ code := Ev.leaseExpired, arg := 0, time := s.chip.now, targets := [(i, deckObject d)] },
        { code := Ev.lockOrphaned, arg := BitVec.ofNat 32 i.val, time := s.chip.now, targets := s.chip.targets .all (deckObject d) }] } :
      State).noted log mirror) := by
  have ht : s.chip.targets (.ctx i) (deckObject d) = [(i, deckObject d)] := if_pos ho
  obtain ⟨log, mirror, e⟩ := Chip.post_noted (ch := s.chip) (by rw [ht]; simp) (by omega) Ev.leaseExpired 9 0
  generalize hc : s.chip.post Ev.leaseExpired (.ctx i) 9 (deckObject d) 0 = c at e
  have hcr : c.Resting d := hr.withLock (l := (s.chip.decks.get d).lock) (by rw [e]; rfl) rfl (by rw [e]; rfl) (by rw [e]; rfl) (by rw [e]; rfl)
  have hce : c.events.length < 64 := by simp only [e, Chip.noted, List.length_append, List.length_singleton]; omega
  obtain ⟨log', mirror', e'⟩ := hcr.orphan (by rw [e]; exact ho) hce (by rw [e]; exact hl) true
  refine ⟨log', mirror', State.onChip_eq ((if_pos hrun).trans ?_)⟩
  rw [Chip.expireLease, DeckLock.holder, hl]
  refine (congrArg (Chip.orphan · d true) hc).trans (e'.trans ?_)
  rw [e, ht]
  simp only [Chip.noted, List.append_assoc]
  rfl

/-- The lock of a drained deck as it enters the adopt window at `t`, with the records left waiting counted (R169, R170). -/
def DeckAll.windowLock (k : DeckAll) (i : Ctx) (t : W64) : DeckLock :=
  { k.lock with state := .window i, leaseAt := t, report.waiting := satU16 (k.staged.filter Staged.isRecord).length }

/-- ORPHAN_DRAIN_END of a drained deck (R169, R170). -/
theorem exec_orphanDrainEnd_drained (hl : (s.chip.decks.get d).lock.state = .draining i) (hd : s.chip.drained d = true) : ∃ log mirror,
    exec (.orphanDrainEnd d) s = .next ((s.withDeck d { s.chip.decks.get d with
      lock := (s.chip.decks.get d).windowLock i s.chip.now }).noted log mirror) := by
  obtain ⟨log, mirror, e⟩ := s.chip.setLock_noted d ((s.chip.decks.get d).windowLock i s.chip.now)
  have hf : ∃ a0 a1 a2, orphanDrainEndEffect d s.chip
      = (s.chip.setLock d ((s.chip.decks.get d).windowLock i s.chip.now)).logFault 0x23 (servoUnit d) (deckObject d) a0 a1 a2 := by
    simp only [orphanDrainEndEffect, hl, hd, not_true_eq_false, if_false]
    exact ⟨_, _, _, rfl⟩
  obtain ⟨a0, a1, a2, hf⟩ := hf
  obtain ⟨log', mirror', e'⟩ := Chip.report_noted _ 2 0x23 (servoUnit d) (deckObject d) 0xFF a0 a1 a2
  refine ⟨log', mirror', State.onChip_eq (hf.trans (e'.trans ?_))⟩
  rw [e]
  rfl

/-- ADOPT_WINDOW_EXPIRY of a deck at rest (R169). -/
theorem exec_adoptWindowExpiry_resting {j : Ctx} (hr : s.chip.Resting d) (hl : (s.chip.decks.get d).lock.state = .window j)
    (ho : (s.chip.ctxs.get i).isOpen = true) (he : s.chip.events.length < 64) (hp : s.chip.domains.holdPend.getLsbD d.val = false) :
    ∃ log mirror, exec (.adoptWindowExpiry d) s = .next (({ s with
      chip.kettle.decks := s.chip.kettle.decks.set d (withdrawnLoad (s.chip.kettle.decks.get d))
      chip.decks := s.chip.decks.set d { s.chip.decks.get d with lock := DeckLock.reset, tape.declared := none }
      chip.events := s.chip.events ++
        [{ code := Ev.lockFreed, arg := 0, time := s.chip.now, targets := s.chip.targets .all (deckObject d) }] } : State).noted log mirror) := by
  obtain ⟨-, -, -, -, -, -, -, hs, -⟩ := hr.idle
  obtain ⟨log, mirror, e⟩ := Chip.freeLock_bare hs hr.raising ho he hp
  refine ⟨log, mirror, State.onChip_eq ?_⟩
  rw [adoptWindowExpiryEffect, hl]
  exact (congrArg (Chip.freeLock · d) hr.discardStaged).trans e

end

/-- Settles O22: a deck at rest has nothing to end, to discard or to drain, so that a lock's change and its events are all that happens. -/
theorem leasesAndOrphans : Obligations.LeasesAndOrphans := by
  intro s d i hv he ho k runs toAll
  refine ⟨fun ⟨hh, h0, hw⟩ hn => exec_leaseWarning_runs hh (Chip.leaseRuns_held hh.2.1 h0 hw) hn, fun ⟨hh, h0, hw⟩ hs => ?_,
    fun hl hd => ?_, fun hl hs hp => ?_⟩
  · obtain ⟨log, mirror, e⟩ := exec_leaseExpiry_resting hs.resting hh.2.1 (Chip.leaseRuns_held hh.2.1 h0 hw) ho he
    exact ⟨log, mirror, _, _, e⟩
  · exact exec_orphanDrainEnd_drained hl hd
  · exact exec_adoptWindowExpiry_resting hs.resting hl ho (by omega) hp

end Sys2Proof.Machine
end

section
/-! SUPPORT. The session opcodes that read or configure a context: what they answer, and that the storage of a queue is all that a smaller depth
gives back (R143, R161, R162, R183, R184, Tables 6-5, 7-4). -/

namespace Sys2Proof.Machine

/-! ### The storage of a queue (R158, R161) -/

theorem Chip.logRead_cache (ch : Chip) (i : Nat) (w : BitVec 18) (r : Decoded) : (ch.logRead i w r).cache = ch.cache := by
  have hf (code : Byte) (x y : W32) : (ch.logFault code 6 0 x y 0).cache = ch.cache := by
    obtain ⟨es, m, h, -⟩ := ch.report_frame 2 code 6 0 0xFF x y 0
    rw [Chip.logFault, h]
  unfold Chip.logRead
  cases r.result <;> simp only [hf]
  split
  · rfl
  · rw [hf]

theorem Chip.putSyms_cache (ch : Chip) (w : BitVec 18) (syms : List Byte) : (ch.putSyms w syms).cache = ch.cache := by rw [Chip.putSyms]

theorem Chip.writeHead_cache (ch : Chip) (w : BitVec 18) (r : Decoded) : (ch.writeHead w r).cache = ch.cache := by
  unfold Chip.writeHead Chip.storeWord
  split
  · rw [Chip.putSyms_cache, Chip.logRead_cache]
    rfl
  · rw [Chip.putSyms_cache]

theorem foldl_cache {α : Type} {f : Chip → α → Chip} (hf : ∀ c x, (f c x).cache = c.cache) (xs : List α) (ch : Chip) :
    (xs.foldl f ch).cache = ch.cache := by
  induction xs generalizing ch with
  | nil => rfl
  | cons x xs ih => exact (ih _).trans (hf ch x)

/-- A change of Ladle's lists leaves the Cook's cache as it is. -/
theorem Chip.setLadle_cache (ch : Chip) (l : Ladle) : (ch.setLadle l).cache = ch.cache := by
  unfold Chip.setLadle
  dsimp only
  rw [foldl_cache fun c w => Chip.writeHead_cache c _ _, foldl_cache fun c j => Chip.putSyms_cache c _ _]

/-- A queue that gives back cells changes Ladle's lists, the buffer memory and the log. -/
theorem Chip.shrinkChain_frame (ch : Chip) (address n : Nat) :
    ∃ pool sram log, ch.shrinkChain address n = { ch with ladle := pool, sram := sram, log := log } := by
  have hc : (ch.shrinkChain address n).cache = ch.cache := by
    unfold Chip.shrinkChain
    split
    · exact Chip.setLadle_cache ch _
    · rfl
  obtain ⟨pool, sram, cache, log, h⟩ := ch.shrinkChain_bufferOnly address n
  rw [h] at hc ⊢
  exact ⟨pool, sram, log, by rw [show cache = ch.cache from hc]⟩

theorem Chip.resizeQueue_same (ch : Chip) (i : Ctx) (k n : Nat) : ch.resizeQueue i k n n = (ch, none) := by
  unfold Chip.resizeQueue
  split <;> simp

/-- A queue that needs no more cells is not refused, and one that needs as many changes nothing (R161). -/
theorem Chip.resizeQueue_le (ch : Chip) (i : Ctx) (k : Nat) {n0 n1 : Nat} (h : n1 ≤ n0) :
    ∃ pool sram log, (n1 = n0 → pool = ch.ladle ∧ sram = ch.sram ∧ log = ch.log) ∧
      ch.resizeQueue i k n0 n1 = ({ ch with ladle := pool, sram := sram, log := log }, none) := by
  rcases Nat.eq_or_lt_of_le h with rfl | hlt
  · exact ⟨_, _, _, fun _ => ⟨rfl, rfl, rfl⟩, ch.resizeQueue_same i k n1⟩
  · unfold Chip.resizeQueue
    split
    · exact ⟨_, _, _, fun _ => ⟨rfl, rfl, rfl⟩, rfl⟩
    · next q _ =>
      obtain ⟨pool, sram, log, e⟩ := ch.shrinkChain_frame q.2 n1
      refine ⟨pool, sram, log, fun e => absurd e (Nat.ne_of_lt hlt), ?_⟩
      rw [if_neg (Nat.not_lt.mpr h), if_pos hlt, e]

/-! ### The depths of a context's queues (R161, R162) -/

section
variable (x : Context) (n : Nat) {k : Nat} (hk : k ≤ 10)
include hk

/-- Setting the own depth of a primary queue changes depths alone. -/
theorem Context.setDepth_frame : ∃ c r e w q,
    x.setDepth k n = { x with cmdDepth := c, rplDepth := r, evt.depth := e, wDepth := w, rDepth := q } := by
  unfold Context.setDepth
  split
  · exact ⟨_, _, _, _, _, rfl⟩
  · exact ⟨_, _, _, _, _, rfl⟩
  · exact ⟨_, _, _, _, _, rfl⟩
  · split
    · exact ⟨_, _, _, _, _, rfl⟩
    · rw [if_pos (by omega)]
      exact ⟨_, _, _, _, _, rfl⟩

/-- The depth that was set is the queue's own depth. -/
theorem Context.ownDepth_setDepth : (x.setDepth k n).ownDepth k = n := by
  interval_cases k
  iterate 3 rfl
  all_goals exact vector_get_set_self ..

/-- What the spare is does not touch it. -/
theorem Context.ownDepth_withSpare (q : Option (Fin 11)) : ({ x with spare := q, spareDepth := n } : Context).ownDepth k = x.ownDepth k := by
  interval_cases k <;> rfl

theorem Context.spareOn_setDepth : (x.setDepth k n).spareOn k = x.spareOn k := by
  obtain ⟨_, _, _, _, _, e⟩ := x.setDepth_frame n hk
  rw [e]
  rfl

omit hk in
/-- It is set beside the commands that wait. -/
theorem Context.setDepth_waiting (c : List Cmd) (t : List W64) :
    ({ x with cmd := c, cmdAt := t } : Context).setDepth k n = { x.setDepth k n with cmd := c, cmdAt := t } := by
  unfold Context.setDepth
  split <;> (repeat' split) <;> rfl

/-- A primary queue is the one its own target names. -/
theorem Context.primary_of_le : x.primary k = k := by
  unfold Context.primary
  cases x.spare with
  | none => rfl
  | some q => exact if_neg (by omega)

end

/-! ### What QUEUE_CONFIG lets through (Table 6-5) -/

section
variable {ch : Chip} {i : Ctx} {k n : Nat}

/-- A depth of 4 to 256 for a queue whose contents fit. -/
theorem Chip.queueConfigRefusal_set (hk : k ≤ 10) (h4 : 4 ≤ n) (h256 : n ≤ 256) (hf : ch.mustFit i k ≤ n + (ch.ctxs.get i).spareOn k) :
    ch.queueConfigRefusal i k 0 n = none := by
  have hw : (ch.ctxs.get i).wouldBe 0 k n = n + (ch.ctxs.get i).spareOn k := by
    rw [Context.wouldBe, if_neg (by omega), if_neg (by omega)]
  unfold Chip.queueConfigRefusal
  dsimp only
  rw [if_neg (by omega), if_neg (by simp), hw, Context.primary_of_le _ hk, if_neg (by omega)]

/-- The unattached spare for a primary queue. -/
theorem Chip.queueConfigRefusal_attach (hk : k ≤ 10) (h4 : 4 ≤ n) (h256 : n ≤ 256) (hs : (ch.ctxs.get i).spare = none) :
    ch.queueConfigRefusal i k 1 n = none := by
  unfold Chip.queueConfigRefusal
  dsimp only
  rw [if_neg (by omega), if_neg (by simp [hs]), if_neg (by simp)]

/-- The attached spare, away from a queue whose contents fit without it. -/
theorem Chip.queueConfigRefusal_detach (hk : k ≤ 10) (hs : (ch.ctxs.get i).spareOn k ≠ 0) (hf : ch.mustFit i k ≤ (ch.ctxs.get i).ownDepth k) :
    ch.queueConfigRefusal i k 2 n = none := by
  unfold Chip.queueConfigRefusal
  dsimp only
  rw [if_neg (by omega), if_neg (by simp), Context.primary_of_le _ hk]
  exact if_neg fun ⟨_, h⟩ => absurd hf (Nat.not_le.mpr h)

end

/-! ### From the queue to the reply -/

/-- A context that executes nothing takes a completion at the tail of its RPL queue. -/
theorem Chip.complete_idle {ch : Chip} {i : Ctx} (ho : (ch.ctxs.get i).state = .open) (he : (ch.ctxs.get i).executing = []) (tag : W16) (rcrc : Bool)
    (st : Stat) (payload : List Byte) : ch.complete i tag rcrc st payload
      = ch.modCtx i fun x => { x with rpl := x.rpl ++ [ctxReply 0x80 i tag rcrc st payload ch.now] } := by
  rw [Chip.complete_open ho, Chip.restartLeases_idle _ _ he]
  simp [Chip.modCtx, he, dropTag]

section
variable {s : State} {h : CmdHdr} {rest : List Cmd}

/-- The context whose command has been taken. -/
theorem State.took_ctx : (s.took h rest).chip.ctxs.get h.ctx
    = { s.chip.ctxs.get h.ctx with cmd := rest, cmdAt := (s.chip.ctxs.get h.ctx).cmdAt.tail } := vector_get_set_self ..

/-- What QUOTA_QUERY shows (Table 7-4). -/
theorem State.took_quotaQueryBytes : quotaQueryBytes (s.took h rest).chip h.ctx = quotaQueryBytes s.chip h.ctx := by
  unfold quotaQueryBytes
  rw [State.took_ctx]
  rfl

/-- EVENTS_FETCH: a completion that will take records when it is staged (R143). -/
theorem exec_eventsFetch_asks {n : Byte} (hs : s.Heads .eventsFetch h [n, 0] rest) :
    exec (.eventsFetch h [n, 0]) s = .next { s.took h rest with
      chip.ctxs := s.chip.ctxs.set h.ctx { s.chip.ctxs.get h.ctx with
        cmd := rest, cmdAt := (s.chip.ctxs.get h.ctx).cmdAt.tail
        rpl := (s.chip.ctxs.get h.ctx).rpl ++ [{ s.completion h Stat.done [] with fetch := some (if n = 0 then 255 else n.toNat) }] } } := by
  have hn : (if (byteAt [n, 0] 0).toNat = 0 then 255 else (byteAt [n, 0] 0).toNat) = if n = 0 then 255 else n.toNat :=
    if_congr (BitVec.toNat_inj (y := 0)) rfl rfl
  refine State.onChip_eq ?_
  rw [eventsFetchEffect, Chip.take_heads hs (by decide)]
  refine (if_neg (by simp [fieldZero, byteAt])).trans ?_
  rw [hn]
  simp only [Chip.modCtx, State.took, vector_get_set_self, vector_set_set]
  rfl

variable (he : (s.chip.ctxs.get h.ctx).executing = [])
include he

/-- A session opcode that only reads answers what it reads once it is taken. -/
theorem readEffect_answered {op : Op} {p : List Byte} (hs : s.Heads op h p rest) (ho : op ≠ .ctxOpen) (bytes : Chip → List Byte) :
    readEffect op h p bytes s.chip = (s.answered h rest Stat.done (bytes (s.took h rest).chip)).chip := by
  rw [readEffect, Chip.take_heads hs ho]
  exact Chip.answerCmd_took s h rest op p Stat.done _ hs.2.1 he

/-- STATUS_PEEK (R183). -/
theorem exec_statusPeek_answered (hs : s.Heads .statusPeek h [] rest) :
    exec (.statusPeek h []) s = .next (s.answered h rest Stat.done (statusPeekBytes (s.took h rest).chip h.ctx)) :=
  State.onChip_eq (readEffect_answered he hs (by decide) fun c => statusPeekBytes c h.ctx)

/-- QUOTA_QUERY (R183). -/
theorem exec_quotaQuery_answered (hs : s.Heads .quotaQuery h [] rest) :
    exec (.quotaQuery h []) s = .next (s.answered h rest Stat.done (quotaQueryBytes (s.took h rest).chip h.ctx)) :=
  State.onChip_eq (readEffect_answered he hs (by decide) fun c => quotaQueryBytes c h.ctx)

/-- What STATUS_PEEK shows, itself taken and nothing executing (Table 7-4). -/
theorem State.took_statusPeekBytes : statusPeekBytes (s.took h rest).chip h.ctx =
    let x := s.chip.ctxs.get h.ctx
    [BitVec.ofNat 8 x.port.val, BitVec.ofNat 8 (s.chip.deckMask h.ctx)] ++ leBytes 2 rest.length ++ leBytes 2 x.rpl.length
      ++ leBytes 2 x.evt.recs.length ++ leBytes 2 x.evt.lost.toNat ++ [x.nibble.setWidth 8, 0, 0, 0, 0, 0] := by
  unfold statusPeekBytes
  simp only [State.took_ctx, he, List.length_nil]
  rfl

end

/-! ### QUEUE_CONFIG (R161, R162, R184) -/

/-- The bytes of a QUEUE_CONFIG's payload (Table 7-4). -/
theorem queueConfig_payload (a b : Byte) (n : W16) : byteAt ([a, b] ++ leBytes 2 n.toNat) 0 = a ∧ byteAt ([a, b] ++ leBytes 2 n.toNat) 1 = b ∧
    leAt ([a, b] ++ leBytes 2 n.toNat) 2 2 = n.toNat :=
  ⟨rfl, rfl, by simpa using leAt_field (a := [a, b]) (c := []) (k := 2) n.isLt⟩

/-- The answer of a QUEUE_CONFIG that leaves the context as `y` (R184). -/
def queueConfigBytes (i : Ctx) (k : Nat) (y : Context) : List Byte := leBytes 2 (12 * i.val + k) ++ leBytes 2 (y.effective k)

/-- The state after a QUEUE_CONFIG for queue k has made its context into `y`, with what its storage became. -/
def State.configured (s : State) (h : CmdHdr) (rest : List Cmd) (k : Nat) (y : Context) (pool : Ladle) (sram : Sram) (log : FaultLog) : State :=
  { s.took h rest with
    chip.ladle := pool
    chip.sram := sram
    chip.log := log
    chip.ctxs := s.chip.ctxs.set h.ctx { y with
      cmd := rest, cmdAt := (s.chip.ctxs.get h.ctx).cmdAt.tail, rpl := y.rpl ++ [s.completion h Stat.done (queueConfigBytes h.ctx k y)] } }

section
variable {s : State} {h : CmdHdr} {rest : List Cmd} {p : List Byte}

/-- A context taken with its command at the head of its queue and configured as `y` answers with `y`'s depth. -/
theorem State.configured_answerCmd {y : Context} (hyo : y.state = .open) (hye : y.executing = []) {k a n : Nat}
    (hy : ((s.took h rest).chip.ctxs.get h.ctx).configure k a n = { y with cmd := rest, cmdAt := (s.chip.ctxs.get h.ctx).cmdAt.tail })
    (pool : Ladle) (sram : Sram) (log : FaultLog) :
    (({ (s.took h rest).chip with ladle := pool, sram := sram, log := log } : Chip).modCtx h.ctx (·.configure k a n)).answerCmd
        (cmdOf .queueConfig h p) Stat.done (queueConfigBytes h.ctx k (((s.took h rest).chip.ctxs.get h.ctx).configure k a n))
      = (s.configured h rest k y pool sram log).chip := by
  have hx : ∀ c : Chip, ((c.modCtx h.ctx (·.configure k a n)).ctxs.get h.ctx) = (c.ctxs.get h.ctx).configure k a n := fun c => by simp
  show Chip.complete _ h.ctx h.tag h.rcrc Stat.done _ = _
  refine (Chip.complete_idle ?_ ?_ ..).trans ?_
  · exact (congrArg Context.state ((hx _).trans hy)).trans hyo
  · exact (congrArg Context.executing ((hx _).trans hy)).trans hye
  · simp only [Chip.modCtx, hy, vector_get_set_self, vector_set_set]
    simp only [State.took, vector_set_set]
    rfl

variable (hs : s.Heads .queueConfig h p rest)
include hs

/-- A QUEUE_CONFIG that no check refuses and whose queue takes the cells it needs changes its context and answers. -/
theorem queueConfigEffect_done {k a n : Nat} (hk : (byteAt p 0).toNat = k) (ha : (byteAt p 1).toNat = a) (hn : leAt p 2 2 = n)
    (h2 : a = 2 → n = 0 ∧ (s.chip.ctxs.get h.ctx).spare ≠ none) (hr : (s.took h rest).chip.queueConfigRefusal h.ctx k a n = none) {c : Chip} {q : Nat}
    (hq : (if a = 0 then k else 11) = q)
    (hc : (s.took h rest).chip.resizeQueue h.ctx q (queueCells (((s.took h rest).chip.ctxs.get h.ctx).ownDepth q))
      (if a = 2 then queueCells (((s.took h rest).chip.ctxs.get h.ctx).ownDepth q) else queueCells n) = (c, none)) :
    queueConfigEffect h p s.chip = (c.modCtx h.ctx (·.configure k a n)).answerCmd (cmdOf .queueConfig h p) Stat.done
      (queueConfigBytes h.ctx k ((c.ctxs.get h.ctx).configure k a n)) := by
  have hx : ((s.took h rest).chip.ctxs.get h.ctx).spare = (s.chip.ctxs.get h.ctx).spare := by simp [State.took]
  unfold queueConfigEffect
  simp only [Chip.take_heads hs (by decide), hk, ha, hn, hx]
  rw [if_neg fun e => e.2 (h2 e.1).1, if_neg fun e => (h2 e.1).2 e.2, hr]
  dsimp only
  subst hq
  rw [hc]
  simp [queueConfigBytes]

/-- A depth that needs no more cells: the cells that it leaves over go back (R161, R162). -/
theorem exec_queueConfig_sets (he : (s.chip.ctxs.get h.ctx).executing = []) {k : Nat} {n : W16} (hp : p = [BitVec.ofNat 8 k, 0] ++ leBytes 2 n.toNat)
    (hk : k ≤ 10) (h4 : 4 ≤ n.toNat) (h256 : n.toNat ≤ 256) (hcells : queueCells n.toNat ≤ queueCells ((s.chip.ctxs.get h.ctx).ownDepth k))
    (hf : (s.took h rest).chip.mustFit h.ctx k ≤ n.toNat + (s.chip.ctxs.get h.ctx).spareOn k) :
    ∃ pool sram log, (queueCells n.toNat = queueCells ((s.chip.ctxs.get h.ctx).ownDepth k) →
        pool = s.chip.ladle ∧ sram = s.chip.sram ∧ log = s.chip.log) ∧
      exec (.queueConfig h p) s
        = .next (s.configured h rest k ((s.chip.ctxs.get h.ctx).setDepth k n.toNat) pool sram log) := by
  obtain ⟨b0, b1, b2⟩ := queueConfig_payload (BitVec.ofNat 8 k) 0 n
  rw [← hp] at b0 b1 b2
  have hb0 : (byteAt p 0).toNat = k := by rw [b0, BitVec.toNat_ofNat]; omega
  obtain ⟨pool, sram, log, hsame, hsize⟩ := (s.took h rest).chip.resizeQueue_le h.ctx k hcells
  obtain ⟨_, _, _, _, _, hy⟩ := (s.chip.ctxs.get h.ctx).setDepth_frame n.toNat hk
  refine ⟨pool, sram, log, hsame, State.onChip_eq ?_⟩
  rw [queueConfigEffect_done hs hb0 (congrArg BitVec.toNat b1) b2 (fun e => nomatch e) (Chip.queueConfigRefusal_set hk h4 h256 (by
    rw [State.took_ctx]; exact hf)) rfl (by rw [State.took_ctx]; exact hsize)]
  refine State.configured_answerCmd ?_ ?_ ?_ pool sram log
  · rw [hy]; exact hs.2.1
  · rw [hy]; exact he
  · rw [State.took_ctx]
    exact Context.setDepth_waiting _ _ _ _

/-- The unattached spare, with as many cells as it has, goes to a primary queue (R162). -/
theorem exec_queueConfig_attaches (he : (s.chip.ctxs.get h.ctx).executing = []) {k : Fin 11} {n : W16}
    (hp : p = [BitVec.ofNat 8 k.val, 1] ++ leBytes 2 n.toNat) (hsp : (s.chip.ctxs.get h.ctx).spare = none) (h4 : 4 ≤ n.toNat) (h256 : n.toNat ≤ 256)
    (hcells : queueCells n.toNat = queueCells (s.chip.ctxs.get h.ctx).spareDepth) :
    exec (.queueConfig h p) s = .next (s.configured h rest k.val { s.chip.ctxs.get h.ctx with spare := some k, spareDepth := n.toNat }
      s.chip.ladle s.chip.sram s.chip.log) := by
  obtain ⟨b0, b1, b2⟩ := queueConfig_payload (BitVec.ofNat 8 k.val) 1 n
  rw [← hp] at b0 b1 b2
  have hb0 : (byteAt p 0).toNat = k.val := by rw [b0, BitVec.toNat_ofNat]; omega
  refine State.onChip_eq ?_
  rw [queueConfigEffect_done hs hb0 (congrArg BitVec.toNat b1) b2 (fun e => nomatch e) (Chip.queueConfigRefusal_attach (by omega) h4 h256 (by
    rw [State.took_ctx]; exact hsp)) rfl (by rw [State.took_ctx]; exact (congrArg (Chip.resizeQueue _ _ _ _) hcells).trans (Chip.resizeQueue_same ..))]
  refine State.configured_answerCmd ?_ ?_ ?_ s.chip.ladle s.chip.sram s.chip.log
  · exact hs.2.1
  · exact he
  · rw [State.took_ctx]
    exact congrArg (fun q => { s.chip.ctxs.get h.ctx with
      cmd := rest, cmdAt := (s.chip.ctxs.get h.ctx).cmdAt.tail, spareDepth := n.toNat, spare := q }) (dif_pos k.isLt)

/-- The spare leaves the queue that it extends, with its depth and cells (R162). -/
theorem exec_queueConfig_detaches (he : (s.chip.ctxs.get h.ctx).executing = []) {k : Byte} (hp : p = [k, 2, 0, 0]) {j : Fin 11}
    (hsp : (s.chip.ctxs.get h.ctx).spare = some j) (hj : j.val = k.toNat) (h0 : (s.chip.ctxs.get h.ctx).spareDepth ≠ 0)
    (hf : (s.took h rest).chip.mustFit h.ctx k.toNat ≤ (s.chip.ctxs.get h.ctx).ownDepth k.toNat) :
    exec (.queueConfig h p) s = .next (s.configured h rest k.toNat { s.chip.ctxs.get h.ctx with spare := none }
      s.chip.ladle s.chip.sram s.chip.log) := by
  subst hp
  have hon : ((s.took h rest).chip.ctxs.get h.ctx).spareOn k.toNat = (s.chip.ctxs.get h.ctx).spareDepth := by
    rw [State.took_ctx, Context.spareOn, hsp]
    exact if_pos hj
  refine State.onChip_eq ?_
  rw [queueConfigEffect_done hs (k := k.toNat) (a := 2) (n := 0) rfl rfl rfl (fun _ => ⟨rfl, by simp [hsp]⟩)
    (Chip.queueConfigRefusal_detach (by omega) (by rw [hon]; exact h0) (by rw [State.took_ctx]; exact hf)) rfl (Chip.resizeQueue_same _ _ _ _)]
  refine State.configured_answerCmd ?_ ?_ ?_ s.chip.ladle s.chip.sram s.chip.log
  · exact hs.2.1
  · exact he
  · rw [State.took_ctx]
    rfl

/-- With no spare attached a detachment is done already (R184). -/
theorem exec_queueConfig_already (he : (s.chip.ctxs.get h.ctx).executing = []) {k : Byte} (hp : p = [k, 2, 0, 0])
    (hsp : (s.chip.ctxs.get h.ctx).spare = none) : exec (.queueConfig h p) s
      = .next (s.answered h rest Stat.already (queueConfigBytes h.ctx k.toNat (s.chip.ctxs.get h.ctx))) := by
  subst hp
  refine State.onChip_eq ?_
  unfold queueConfigEffect
  simp only [Chip.take_heads hs (by decide)]
  refine (if_neg fun e => e.2 rfl).trans ((if_pos ⟨rfl, ?_⟩).trans ?_)
  · refine (Chip.answerCmd_took s h rest .queueConfig _ Stat.already _ hs.2.1 he).trans ?_
    rw [State.took_ctx]
    rfl
  · rw [State.took_ctx]; exact hsp

end

/-! ### The answers (Table 7-4) -/

theorem queueConfigBytes_set (i : Ctx) {k : Nat} (hk : k ≤ 10) (x : Context) (n : Nat) :
    queueConfigBytes i k (x.setDepth k n) = leBytes 2 (12 * i.val + k) ++ leBytes 2 (n + x.spareOn k) := by
  rw [queueConfigBytes, Context.effective, Context.primary_of_le _ hk, x.ownDepth_setDepth n hk, x.spareOn_setDepth n hk]

theorem queueConfigBytes_attached (i : Ctx) (k : Fin 11) (x : Context) (n : Nat) :
    queueConfigBytes i k.val { x with spare := some k, spareDepth := n } = leBytes 2 (12 * i.val + k.val) ++ leBytes 2 (x.ownDepth k.val + n) := by
  rw [queueConfigBytes, Context.effective, Context.primary_of_le _ (by omega), Context.spareOn]
  dsimp only
  rw [if_pos rfl, x.ownDepth_withSpare n (by omega)]

theorem queueConfigBytes_unattached (i : Ctx) (k : Nat) {x : Context} (h : x.spare = none) :
    queueConfigBytes i k x = leBytes 2 (12 * i.val + k) ++ leBytes 2 (x.ownDepth k) := by
  rw [queueConfigBytes, Context.effective, Context.spareOn, Context.primary, h]
  rfl

/-- Settles O19: each answer is read from the context as the command leaves it. -/
theorem sessionQueries : Obligations.SessionQueries := by
  intro s h rest he x l done
  refine ⟨fun hs => ?_, fun hs => ?_, fun n hs => exec_eventsFetch_asks hs, fun k n => ?_, fun k n => ?_, fun k => ?_⟩
  · rw [exec_statusPeek_answered he hs, State.took_statusPeekBytes he]
  · rw [exec_quotaQuery_answered he hs, State.took_quotaQueryBytes]
    rfl
  · intro p hs hk h4 h256 hc hf
    obtain ⟨pool, sram, log, hsame, e⟩ := exec_queueConfig_sets hs he rfl hk h4 h256 hc hf
    obtain ⟨_, _, _, _, _, hy⟩ := x.setDepth_frame n.toNat hk
    refine ⟨pool, sram, log, hsame, e.trans ?_⟩
    rw [State.configured, queueConfigBytes_set h.ctx hk, show ((s.chip.ctxs.get h.ctx).setDepth k n.toNat).rpl = x.rpl by rw [hy]]
  · intro p hs hsp h4 h256 hc
    rw [exec_queueConfig_attaches hs he rfl hsp h4 h256 hc, State.configured, queueConfigBytes_attached]
    rfl
  · intro p at_ hs
    refine ⟨fun j hsp hj h0 hf => ?_, fun hsp => ?_⟩
    · rw [exec_queueConfig_detaches hs he rfl hsp hj h0 hf, State.configured, queueConfigBytes_unattached h.ctx _ rfl]
      rfl
    · rw [exec_queueConfig_already hs he rfl hsp, queueConfigBytes_unattached h.ctx _ hsp]

end Sys2Proof.Machine
end

section
/-! SUPPORT. CTX_OPEN over a free list of Ladle's that names one cell twice (R152, R159, R233). -/

namespace Sys2Proof.Machine

/-- CTX_OPEN acts on the chip alone. -/
theorem exec_ctxOpen (h : CmdHdr) (p : List Byte) (s : State) :
    exec (.ctxOpen h p) s = .next { s with chip := ctxOpenEffect h p s.chip } := rfl

/-- The header of a command of context 9, by port 2. -/
def opensNine : CmdHdr := { ctx := 9, tag := 0x55, rcrc := false, port := 2 }

/-- The Cook runs, every domain is on, a CTX_OPEN of context 9 stands at the head of the open queues, and Ladle's free list has 276 places,
the first two of which name cell 0. -/
def twiceListed : State :=
  { State.reset with
    chip.power := { Power.reset with cookTook := true }
    chip.domains := { Domains.reset with on := List.replicate 148 true }
    chip.cook := { Cook.reset with state := .running }
    chip.ladle := { Ladle.reset with built := true, headBanks := 4, freeCells := 0 :: List.range 275 }
    chip.openQ := [cmdOf .ctxOpen opensNine [0, 0, 0, 0]] }

/-- What the statement asks of the pool: 20 cells above the Pantry, and nothing listed of the words of the first 20. -/
theorem twiceListed_pool : 276 ≤ twiceListed.chip.ladle.cellsFree ∧ 20 ≤ twiceListed.chip.ladle.openCells.length ∧
    ∀ i ∈ twiceListed.chip.ladle.openCells.take 20, twiceListed.Plain (16 * i) :=
  ⟨by decide +kernel, by decide +kernel, fun _ _ _ hx => nomatch hx⟩

/-- The draw of cell 0 takes both of its places off the list, so that the last of the twelve queues finds 256 cells, the Pantry's, and the
context stays CLOSED (R152, R234). -/
theorem twiceListed_staysClosed : ((ctxOpenEffect opensNine [0, 0, 0, 0] twiceListed.chip).ctxs.get 9).state = .closed := by
  decide +kernel

/-- Refutes O20: the draws of CTX_OPEN take every place of a drawn cell off the free list, so that a list that names one of its cells twice
supplies fewer cells than it has places. Twenty places above the Pantry are then too few for the twelve queues, and POOL_EMPTY refuses the
command. The list build of R233 names each cell once, but the statement is about every state and does not exclude such a list. -/
theorem not_contextsOpenCloseReset : ¬ Obligations.ContextsOpenCloseReset := by
  intro h
  obtain ⟨hopens, -⟩ := h twiceListed opensNine rfl
  obtain ⟨hfree, hlist, hplain⟩ := twiceListed_pool
  obtain ⟨t, -, ht, ⟨hopen, -⟩, -⟩ := hopens false [0, 0, 0, 0] rfl rfl rfl rfl rfl rfl hfree hlist hplain
  rw [exec_ctxOpen] at ht
  have hchip := congrArg State.chip (Host.Outcome.next.inj ht)
  have hclosed : (t.chip.ctxs.get 9).state = .closed :=
    (congrArg (fun c : Chip => (c.ctxs.get 9).state) hchip).symm.trans twiceListed_staysClosed
  exact absurd (hopen.symm.trans hclosed) (by decide)

end Sys2Proof.Machine
end

section
/-! SUPPORT. The lock opcodes: what each makes of its deck's lock, and what goes with it to the log, the mirrors and the event path (R163, R164,
R166, R171, R187, Tables 6-7, 7-6). -/

namespace Sys2Proof.Machine

/-! ### The fields of a DECK_LOCK (R164, Table 7-6) -/

/-- The payload of a DECK_LOCK. -/
def lockRequest (d : Deck) (keep : Bool) (ms : W16) (window : Byte) : List Byte :=
  [BitVec.ofNat 8 d.val, if keep then 1 else 0] ++ leBytes 2 ms.toNat ++ [window, 0, 0, 0]

/-- A lock with the settings of a DECK_LOCK that context i sends at time t (R164). -/
def DeckLock.requested (l : DeckLock) (i : Ctx) (keep : Bool) (ms : W16) (window : Byte) (t : W64) : DeckLock :=
  { l with
    state := .held i, lease := if ms = 0 then 0 else if ms.toNat < 100 then 100 else ms, keep := keep
    window := if window = 0 then 10 else window, leaseAt := t, warned := false }

theorem lockRequest_keep (d : Deck) (keep : Bool) (ms : W16) (window : Byte) :
    decide (byteAt (lockRequest d keep ms window) 1 = 1#8) = keep := by
  cases keep <;> rfl

theorem lockRequest_lease (d : Deck) (keep : Bool) (ms : W16) (window : Byte) : leAt (lockRequest d keep ms window) 2 2 = ms.toNat := by
  rw [lockRequest, List.append_assoc]
  exact leAt_field (a := [BitVec.ofNat 8 d.val, if keep then 1 else 0]) ms.isLt

theorem lockRequest_window (d : Deck) (keep : Bool) (ms : W16) (window : Byte) : byteAt (lockRequest d keep ms window) 4 = window := rfl

/-- The request passes orders 1 and 2. -/
theorem lockRequest_inOrder (d : Deck) (keep : Bool) (ms : W16) (window : Byte) : deckOf (lockRequest d keep ms window) = some d ∧
    reservedBad .deckLock (lockRequest d keep ms window) = false ∧
    ∀ ch : Chip, ch.rangeBad .deckLock (lockRequest d keep ms window) = false := by
  have hd : deckOf (lockRequest d keep ms window) = some d := deckOf_cons d _
  refine ⟨hd, rfl, fun ch => ?_⟩
  unfold Chip.rangeBad
  rw [hd]
  cases keep <;> rfl

/-- The lease is 0 or at least 100 ms, and the window 10 s where the request gives 0. -/
theorem DeckLock.settings_requested (l : DeckLock) (i : Ctx) (d : Deck) (keep : Bool) (ms : W16) (window : Byte) (t : W64) :
    { l.settings (lockRequest d keep ms window) with state := .held i, leaseAt := t, warned := false } = l.requested i keep ms window t := by
  have hm : (if ms.toNat = 0 then 0 else BitVec.ofNat 16 (max ms.toNat 100)) = if ms = 0 then 0 else if ms.toNat < 100 then 100 else ms := by
    by_cases h0 : ms = 0
    · simp [h0]
    · have hn : ms.toNat ≠ 0 := fun e => h0 (BitVec.eq_of_toNat_eq e)
      by_cases h1 : ms.toNat < 100
      · rw [if_neg hn, if_neg h0, if_pos h1, Nat.max_eq_right (by omega)]
        rfl
      · rw [if_neg hn, if_neg h0, if_neg h1, Nat.max_eq_left (by omega), BitVec.ofNat_toNat, BitVec.setWidth_eq]
  simp only [DeckLock.settings, lockRequest_keep, lockRequest_lease, lockRequest_window, DeckLock.requested, hm]
  rfl

/-- The opcodes that carry a deck alone pass orders 1 and 2. -/
theorem bareRequest_inOrder (d : Deck) {op : Op} (hop : op = .deckAdopt ∨ op = .deckUnlock ∨ op = .deckStatus) :
    deckOf [BitVec.ofNat 8 d.val, 0, 0, 0] = some d ∧ reservedBad op [BitVec.ofNat 8 d.val, 0, 0, 0] = false ∧
      ∀ ch : Chip, ch.rangeBad op [BitVec.ofNat 8 d.val, 0, 0, 0] = false := by
  have hd : deckOf [BitVec.ofNat 8 d.val, 0, 0, 0] = some d := deckOf_cons d _
  refine ⟨hd, ?_, fun ch => ?_⟩
  · rcases hop with rfl | rfl | rfl <;> rfl
  · unfold Chip.rangeBad
    rw [hd]
    rcases hop with rfl | rfl | rfl <;> rfl

/-! ### A lock changes its state (R163) -/

/-- New settings without a change of state are not reported. -/
theorem Chip.setLock_same {ch : Chip} {d : Deck} {l : DeckLock} (h : (ch.decks.get d).lock.state = l.state) :
    ch.setLock d l = ch.modDeck d fun k => { k with lock := l } := if_pos h

/-- An event to all contexts goes to those that are open, whatever else of them differs (R140). -/
theorem Chip.targets_all_congr {a b : Chip} (h : ∀ i, (a.ctxs.get i).isOpen = (b.ctxs.get i).isOpen) (object : W16) :
    a.targets .all object = b.targets .all object := by
  simp only [Chip.targets, h]

/-- A lock put in place of another is what it is whether or not the lease of the other ran on afresh. -/
theorem DeckAll.releasedBy_withLock (k : DeckAll) (i : Ctx) (t : W64) (l : DeckLock) :
    { k.releasedBy i t with lock := l } = { k with lock := l } := by
  unfold DeckAll.releasedBy
  split <;> rfl

/-- The state with one more event on its path, another fault log and other deck mirrors: what a lock's change leaves of the state beside the lock
when all contexts are told of it. -/
def State.toldAll (s : State) (code : Byte) (arg : W32) (targets : List (Ctx × W16)) (log : FaultLog) (mirror : Vector Mirror 4) : State :=
  State.noted { s with chip.events := s.chip.events ++ [{ code := code, arg := arg, time := s.chip.now, targets := targets }] } log mirror

/-- The adopter's lease would run from its command's end, had the lock one (R167, R171). -/
theorem DeckAll.releasedBy_adopted (k : DeckAll) (i : Ctx) (t : W64) : { k with lock := k.lock.adopted i t }.releasedBy i t
    = { k with lock := { k.lock with state := .held i, lease := 0, report := .reset } }.releasedBy i t :=
  (if_pos rfl).trans (if_pos rfl).symm

/-! ### From the queue to the effect -/

section
variable {s : State} {h : CmdHdr} {rest : List Cmd} {d : Deck}

/-- Taking a command changes no lease: what the contexts execute stands (R167). -/
theorem State.took_leases (s : State) (h : CmdHdr) (rest : List Cmd) (d : Deck) : (s.took h rest).chip.leaseOver d = s.chip.leaseOver d := by
  have hx : ∀ i, ((s.took h rest).chip.ctxs.get i).working d = (s.chip.ctxs.get i).working d := fun i => by
    by_cases e : i = h.ctx
    · subst e; simp [State.took, Context.working]
    · simp [State.took, vector_get_set_ne _ _ _ _ e]
  have hd : (s.took h rest).chip.decks = s.chip.decks := rfl
  have hn : (s.took h rest).chip.now = s.chip.now := rfl
  simp only [Chip.leaseOver, Chip.leaseRuns, hd, hn, hx]

/-- A lock opcode whose fields are in order, on a deck whose lease is not over, comes to its own answer. -/
theorem lockEffect_acts {op : Op} {p : List Byte} (hs : s.Heads op h p rest) (ho : op ≠ .ctxOpen) (he : (s.chip.ctxs.get h.ctx).executing = [])
    (hl : s.chip.leaseOver d = false) (hp : deckOf p = some d ∧ reservedBad op p = false ∧ ∀ ch : Chip, ch.rangeBad op p = false)
    (act : Chip → Cmd → Deck → Chip) : lockEffect op h p act s.chip = act (s.started h rest op d).chip (cmdOf op h p) d := by
  obtain ⟨hd, hr, hb⟩ := hp
  have hl' : (s.took h rest).chip.leaseOver d = false := (s.took_leases h rest d).trans hl
  unfold lockEffect
  simp only [Chip.take_heads hs ho, hd, Chip.settleLease, hl', Bool.false_eq_true, if_false, State.took_execute he, hr, hb]

/-- A completion leaves a deck that its context does not hold as it is. -/
theorem State.deckAnswered_other (hn : (s.chip.decks.get d).lock.state ≠ .held h.ctx) (st : Stat) (payload : List Byte) :
    s.deckAnswered h rest d (s.chip.decks.get d) st payload = s.answered h rest st payload := by
  rw [State.deckAnswered, DeckAll.releasedBy, if_neg hn, vector_set_get]
  rfl

/-- A deck at rest rests on while the command of a context executes that names it. -/
theorem Chip.Resting.started (hr : s.chip.Resting d) (h : CmdHdr) (rest : List Cmd) (op : Op) : (s.started h rest op d).chip.Resting d := by
  have ht : ∀ i, ((s.started h rest op d).chip.ctxs.get i).ticket = (s.chip.ctxs.get i).ticket := fun i => by
    by_cases e : i = h.ctx
    · subst e; simp [State.started]
    · simp [State.started, vector_get_set_ne _ _ _ _ e]
  refine ⟨hr.idle, hr.raising, hr.held, fun i hi => ?_, fun i hi => ?_⟩
  · rw [State.started_wdata]
    exact hr.recs i hi
  · rw [ht]
    exact hr.ticket i hi

/-- While a command executes and once it has completed, an event to all contexts goes to those that it went to when the command was taken (R140). -/
theorem State.targets_took {ch : Chip} (hc : ∃ y : Context, ch.ctxs = s.chip.ctxs.set h.ctx y) (ho : (ch.ctxs.get h.ctx).isOpen = true)
    (hs : (s.chip.ctxs.get h.ctx).state = .open) (object : W16) : ch.targets .all object = (s.took h rest).chip.targets .all object := by
  obtain ⟨y, hc⟩ := hc
  refine Chip.targets_all_congr (fun i => ?_) object
  by_cases e : i = h.ctx
  · subst e
    rw [ho]
    simp [State.took, Context.isOpen, hs]
  · simp [hc, State.took, vector_get_set_ne _ _ _ _ e]

end

/-- A FREE lock goes to the context whose command executes: LOCK_STATE names its port, its deck and itself, and the deck's mirror shows it
(R163, R513, R523). -/
theorem State.setLock_takes {s : State} {h : CmdHdr} {rest : List Cmd} {d : Deck} {op : Op} (hs : (s.chip.ctxs.get h.ctx).state = .open)
    (hv : s.chip.power.valid = true) (hl : (s.chip.decks.get d).lock.state = .free) {l : DeckLock} (hn : l.state = .held h.ctx) : ∃ mirror,
    (s.started h rest op d).chip.setLock d l = (((s.noted (s.logged 3 0x01 (11 + (s.chip.ctxs.get h.ctx).port.val) (deckObject d) 0xFF 1
        (BitVec.ofNat 32 h.ctx.val) 0) mirror).started h rest op d).chip.modDeck d fun k => { k with lock := l }) ∧
      (mirror.get d).lock = 1 ∧ (mirror.get d).owner = BitVec.ofNat 8 h.ctx.val := by
  refine ⟨s.chip.emergency.mirror.set d ((s.chip.emergency.mirror.get d).see
    (s.entry 3 0x01 (11 + (s.chip.ctxs.get h.ctx).port.val) (deckObject d) 0xFF 1 (BitVec.ofNat 32 h.ctx.val) 0)), ?_, ?_⟩
  · have hne : ((s.started h rest op d).chip.decks.get d).lock.state ≠ l.state := by
      rw [hn]
      exact fun e => nomatch hl.symm.trans e
    have ho : ((s.started h rest op d).chip.ctxs.get h.ctx).state ≠ .closed := by simp [State.started, hs]
    have hp : ((s.started h rest op d).chip.ctxs.get h.ctx).port = (s.chip.ctxs.get h.ctx).port := by simp [State.started]
    unfold Chip.setLock
    dsimp only
    rw [if_neg hne]
    simp only [DeckLock.owner, hn, ho, if_false, hp, LockState.code]
    exact State.report_deckObject (s := (s.started h rest op d).withDeck d { s.chip.decks.get d with lock := l }) hv ..
  · rw [vector_get_set_self]
    refine ⟨rfl, ?_⟩
    simp [Mirror.see, State.entry, Ev.deckState, Ev.faultStop]

/-! ### DECK_LOCK by the state of the lock (R164, Table 6-7) -/

section
variable {ch : Chip} {h : CmdHdr} {d : Deck} {keep : Bool} {ms : W16} {window : Byte} (hh : ch.deckHeld d = false)
include hh

theorem Chip.actLock_free (hl : (ch.decks.get d).lock.state = .free) :
    ch.actLock (cmdOf .deckLock h (lockRequest d keep ms window)) d
      = (ch.setLock d (DeckLock.reset.requested h.ctx keep ms window ch.now)).answerCmd
          (cmdOf .deckLock h (lockRequest d keep ms window)) Stat.done [] := by
  rw [← DeckLock.settings_requested _ h.ctx d]
  simp only [Chip.actLock, hl, hh, Bool.false_eq_true, if_false]
  rfl

theorem Chip.actLock_own (hl : (ch.decks.get d).lock.state = .held h.ctx) :
    ch.actLock (cmdOf .deckLock h (lockRequest d keep ms window)) d
      = (ch.modDeck d fun k => { k with lock := (ch.decks.get d).lock.requested h.ctx keep ms window ch.now }).answerCmd
          (cmdOf .deckLock h (lockRequest d keep ms window)) Stat.already [] := by
  have hset : { (ch.decks.get d).lock.settings (lockRequest d keep ms window) with leaseAt := ch.now, warned := false }
      = (ch.decks.get d).lock.requested h.ctx keep ms window ch.now := by
    rw [← DeckLock.settings_requested _ h.ctx d, ← hl]
    rfl
  rw [← Chip.setLock_same (l := (ch.decks.get d).lock.requested h.ctx keep ms window ch.now) hl, ← hset]
  simp only [Chip.actLock, hl, hh, Bool.false_eq_true, if_false]
  exact if_pos rfl

theorem Chip.actLock_other {j : Ctx} (hl : (ch.decks.get d).lock.state = .held j) (hj : j ≠ h.ctx) (p : List Byte) :
    ch.actLock (cmdOf .deckLock h p) d = ch.answerCmd (cmdOf .deckLock h p) Stat.heldByOther [] := by
  simp only [Chip.actLock, hl, hh, Bool.false_eq_true, if_false]
  exact if_neg hj

/-- The former owner adopts its deck in the window (R171). -/
theorem Chip.actAdopt_window (hl : (ch.decks.get d).lock.state = .window h.ctx) (p : List Byte) :
    ch.actAdopt (cmdOf .deckAdopt h p) d
      = ((ch.setLock d ((ch.decks.get d).lock.adopted h.ctx ch.now)).post Ev.lockAdopted .all 9 (deckObject d)
          (BitVec.ofNat 32 h.ctx.val)).answerCmd (cmdOf .deckAdopt h p) Stat.done (ch.decks.get d).lock.adoptReply := by
  simp only [Chip.actAdopt, hl, hh, Bool.false_eq_true, if_false]
  exact if_pos rfl

end

/-- The holder's unlock of a deck at rest (R166). -/
theorem Chip.Resting.actUnlock {ch : Chip} {h : CmdHdr} {d : Deck} (hr : ch.Resting d) (hh : ch.deckHeld d = false)
    (hl : (ch.decks.get d).lock.state = .held h.ctx) (p : List Byte) :
    ch.actUnlock (cmdOf .deckUnlock h p) d = (ch.answerCmd (cmdOf .deckUnlock h p) Stat.done []).freeLock d := by
  obtain ⟨hst, hop, -, -, -, -, -, -, -, -, -, -, -, -, hmark, -, -, hq, -⟩ := hr.idle
  have ho : (ch.decks.get d).lock.owner = some h.ctx := by rw [DeckLock.owner, hl]
  have ht : (ch.ctxs.get (cmdOf .deckUnlock h p).ctx).ticket = none := hr.ticket h.ctx ho
  have hf : ((ch.decks.get d).lock.state.refuses (cmdOf .deckUnlock h p).ctx) = none := by
    rw [hl]
    exact if_pos rfl
  have hs : ch.deckStopped d = true := by
    rcases hst with e | e | e <;> simp [Chip.deckStopped, Chip.raisePending, DeckAll.opEnding, hop, hr.raising, hq, e]
  simp only [Chip.actUnlock, ht, hf, hh, hs, hr.stagedObjects, hmark]
  rfl

/-! ### The commands -/

section
variable {s : State} {h : CmdHdr} {rest : List Cmd} {d : Deck} (he : (s.chip.ctxs.get h.ctx).executing = [])
  (hheld : s.chip.deckHeld d = false) (hlease : s.chip.leaseOver d = false)
include he hlease

section
variable {keep : Bool} {ms : W16} {window : Byte} (hs : s.Heads .deckLock h (lockRequest d keep ms window) rest)
include hs hheld

/-- The change of a FREE lock is reported, and its deck's mirror shows it (R163, R513, R523). -/
theorem exec_deckLock_free (hv : s.chip.power.valid = true) (hl : (s.chip.decks.get d).lock.state = .free) : ∃ mirror,
    exec (.deckLock h (lockRequest d keep ms window)) s = .next { s.deckAnswered h rest d
        { s.chip.decks.get d with lock := DeckLock.reset.requested h.ctx keep ms window s.chip.now } Stat.done [] with
      chip.log := s.logged 3 0x01 (11 + (s.chip.ctxs.get h.ctx).port.val) (deckObject d) 0xFF 1 (BitVec.ofNat 32 h.ctx.val) 0
      chip.emergency.mirror := mirror } ∧
    (mirror.get d).lock = 1 ∧ (mirror.get d).owner = BitVec.ofNat 8 h.ctx.val := by
  obtain ⟨mirror, hset, hm⟩ := State.setLock_takes (rest := rest) (op := .deckLock) hs.2.1 hv hl
    (l := DeckLock.reset.requested h.ctx keep ms window s.chip.now) rfl
  refine ⟨mirror, State.onChip_eq ?_, hm⟩
  rw [lockEffect_acts hs (by decide) he hlease (lockRequest_inOrder ..),
    Chip.actLock_free (ch := (s.started h rest .deckLock d).chip) hheld hl]
  refine (congrArg (Chip.answerCmd · _ _ _) hset).trans ?_
  exact State.started_complete (s := s.noted _ mirror) hs.2.1 he rest .deckLock d _ Stat.done []

/-- The holder sets its lock anew (R164). -/
theorem exec_deckLock_already (hl : (s.chip.decks.get d).lock.state = .held h.ctx) :
    exec (.deckLock h (lockRequest d keep ms window)) s = .next (s.deckAnswered h rest d
      { s.chip.decks.get d with lock := (s.chip.decks.get d).lock.requested h.ctx keep ms window s.chip.now } Stat.already []) := by
  refine State.onChip_eq ?_
  rw [lockEffect_acts hs (by decide) he hlease (lockRequest_inOrder ..),
    Chip.actLock_own (ch := (s.started h rest .deckLock d).chip) hheld hl]
  exact State.started_complete hs.2.1 he rest .deckLock d _ Stat.already []

/-- The lock of another (R164). -/
theorem exec_deckLock_other {j : Ctx} (hl : (s.chip.decks.get d).lock.state = .held j) (hj : j ≠ h.ctx) :
    exec (.deckLock h (lockRequest d keep ms window)) s = .next (s.answered h rest Stat.heldByOther []) := by
  refine State.onChip_eq ?_
  have hn : (s.chip.decks.get d).lock.state ≠ .held h.ctx := by
    rw [hl]
    exact fun e => hj (LockState.held.inj e)
  rw [lockEffect_acts hs (by decide) he hlease (lockRequest_inOrder ..),
    Chip.actLock_other (ch := (s.started h rest .deckLock d).chip) hheld hl hj, State.started_answerCmd hs.2.1 he, State.deckAnswered_other hn]
  rfl

end

/-- DECK_STATUS (R187, Table 7-6). -/
theorem exec_deckStatus_answers (hs : s.Heads .deckStatus h [BitVec.ofNat 8 d.val, 0, 0, 0] rest) :
    exec (.deckStatus h [BitVec.ofNat 8 d.val, 0, 0, 0]) s = .next (s.deckAnswered h rest d (s.chip.decks.get d) Stat.done
      (((s.took h rest).chip.execute (cmdOf .deckStatus h [BitVec.ofNat 8 d.val, 0, 0, 0]) (some d)).deckStatus d)) := by
  refine State.onChip_eq ?_
  rw [lockEffect_acts hs (by decide) he hlease (bareRequest_inOrder d (by simp)), State.took_execute he]
  exact State.started_answerCmd hs.2.1 he ..

include hheld

/-- DECK_ADOPT of the former owner, in its window (R171). -/
theorem exec_deckAdopt_window (hs : s.Heads .deckAdopt h [BitVec.ofNat 8 d.val, 0, 0, 0] rest) (hev : s.chip.events.length < 64)
    (hl : (s.chip.decks.get d).lock.state = .window h.ctx) : ∃ log mirror,
    exec (.deckAdopt h [BitVec.ofNat 8 d.val, 0, 0, 0]) s = .next ((s.deckAnswered h rest d
        { s.chip.decks.get d with lock := (s.chip.decks.get d).lock.adopted h.ctx s.chip.now } Stat.done
          (s.chip.decks.get d).lock.adoptReply).toldAll Ev.lockAdopted (BitVec.ofNat 32 h.ctx.val)
            ((s.took h rest).chip.targets .all (deckObject d)) log mirror) := by
  have ho : ((s.started h rest .deckAdopt d).chip.ctxs.get h.ctx).isOpen = true := by simp [State.started, Context.isOpen, hs.2.1]
  obtain ⟨log, mirror, hset⟩ := Chip.setLock_post_all ho hev d ((s.chip.decks.get d).lock.adopted h.ctx s.chip.now) Ev.lockAdopted 9
    (deckObject d) (BitVec.ofNat 32 h.ctx.val)
  rw [State.targets_took (rest := rest) ⟨_, rfl⟩ ho hs.2.1] at hset
  refine ⟨log, mirror, State.onChip_eq ?_⟩
  rw [lockEffect_acts hs (by decide) he hlease (bareRequest_inOrder d (by simp)),
    Chip.actAdopt_window (ch := (s.started h rest .deckAdopt d).chip) hheld hl]
  refine (congrArg (Chip.answerCmd · _ _ _) hset).trans ?_
  exact State.started_complete (s := s.toldAll Ev.lockAdopted (BitVec.ofNat 32 h.ctx.val) ((s.took h rest).chip.targets .all (deckObject d))
    log mirror) hs.2.1 he rest .deckAdopt d (fun k => { k with lock := (s.chip.decks.get d).lock.adopted h.ctx s.chip.now }) Stat.done _

/-- DECK_UNLOCK of a deck at rest (R166, R489). -/
theorem exec_deckUnlock_still (hs : s.Heads .deckUnlock h [BitVec.ofNat 8 d.val, 0, 0, 0] rest) (hev : s.chip.events.length < 64)
    (hl : (s.chip.decks.get d).lock.state = .held h.ctx) (hstill : s.Still d) (hp : s.chip.domains.holdPend.getLsbD d.val = false) :
    ∃ log mirror, exec (.deckUnlock h [BitVec.ofNat 8 d.val, 0, 0, 0]) s = .next (State.toldAll { s.answered h rest Stat.done [] with
      chip.decks := s.chip.decks.set d { s.chip.decks.get d with lock := DeckLock.reset, tape.declared := none }
      chip.kettle.decks := s.chip.kettle.decks.set d (withdrawnLoad (s.chip.kettle.decks.get d)) }
        Ev.lockFreed 0 ((s.took h rest).chip.targets .all (deckObject d)) log mirror) := by
  have hr : (s.started h rest .deckUnlock d).chip.Resting d := hstill.resting.started h rest .deckUnlock
  have ho : ((s.deckAnswered h rest d (s.chip.decks.get d) Stat.done []).chip.ctxs.get h.ctx).isOpen = true := by
    simp [State.deckAnswered, State.answered, Context.isOpen, hs.2.1]
  have hd : (s.deckAnswered h rest d (s.chip.decks.get d) Stat.done []).chip.decks.get d = (s.chip.decks.get d).releasedBy h.ctx s.chip.now :=
    vector_get_set_self ..
  have hst : ((s.deckAnswered h rest d (s.chip.decks.get d) Stat.done []).chip.decks.get d).standing = [] := by
    obtain ⟨-, -, -, -, -, -, -, hst, -⟩ := hr.idle
    rw [hd]
    exact (congrArg DeckAll.standing (DeckAll.releasedBy_withLock _ h.ctx s.chip.now (s.chip.decks.get d).lock)).trans hst
  obtain ⟨log, mirror, e⟩ := Chip.freeLock_bare (ch := (s.deckAnswered h rest d (s.chip.decks.get d) Stat.done []).chip) hst hr.raising ho hev hp
  rw [State.targets_took (rest := rest) ⟨_, rfl⟩ ho hs.2.1, hd] at e
  have hset : (s.deckAnswered h rest d (s.chip.decks.get d) Stat.done []).chip.decks.set d
      { (s.chip.decks.get d).releasedBy h.ctx s.chip.now with lock := DeckLock.reset, tape.declared := none }
        = s.chip.decks.set d { s.chip.decks.get d with lock := DeckLock.reset, tape.declared := none } :=
    (vector_set_set ..).trans (congrArg (fun k : DeckAll => s.chip.decks.set d { k with tape.declared := none })
      (DeckAll.releasedBy_withLock _ h.ctx s.chip.now DeckLock.reset))
  rw [hset] at e
  refine ⟨log, mirror, State.onChip_eq ?_⟩
  rw [lockEffect_acts hs (by decide) he hlease (bareRequest_inOrder d (by simp)), hr.actUnlock hheld hl, State.started_answerCmd hs.2.1 he, e]
  rfl

end

/-- Settles O21: each opcode comes to its own answer, which the lock's state decides. -/
theorem deckLocks : Obligations.DeckLocks := by
  intro s h rest d hv hev he hheld hlease k b
  refine ⟨fun keep ms window => ?_, fun hs hl => ?_, fun hs hl hstill hp => ?_, fun hs => exec_deckStatus_answers he hlease hs⟩
  · intro p set hs
    refine ⟨fun hl => ?_, fun hl => ?_, fun j hl hj => exec_deckLock_other he hheld hlease hs hl hj⟩
    · exact exec_deckLock_free he hheld hlease hs hv hl
    · exact exec_deckLock_already he hheld hlease hs hl
  · obtain ⟨log, mirror, e⟩ := exec_deckAdopt_window he hheld hlease hs hev hl
    refine ⟨log, mirror, e.trans ?_⟩
    rw [State.deckAnswered, DeckAll.releasedBy_adopted]
    rfl
  · obtain ⟨log, mirror, e⟩ := exec_deckUnlock_still he hheld hlease hs hev hl hstill hp
    exact ⟨log, mirror, e⟩

end Sys2Proof.Machine
end

section
/-! SUPPORT. The loop opcodes: LOOP_OPEN, LOOP_CLOSE, LOOP_WRITE, LOOP_READ and AUTOTUNE_RESULT (R191–R193, Tables 7-8 and 16-5). -/

namespace Sys2Proof.Machine

/-! ### Entries of one size in a payload (R10) -/

section
variable {α : Type} {f : α → List Byte} {n : Nat} (hf : ∀ x, (f x).length = n)
include hf

theorem flatMap_length_uniform (xs : List α) : (xs.flatMap f).length = n * xs.length := by
  simp [List.length_flatMap, hf, Nat.mul_comm]

/-- From the place of entry i on, the bytes are that entry's and the later ones'. -/
theorem drop_flatMap_uniform (xs : List α) (i : Nat) (hi : i < xs.length) :
    (xs.flatMap f).drop (n * i) = f xs[i] ++ (xs.drop (i + 1)).flatMap f := by
  induction xs generalizing i with
  | nil => simp at hi
  | cons x xs ih =>
    cases i with
    | zero => simp
    | succ i =>
      have hd : n * (i + 1) = (f x).length + n * i := by rw [hf]; ring
      rw [List.flatMap_cons, hd, List.drop_length_add_append]
      simpa using ih i (by simpa using hi)

/-- A field at `o` inside entry i, behind `pre`. -/
theorem leAt_entry (pre : List Byte) (xs : List α) (i : Nat) (hi : i < xs.length) {o k : Nat} (ho : o + k ≤ n) :
    leAt (pre ++ xs.flatMap f) (pre.length + n * i + o) k = leAt (f xs[i]) o k := by
  have ho' : o ≤ (f xs[i]).length := by rw [hf]; omega
  have hk : k ≤ ((f xs[i]).drop o).length := by rw [List.length_drop, hf]; omega
  rw [leAt, leAt, Nat.add_assoc, List.drop_length_add_append, ← List.drop_drop, drop_flatMap_uniform hf xs i hi,
    List.drop_append_of_le_length ho', List.take_append_of_le_length hk]

theorem byteAt_entry (pre : List Byte) (xs : List α) (i : Nat) (hi : i < xs.length) {o : Nat} (ho : o < n) :
    byteAt (pre ++ xs.flatMap f) (pre.length + n * i + o) = byteAt (f xs[i]) o := by
  have ho' : o < (f xs[i]).length := by rw [hf]; exact ho
  have hd := congrArg (·[o]?) (drop_flatMap_uniform hf xs i hi)
  simp only [List.getElem?_drop, List.getElem?_append_left ho'] at hd
  rw [byteAt, byteAt, Nat.add_assoc, List.getElem?_append_right (Nat.le_add_right ..), Nat.add_sub_cancel_left, hd]

end

/-- One entry of a LOOP_WRITE payload: offset, reserved, value (Table 7-8). -/
def writeEntry (e : W16 × W32) : List Byte := leBytes 2 e.1.toNat ++ [0, 0] ++ leBytes 4 e.2.toNat

theorem writeEntry_length (e : W16 × W32) : (writeEntry e).length = 8 := by simp [writeEntry]

theorem writeEntry_offset (e : W16 × W32) : leAt (writeEntry e) 0 2 = e.1.toNat := by
  rw [writeEntry, List.append_assoc]
  exact leAt_field (a := []) (k := 2) e.1.isLt

theorem writeEntry_value (e : W16 × W32) : leAt (writeEntry e) 4 4 = e.2.toNat := by
  have h := leAt_field (a := leBytes 2 e.1.toNat ++ [0, 0]) (k := 4) (c := []) e.2.isLt
  rwa [List.append_nil] at h

/-- The head of a payload of `n` entries for slot j of deck d. -/
def slotHead (d : Deck) (j : SlotIx) (n : Nat) : List Byte := [BitVec.ofNat 8 d.val, BitVec.ofNat 8 j.val, BitVec.ofNat 8 n, 0]

section
variable (d : Deck) (j : SlotIx)

theorem byteAt_slot (c : List Byte) (x : Byte) : (byteAt (x :: BitVec.ofNat 8 j.val :: c) 1).toNat = j.val := by
  have := j.isLt
  simp [byteAt]
  omega

theorem slotOf_cons (c : List Byte) (x : Byte) : slotOf (x :: BitVec.ofNat 8 j.val :: c) = j := by
  rw [slotOf, byteAt_slot]
  simp

theorem slotOk_cons (c : List Byte) (x : Byte) : slotOk (x :: BitVec.ofNat 8 j.val :: c) = true := by
  rw [slotOk, byteAt_slot]
  exact decide_eq_true j.isLt

theorem slotOf_slotHead (n : Nat) (c : List Byte) : slotOf (slotHead d j n ++ c) = j := slotOf_cons ..

theorem slotHead_count {n : Nat} (hn : n ≤ 64) (c : List Byte) : (byteAt (slotHead d j n ++ c) 2).toNat = n := by
  show (BitVec.ofNat 8 n).toNat = n
  simp; omega

theorem loopEntries_slotHead {es : List (W16 × W32)} (hn : es.length ≤ 64) :
    loopEntries (slotHead d j es.length ++ es.flatMap writeEntry) = es.map fun e => (e.1.toNat, e.2) := by
  rw [loopEntries, slotHead_count d j hn]
  refine List.ext_getElem (by simp) fun i hi _ => ?_
  have hi' : i < es.length := by simpa using hi
  have h1 := leAt_entry writeEntry_length (slotHead d j es.length) es i hi' (o := 0) (k := 2) (by omega)
  have h2 := leAt_entry writeEntry_length (slotHead d j es.length) es i hi' (o := 4) (k := 4) (by omega)
  rw [writeEntry_offset] at h1
  rw [writeEntry_value] at h2
  have e2 : 8 + 8 * i = (slotHead d j es.length).length + 8 * i + 4 := by simp [slotHead]; omega
  simp only [List.getElem_map, List.getElem_range]
  rw [e2, h2]
  simp
  exact h1

theorem loopOffsets_slotHead {os : List W16} (hn : os.length ≤ 64) :
    loopOffsets (slotHead d j os.length ++ os.flatMap fun o => leBytes 2 o.toNat) = os.map (·.toNat) := by
  rw [loopOffsets, slotHead_count d j hn]
  refine List.ext_getElem (by simp) fun i hi _ => ?_
  have hi' : i < os.length := by simpa using hi
  have h1 := leAt_entry (f := fun o : W16 => leBytes 2 o.toNat) (n := 2) (fun _ => leBytes_length ..) (slotHead d j os.length) os i hi' (o := 0) (k := 2) (by omega)
  simp only [List.getElem_map, List.getElem_range]
  refine h1.trans ?_
  simpa using leAt_field (a := []) (k := 2) (c := []) os[i].isLt

/-- The reserved bytes of a LOOP_WRITE payload are 0. -/
theorem reservedBad_loopWrite (es : List (W16 × W32)) : reservedBad .loopWrite (slotHead d j es.length ++ es.flatMap writeEntry) = false := by
  have hlen : (slotHead d j es.length ++ es.flatMap writeEntry).length = 4 + 8 * es.length := by
    rw [List.length_append, flatMap_length_uniform writeEntry_length]
    rfl
  have hz : ∀ i < es.length, fieldZero (slotHead d j es.length ++ es.flatMap writeEntry) (6 + 8 * i) 2 = true := by
    refine fun i hi => List.all_eq_true.mpr fun o ho => ?_
    have ho' : o < 2 := List.mem_range.mp ho
    have e := byteAt_entry writeEntry_length (slotHead d j es.length) es i hi (o := 2 + o) (by omega)
    rw [show 6 + 8 * i + o = (slotHead d j es.length).length + 8 * i + (2 + o) by simp [slotHead]; omega, e]
    interval_cases o <;> rfl
  simp only [reservedBad, hlen, Nat.add_sub_cancel_left, Nat.mul_div_cancel_left _ (show 0 < 8 by decide), Bool.or_eq_false_iff,
    Bool.not_eq_false', List.all_eq_true, List.mem_range]
  exact ⟨rfl, hz⟩

theorem rangeBad_loopWrite {ch : Chip} {es : List (W16 × W32)} (h1 : 1 ≤ es.length) (h64 : es.length ≤ 64)
    (ha : ((ch.decks.get d).loops.slots.get j).accepts (es.map fun e => (e.1.toNat, e.2)) = true) :
    ch.rangeBad .loopWrite (slotHead d j es.length ++ es.flatMap writeEntry) = false := by
  have hlen : (slotHead d j es.length ++ es.flatMap writeEntry).length = 4 + 8 * es.length := by
    rw [List.length_append, flatMap_length_uniform writeEntry_length]
    rfl
  have hok : slotOk (slotHead d j es.length ++ es.flatMap writeEntry) = true := slotOk_cons ..
  have hd : deckOf (slotHead d j es.length ++ es.flatMap writeEntry) = some d := deckOf_cons ..
  unfold Chip.rangeBad
  simp only [hd, hok, slotOf_slotHead, slotHead_count d j h64, hlen, loopEntries_slotHead d j h64, ha, within, h1, h64, decide_true, Bool.and_self, Bool.not_true]

theorem rangeBad_loopRead {ch : Chip} {os : List W16} (h1 : 1 ≤ os.length) (h64 : os.length ≤ 64)
    (ha : ∀ o ∈ os, ((ch.decks.get d).loops.readSlot j o.toNat).isSome = true) :
    ch.rangeBad .loopRead (slotHead d j os.length ++ os.flatMap fun o => leBytes 2 o.toNat) = false := by
  have hlen : (slotHead d j os.length ++ os.flatMap fun o => leBytes 2 o.toNat).length = 4 + 2 * os.length := by
    rw [List.length_append, flatMap_length_uniform fun o => leBytes_length 2 (BitVec.toNat o)]
    rfl
  have hok : slotOk (slotHead d j os.length ++ os.flatMap fun o => leBytes 2 o.toNat) = true := slotOk_cons ..
  have hd : deckOf (slotHead d j os.length ++ os.flatMap fun o => leBytes 2 o.toNat) = some d := deckOf_cons ..
  have hall : (os.map (·.toNat)).all (fun o => ((ch.decks.get d).loops.readSlot j o).isSome) = true := by
    simpa using ha
  unfold Chip.rangeBad
  simp only [hd, hok, slotOf_slotHead, slotHead_count d j h64, hlen, loopOffsets_slotHead d j h64, hall, within, h1, h64, decide_true, Bool.and_self,
    Bool.not_true]

end

/-! ### The checks (Tables 7-2 and 18-5) -/

def loopOps : List Op := [.loopOpen, .loopClose, .loopWrite, .loopRead, .autotuneResult]

theorem loopOps_class : ∀ op ∈ loopOps, op.onTape = false ∧ op.moves = false ∧ op.order6 = false ∧ op.order7 = false ∧ op.engines = [] ∧
    op.writeSide = false ∧ op.readSide = false ∧ op ≠ .positionRead ∧ op ≠ .ctxOpen ∧ op ≠ .writeRecord ∧ op ≠ .writeFilemark ∧ op ≠ .load ∧
    op ≠ .home ∧ op ≠ .unload ∧ op ≠ .compressionSet := by
  decide

section
variable {s : State} {h : CmdHdr} {rest : List Cmd} {d : Deck} {op : Op} {p : List Byte}

/-- A loop opcode declares no load (R203). -/
theorem Chip.loadFor_loopOp {ch : Chip} (hop : op ∈ loopOps) : ch.loadFor (cmdOf op h p) d = none := by
  obtain ⟨-, -, -, -, -, hw, hr, -, -, -, -, hl, hh, hu, hc⟩ := loopOps_class op hop
  have e : (cmdOf op h p).op = op := rfl
  unfold Chip.loadFor
  cases hp : (ch.decks.get d).profile with
  | none => simp only [hp]
  | some f => simp only [hp, e, hw, hr, hc, Bool.false_eq_true, false_and, if_false]

/-- A loop opcode with its fields in order, that neither the deck's state nor a tuning is in the way of, comes to its effect. -/
theorem State.Locked.loopOp_effect (hk : s.Locked h d) (hst : (s.chip.decks.get d).seq.state ≠ .dormant) (hs : s.Heads op h p rest)
    (hop : op ∈ loopOps) (hd : deckOf p = some d) (hr : reservedBad op p = false) (hb : s.chip.rangeBad op p = false)
    (h9 : s.chip.order9 op p d = none) (hbusy : s.chip.deckBusy op p d = false) :
    deckEffect op h p s.chip = (s.started h rest op d).chip.effect (cmdOf op h p) d := by
  obtain ⟨htape, hmv, h6, h7, heng, hw, hrd, hpos, hctx, hw1, hw2, -⟩ := loopOps_class op hop
  have he : (s.started h rest op d).chip.Early (cmdOf op h p) d :=
    ⟨hk.2.1, hk.2.2.1, hst, fun e => absurd (h6.symm.trans e) Bool.false_ne_true, fun e => absurd (h7.symm.trans e) Bool.false_ne_true,
      fun e => absurd (hmv.symm.trans e) Bool.false_ne_true⟩
  have hj : (s.started h rest op d).chip.judge (cmdOf op h p) d = none :=
    Chip.judge_none he (by exact h9) (Chip.order9bcd_off htape hpos d) (by exact hbusy)
  have heng' : (s.started h rest op d).chip.engineHeld (cmdOf op h p).op d = false := by
    show op.engines.any _ = false
    rw [heng]
    rfl
  have hn : (s.started h rest op d).chip.noteDeclared op d = (s.started h rest op d).chip := Chip.noteDeclared_same (by simp [hw, hrd])
  rw [deckEffect_run hs hk hctx hd hr hb, Chip.run_none hj heng' (Chip.ticketRefuses_none hw1 hw2),
    Chip.declareAndAct_none (Chip.loadFor_loopOp hop)]
  exact congrArg (fun c => c.effect (cmdOf op h p) d) hn

end

/-! ### The effects (R192, R193) -/

theorem cmdOf_payload (op : Op) (h : CmdHdr) (p : List Byte) : (cmdOf op h p).payload = p := rfl

/-- Slot j of the deck become `t`. -/
def DeckAll.withSlot (k : DeckAll) (j : SlotIx) (t : Slot) : DeckAll := { k with loops.slots := k.loops.slots.set j t }

/-- The slot with the proposal of its tuning taken (R193). -/
def Slot.tuned (t : Slot) : Slot :=
  { t with h := t.tune.propH, ki := t.tune.propKi, trim := t.tune.propTrim, tune := { t.tune with state := .applied } }

@[simp] theorem DeckAll.withSlot_get (k : DeckAll) (j : SlotIx) : k.withSlot j (k.loops.slots.get j) = k := by
  rw [DeckAll.withSlot, vector_set_get]

theorem Chip.modSlot_eq (ch : Chip) (d : Deck) (j : SlotIx) (f : Slot → Slot) :
    ch.modSlot d j f = ch.modDeck d (fun k => k.withSlot j (f (k.loops.slots.get j))) := rfl

/-- Entries that leave the safe output alone change their slot, and then the targets follow. -/
theorem Chip.writeSlot_plain {ch : Chip} {d : Deck} {j : SlotIx} {es : List (Nat × W32)} (he : ∀ e ∈ es, e.1 ≠ 0x84) :
    ch.writeSlot d j es = ch.modDeck d (fun k => (k.withSlot j ((k.loops.slots.get j).writeAll es)).retarget) := by
  unfold Chip.writeSlot
  dsimp only
  rw [foldl_fixed_of_mem fun e hm => if_neg (he e hm), Chip.modSlot_eq, Chip.modDeck_modDeck]

/-- The safe output goes to the slot's group (R412). -/
theorem Chip.writeSlot_safe {ch : Chip} {d : Deck} {j : SlotIx} {sl : Slot} (hsl : (ch.decks.get d).loops.slots.get j = sl) (v : W32) :
    ch.writeSlot d j [(0x84, v)] = ch.modDeck d (fun k => { k with
      loops.groups := k.loops.groups.set sl.effAxis { k.loops.groups.get sl.effAxis with safeU := signed16 v } }.retarget) := by
  have h0 : ch.modSlot d j (fun s => s.writeAll [(0x84, v)]) = ch := by
    show ch.modDeck d (fun k => k.withSlot j (k.loops.slots.get j)) = ch
    simp only [DeckAll.withSlot_get, Chip.modDeck, vector_set_get]
  unfold Chip.writeSlot
  simp only [h0, Chip.slot, hsl, List.foldl_cons, List.foldl_nil, if_true, Chip.modDeck_modDeck]

section
variable {s : State} {h : CmdHdr} {rest : List Cmd} {d : Deck} {j : SlotIx} (hk : s.Locked h d)
include hk

/-- A command that makes its slot into `f` of it, and is DONE. -/
theorem State.started_modSlot {op : Op} {p : List Byte} (hs : s.Heads op h p rest) (f : Slot → Slot) (payload : List Byte) :
    ((s.started h rest op d).chip.modSlot d j f).answerCmd (cmdOf op h p) Stat.done payload
      = (s.deckAnswered h rest d ((s.chip.decks.get d).withSlot j (f ((s.chip.decks.get d).loops.slots.get j))) Stat.done payload).chip :=
  State.started_alters hk hs ..

variable (hst : (s.chip.decks.get d).seq.state ≠ .dormant)
include hst

/-! #### LOOP_OPEN and LOOP_CLOSE -/

section
variable (ht : ((s.chip.decks.get d).loops.slots.get j).state ≠ .tuning)
include ht

theorem deckEffect_openClose {op : Op} (hop : op = .loopOpen ∨ op = .loopClose)
    (hs : s.Heads op h [BitVec.ofNat 8 d.val, BitVec.ofNat 8 j.val, 0, 0] rest) :
    deckEffect op h [BitVec.ofNat 8 d.val, BitVec.ofNat 8 j.val, 0, 0] s.chip
      = (s.started h rest op d).chip.effect (cmdOf op h [BitVec.ofNat 8 d.val, BitVec.ofNat 8 j.val, 0, 0]) d := by
  have hr : reservedBad op [BitVec.ofNat 8 d.val, BitVec.ofNat 8 j.val, 0, 0] = false := by
    rcases hop with rfl | rfl <;> rfl
  have hb : s.chip.rangeBad op [BitVec.ofNat 8 d.val, BitVec.ofNat 8 j.val, 0, 0] = false := by
    unfold Chip.rangeBad
    rcases hop with rfl | rfl <;> simp only [deckOf_cons, slotOk_cons, Bool.not_true]
  have hbusy : s.chip.deckBusy op [BitVec.ofNat 8 d.val, BitVec.ofNat 8 j.val, 0, 0] d = false := by
    unfold Chip.deckBusy
    rcases hop with rfl | rfl <;> simp only [slotOf_cons, ht, decide_false]
  exact hk.loopOp_effect hst hs (by rcases hop with rfl | rfl <;> decide) (deckOf_cons ..) hr hb (by rcases hop with rfl | rfl <;> rfl) hbusy

theorem exec_loopOpen (hs : s.Heads .loopOpen h [BitVec.ofNat 8 d.val, BitVec.ofNat 8 j.val, 0, 0] rest) :
    exec (.loopOpen h [BitVec.ofNat 8 d.val, BitVec.ofNat 8 j.val, 0, 0]) s = .next (
      if ((s.chip.decks.get d).loops.slots.get j).state = .open then s.deckAnswered h rest d (s.chip.decks.get d) Stat.already []
      else s.deckAnswered h rest d ((s.chip.decks.get d).withSlot j
        { (s.chip.decks.get d).loops.slots.get j with state := .open, feCount := 0 }) Stat.done []) := by
  have hslot : (s.started h rest .loopOpen d).chip.slot d j = (s.chip.decks.get d).loops.slots.get j := rfl
  refine State.onChip_to ?_ (by split <;> rfl)
  rw [deckEffect_openClose hk hst ht (.inl rfl) hs]
  show Chip.actLoopOpen _ _ d = _
  unfold Chip.actLoopOpen
  rw [cmdOf_payload, slotOf_cons]
  dsimp only
  rw [hslot, State.started_modSlot hk hs, hk.answers hs, apply_ite State.chip]

theorem exec_loopClose (hs : s.Heads .loopClose h [BitVec.ofNat 8 d.val, BitVec.ofNat 8 j.val, 0, 0] rest) :
    exec (.loopClose h [BitVec.ofNat 8 d.val, BitVec.ofNat 8 j.val, 0, 0]) s = .next (
      if ((s.chip.decks.get d).loops.slots.get j).state = .closed then s.deckAnswered h rest d (s.chip.decks.get d) Stat.already []
      else s.deckAnswered h rest d ((s.chip.decks.get d).withSlot j { (s.chip.decks.get d).loops.slots.get j with
        state := .closed
        fresh := ((s.chip.decks.get d).loops.slots.get j).fresh || (s.chip.decks.get d).loops.running
        reseed := ((s.chip.decks.get d).loops.slots.get j).reseed || (s.chip.decks.get d).loops.running }) Stat.done []) := by
  have hslot : (s.started h rest .loopClose d).chip.slot d j = (s.chip.decks.get d).loops.slots.get j := rfl
  refine State.onChip_to ?_ (by split <;> rfl)
  rw [deckEffect_openClose hk hst ht (.inr rfl) hs]
  show Chip.actLoopClose _ _ d = _
  unfold Chip.actLoopClose
  rw [cmdOf_payload, slotOf_cons]
  dsimp only
  rw [hslot, State.started_modSlot hk hs, hk.answers hs, apply_ite State.chip]
  rfl

end

/-! #### LOOP_WRITE and LOOP_READ -/

section
variable {es : List (W16 × W32)} (hs : s.Heads .loopWrite h (slotHead d j es.length ++ es.flatMap writeEntry) rest)
  (h1 : 1 ≤ es.length) (h64 : es.length ≤ 64)
  (ha : ((s.chip.decks.get d).loops.slots.get j).accepts (es.map fun e => (e.1.toNat, e.2)) = true)
  (ho : ((s.chip.decks.get d).loops.slots.get j).state = .open)
include hs h1 h64 ha ho

/-- An acceptable LOOP_WRITE to an OPEN slot writes its entries. -/
theorem deckEffect_loopWrite :
    deckEffect .loopWrite h (slotHead d j es.length ++ es.flatMap writeEntry) s.chip
      = ((s.started h rest .loopWrite d).chip.writeSlot d j (es.map fun e => (e.1.toNat, e.2))).answerCmd
          (cmdOf .loopWrite h (slotHead d j es.length ++ es.flatMap writeEntry)) Stat.done [] := by
  have hslot : ((s.started h rest .loopWrite d).chip.slot d j).state = .open := ho
  rw [hk.loopOp_effect hst hs (by decide) (deckOf_cons ..) (reservedBad_loopWrite d j es) (rangeBad_loopWrite d j h1 h64 ha) rfl rfl]
  show Chip.actLoopWrite _ _ d = _
  unfold Chip.actLoopWrite
  simp only [cmdOf_payload, slotOf_slotHead, loopEntries_slotHead d j h64]
  exact if_neg (not_not.mpr hslot)

theorem exec_loopWrite_plain (he : ∀ e ∈ es.map (fun e => (e.1.toNat, e.2)), e.1 ≠ 0x84) :
    exec (.loopWrite h (slotHead d j es.length ++ es.flatMap writeEntry)) s
      = .next (s.deckAnswered h rest d ((s.chip.decks.get d).withSlot j
          (((s.chip.decks.get d).loops.slots.get j).writeAll (es.map fun e => (e.1.toNat, e.2)))).retarget Stat.done []) := by
  refine State.onChip_to ?_ rfl
  rw [deckEffect_loopWrite hk hst hs h1 h64 ha ho, Chip.writeSlot_plain he]
  exact State.started_alters hk hs ..

theorem exec_loopWrite_safe {v : W32} (he : es.map (fun e => (e.1.toNat, e.2)) = [(0x84, v)]) :
    exec (.loopWrite h (slotHead d j es.length ++ es.flatMap writeEntry)) s
      = .next (s.deckAnswered h rest d ({ s.chip.decks.get d with
          loops.groups := (s.chip.decks.get d).loops.groups.set ((s.chip.decks.get d).loops.slots.get j).effAxis
            { (s.chip.decks.get d).loops.groups.get ((s.chip.decks.get d).loops.slots.get j).effAxis with
              safeU := signed16 v } }).retarget Stat.done []) := by
  refine State.onChip_to ?_ rfl
  rw [deckEffect_loopWrite hk hst hs h1 h64 ha ho, he, Chip.writeSlot_safe rfl]
  exact State.started_alters hk hs ..

end

/-- The registers asked for, in order. -/
theorem exec_loopRead {os : List W16} (hs : s.Heads .loopRead h (slotHead d j os.length ++ os.flatMap fun o => leBytes 2 o.toNat) rest)
    (h1 : 1 ≤ os.length) (h64 : os.length ≤ 64) (ha : ∀ o ∈ os, ((s.chip.decks.get d).loops.readSlot j o.toNat).isSome = true) :
    exec (.loopRead h (slotHead d j os.length ++ os.flatMap fun o => leBytes 2 o.toNat)) s
      = .next (s.deckAnswered h rest d (s.chip.decks.get d) Stat.done
          (os.flatMap fun o => leBytes 4 (((s.chip.decks.get d).loops.readSlot j o.toNat).getD 0).toNat)) := by
  refine State.onChip_to ?_ rfl
  rw [hk.loopOp_effect hst hs (by decide) (deckOf_cons ..) rfl (rangeBad_loopRead d j h1 h64 ha) rfl rfl, ← hk.answers hs]
  show Chip.actLoopRead _ _ d = _
  unfold Chip.actLoopRead
  simp only [cmdOf_payload, slotOf_slotHead, loopOffsets_slotHead d j h64, List.flatMap_map]
  rfl

/-! #### AUTOTUNE_RESULT -/

section
variable {apply : Byte} (hs : s.Heads .autotuneResult h [BitVec.ofNat 8 d.val, BitVec.ofNat 8 j.val, apply, 0] rest)
include hs

theorem deckEffect_autotuneResult (ha : apply = 0 ∨ apply = 1 ∧ (s.chip.decks.get d).seq.state = .ready) :
    deckEffect .autotuneResult h [BitVec.ofNat 8 d.val, BitVec.ofNat 8 j.val, apply, 0] s.chip
      = (s.started h rest .autotuneResult d).chip.actTuneResult
          (cmdOf .autotuneResult h [BitVec.ofNat 8 d.val, BitVec.ofNat 8 j.val, apply, 0]) d := by
  have hb : s.chip.rangeBad .autotuneResult [BitVec.ofNat 8 d.val, BitVec.ofNat 8 j.val, apply, 0] = false := by
    unfold Chip.rangeBad
    simp only [deckOf_cons, slotOk_cons]
    rcases ha with rfl | ⟨rfl, -⟩ <;> rfl
  have h9 : s.chip.order9 .autotuneResult [BitVec.ofNat 8 d.val, BitVec.ofNat 8 j.val, apply, 0] d = none := by
    unfold Chip.order9
    rcases ha with rfl | ⟨rfl, e⟩
    · simp [byteAt]
    · simp [DeckSeq.baseState, e]
  exact hk.loopOp_effect hst hs (by decide) (deckOf_cons ..) rfl hb h9 rfl

theorem exec_autotuneResult_reads (h0 : apply = 0) :
    exec (.autotuneResult h [BitVec.ofNat 8 d.val, BitVec.ofNat 8 j.val, apply, 0]) s
      = .next (s.deckAnswered h rest d (s.chip.decks.get d) Stat.done ((s.chip.decks.get d).loops.slots.get j).tune.bytes) := by
  refine State.onChip_to ?_ rfl
  rw [deckEffect_autotuneResult hk hst hs (.inl h0), ← hk.answers hs]
  subst h0
  unfold Chip.actTuneResult
  rw [cmdOf_payload, slotOf_cons]
  rfl

theorem exec_autotuneResult_applies (h1 : apply = 1) (hready : (s.chip.decks.get d).seq.state = .ready)
    (ho : ((s.chip.decks.get d).loops.slots.get j).state = .open) (ht : ((s.chip.decks.get d).loops.slots.get j).tune.state = .done) :
    exec (.autotuneResult h [BitVec.ofNat 8 d.val, BitVec.ofNat 8 j.val, apply, 0]) s
      = .next (s.deckAnswered h rest d ((s.chip.decks.get d).withSlot j ((s.chip.decks.get d).loops.slots.get j).tuned) Stat.done
          ((s.chip.decks.get d).loops.slots.get j).tuned.tune.bytes) := by
  have hslot : (s.started h rest .autotuneResult d).chip.slot d j = (s.chip.decks.get d).loops.slots.get j := rfl
  have hset : ((s.started h rest .autotuneResult d).chip.modSlot d j Slot.tuned).slot d j = ((s.chip.decks.get d).loops.slots.get j).tuned := by
    simp [Chip.modSlot_eq, Chip.slot, DeckAll.withSlot, State.started]
  refine State.onChip_to ?_ rfl
  rw [deckEffect_autotuneResult hk hst hs (.inr ⟨h1, hready⟩), ← State.started_modSlot hk hs, ← hset]
  subst h1
  have hne : byteAt [BitVec.ofNat 8 d.val, BitVec.ofNat 8 j.val, 1, 0] 2 ≠ 0#8 := (by decide : 1#8 ≠ 0#8)
  unfold Chip.actTuneResult
  rw [cmdOf_payload, slotOf_cons]
  dsimp only
  rw [hslot, if_neg hne, if_neg (not_not.mpr ho), if_neg (not_not.mpr ht)]
  rfl

end

end

/-- Settles O24: each opcode passes its checks and comes to its effect on the one slot, or to ALREADY where the slot stands so. -/
theorem loopSlotCommands : Obligations.LoopSlotCommands := by
  intro s h rest d j hk hst k sl b n with_
  refine ⟨fun hs => ⟨fun e => ?_, fun e => ?_⟩, fun hs => ⟨fun e => ?_, fun e => ?_⟩, ?_, ?_, fun hs => ?_, fun hs hready ho ht => ?_⟩
  · rw [exec_loopOpen hk hst (by show sl.state ≠ _; simp [e]) hs, if_neg (by show sl.state ≠ _; simp [e])]
    rfl
  · rw [exec_loopOpen hk hst (by show sl.state ≠ _; simp [e]) hs, if_pos e]
  · rw [exec_loopClose hk hst (by show sl.state ≠ _; simp [e]) hs, if_neg (by show sl.state ≠ _; simp [e])]
    rfl
  · rw [exec_loopClose hk hst (by show sl.state ≠ _; simp [e]) hs, if_pos e]
  · intro es p entries hs h1 h64 ha ho k1
    exact ⟨exec_loopWrite_plain hk hst hs h1 h64 ha ho, fun v he => exec_loopWrite_safe hk hst hs h1 h64 ha ho he⟩
  · intro os p hs h1 h64 ha
    exact exec_loopRead hk hst hs h1 h64 ha
  · exact exec_autotuneResult_reads hk hst hs rfl
  · exact exec_autotuneResult_applies hk hst hs rfl hready ho ht

end Sys2Proof.Machine
end

section
/-! SUPPORT. What the steps of a deck's sequences share: the targets and modes that follow a change, and what a run of shared operations makes of
a deck and of the replies of one context (R125, R181, R397, R439, R441). -/

namespace Sys2Proof.Machine

/-! ### The targets and modes that follow (R397, Table 18-2) -/

/-- `k1` is `k` but for its slots' targets and the CAP group's dir. -/
def DeckAll.Retargeted (k k1 : DeckAll) : Prop := ∃ loops, loops.running = k.loops.running ∧ k1 = { k with loops := loops }

theorem DeckAll.Retargeted.refl (k : DeckAll) : k.Retargeted k := ⟨k.loops, rfl, rfl⟩

/-- New motion targets, and the slot targets that follow. -/
theorem DeckAll.Retargeted.steer {k k1 : DeckAll} (h : k.Retargeted k1) (g : DeckSeq → DeckSeq) : (k.modSeq g).Retargeted (k1.steer g) := by
  obtain ⟨loops, hr, rfl⟩ := h
  obtain ⟨slots, groups, e⟩ := (DeckAll.modSeq { k with loops := loops } g).retarget_eq
  exact ⟨{ loops with slots := slots, groups := groups }, hr, e⟩

/-- `k1` is `k` but for that and the modes asked for, which the axes take later. -/
def DeckAll.Redriven (k k1 : DeckAll) : Prop := ∃ axes loops, k1 = { k with io := { k.io with axes := axes }, loops := loops } ∧
  (∀ a, (axes.get a).mode = (k.io.axes.get a).mode ∧ (axes.get a).trip = (k.io.axes.get a).trip) ∧ loops.running = k.loops.running

theorem DeckAll.Retargeted.redriven {k k1 : DeckAll} (h : k.Retargeted k1) : k.Redriven k1 := by
  obtain ⟨loops, hr, rfl⟩ := h
  exact ⟨k.io.axes, loops, rfl, fun _ => ⟨rfl, rfl⟩, hr⟩

/-- Asking for modes changes no mode and no latch. -/
theorem DeckAll.askModes_get (k : DeckAll) (a : Axis) :
    (k.askModes.io.axes.get a).mode = (k.io.axes.get a).mode ∧ (k.askModes.io.axes.get a).trip = (k.io.axes.get a).trip := by
  have h : k.askModes.io.axes.get a = (k.io.axes.get a).ask (stateMode k.seq.state k.withTape (Fin.ofNat 4 a.val)) := by
    show ((k.io.axes.zipIdx).map (fun x => x.1.ask (stateMode k.seq.state k.withTape (Fin.ofNat 4 x.2))))[a.val] = _
    simp only [Vector.getElem_map, Vector.getElem_zipIdx, Nat.zero_add]
    rfl
  rw [h]
  unfold AxisState.ask
  split <;> exact ⟨rfl, rfl⟩

theorem DeckAll.Redriven.inState {k k1 : DeckAll} (h : k.Redriven k1) (st : DeckState) :
    (k.modSeq (fun q => { q with state := st })).Redriven (k1.inState st) := by
  obtain ⟨axes, loops, rfl, ha, hr⟩ := h
  generalize hm : (DeckAll.modSeq { k with io := { k.io with axes := axes }, loops := loops } (fun q => { q with state := st })).askModes = k2
  obtain ⟨slots, groups, e⟩ := k2.retarget_eq
  refine ⟨k2.io.axes, { loops with slots := slots, groups := groups }, ?_, fun a => ?_, hr⟩
  · rw [DeckAll.inState, hm, e, ← hm]
    rfl
  · have hg := (DeckAll.modSeq { k with io := { k.io with axes := axes }, loops := loops } (fun q => { q with state := st })).askModes_get a
    rw [hm] at hg
    exact ⟨hg.1.trans (ha a).1, hg.2.trans (ha a).2⟩

theorem DeckAll.Redriven.steer {k k1 : DeckAll} (h : k.Redriven k1) (g : DeckSeq → DeckSeq) : (k.modSeq g).Redriven (k1.steer g) := by
  obtain ⟨axes, loops, rfl, ha, hr⟩ := h
  obtain ⟨slots, groups, e⟩ := (DeckAll.modSeq { k with io := { k.io with axes := axes }, loops := loops } g).retarget_eq
  exact ⟨axes, { loops with slots := slots, groups := groups }, e, ha, hr⟩

/-- The deck with other homing data. -/
def DeckAll.withHome (k : DeckAll) (home : Homing) : DeckAll := { k with io := { k.io with home := home } }

theorem DeckAll.Redriven.withHome {k k1 : DeckAll} (h : k.Redriven k1) (home : Homing) : (k.withHome home).Redriven (k1.withHome home) := by
  obtain ⟨axes, loops, rfl, ha, hr⟩ := h
  exact ⟨axes, loops, rfl, ha, hr⟩

section
variable (k : DeckAll) (st : DeckState)

@[simp] theorem DeckAll.inState_tape : (k.inState st).tape = k.tape := by simp [DeckAll.inState]
@[simp] theorem DeckAll.inState_lock : (k.inState st).lock = k.lock := by simp [DeckAll.inState]
@[simp] theorem DeckAll.inState_home : (k.inState st).io.home = k.io.home := by simp [DeckAll.inState]
@[simp] theorem DeckAll.inState_running : (k.inState st).loops.running = k.loops.running := by simp [DeckAll.inState]

variable (g : DeckSeq → DeckSeq)

@[simp] theorem DeckAll.steer_seq : (k.steer g).seq = g k.seq := by simp [DeckAll.steer]
@[simp] theorem DeckAll.steer_tape : (k.steer g).tape = k.tape := by simp [DeckAll.steer]
@[simp] theorem DeckAll.steer_lock : (k.steer g).lock = k.lock := by simp [DeckAll.steer]
@[simp] theorem DeckAll.steer_io : (k.steer g).io = k.io := by simp [DeckAll.steer]
@[simp] theorem DeckAll.steer_running : (k.steer g).loops.running = k.loops.running := by simp [DeckAll.steer]

end

theorem State.Hears.held {s : State} {d : Deck} {i : Ctx} (h : s.Hears d i) : (s.chip.decks.get d).lock.state = .held i := h.2.1

theorem State.Hears.taken {s : State} {d : Deck} {i : Ctx} (h : s.Hears d i) : (s.chip.decks.get d).lock.state ≠ .free := by
  rw [h.held]
  exact fun e => nomatch e

theorem Chip.drive_eq (ch : Chip) (d : Deck) (g : DeckSeq → DeckSeq) : ch.drive d g = ch.modDeck d (·.steer g) := rfl

/-! ### What a run of operations makes of a deck and of a context's replies -/

/-- The lease runs afresh from `t`, with the warning as `w` says (R167). -/
def DeckAll.leased (k : DeckAll) (t : W64) (w : Bool) : DeckAll := { k with lock := { k.lock with leaseAt := t, warned := w } }

/-- Chip a has come from chip s: deck d has become `k`, context c has got the replies `out` at the tail of its RPL queue and is in the state it was
in, and the timebase stands. -/
structure Chip.LeadsTo (s : Chip) (d : Deck) (c : Ctx) (out : List Reply) (k : DeckAll) (a : Chip) : Prop where
  deck : a.decks.get d = k
  timebase : a.timebase = s.timebase
  state : (a.ctxs.get c).state = (s.ctxs.get c).state
  rpl : (a.ctxs.get c).rpl = (s.ctxs.get c).rpl ++ out

namespace Chip.LeadsTo
variable {s a b : Chip} {d : Deck} {c : Ctx} {out : List Reply} {k : DeckAll}

theorem start (s : Chip) (d : Deck) (c : Ctx) : s.LeadsTo d c [] (s.decks.get d) s := ⟨rfl, rfl, rfl, (List.append_nil _).symm⟩

theorem modDeck (h : s.LeadsTo d c out k a) (f : DeckAll → DeckAll) : s.LeadsTo d c out (f k) (a.modDeck d f) :=
  ⟨by rw [Chip.modDeck_decks, vector_get_set_self, h.deck], h.timebase, h.state, h.rpl⟩

theorem ladleOnly (h : s.LeadsTo d c out k a) (g : a.LadleOnly b) : s.LeadsTo d c out k b :=
  ⟨by rw [g.decks, h.deck], g.timebase.trans h.timebase, by rw [g.ctxs, h.state], by rw [g.ctxs, h.rpl]⟩

/-- An event changes neither a deck nor a reply, whoever hears it (R140). -/
theorem postDeck (h : s.LeadsTo d c out k a) (e : Deck) (code : Byte) (unit : Nat) (arg : W32) :
    s.LeadsTo d c out k (a.postDeck e code unit arg) := by
  obtain ⟨es, m, ev, xs, hp, hx⟩ := a.postAt_frame a.now code (.deck e) unit (deckObject e) arg
  obtain ⟨q, hq⟩ := hx c
  rw [Chip.postDeck, Chip.post, hp]
  exact ⟨h.deck, h.timebase, by rw [hq]; exact h.state, by rw [hq]; exact h.rpl⟩

/-- A declaration changes Kettle alone (R34). -/
theorem declare (h : s.LeadsTo d c out k a) (x : Declaration) (cmd : Option Cmd) : s.LeadsTo d c out k (a.declare x cmd).1 := by
  unfold Chip.declare
  dsimp only
  repeat' split
  all_goals exact ⟨h.deck, h.timebase, h.state, h.rpl⟩

/-- A deck whose lock is taken stays switched on in its new state (R469). -/
theorem setDeckState (h : s.LeadsTo d c out k a) {st : DeckState} (hst : k.seq.state ≠ st) (hl : k.lock.state ≠ .free) :
    s.LeadsTo d c out (k.inState st) (a.setDeckState d st) := by
  have hp := (h.modDeck (·.inState st)).postDeck d Ev.deckState (servoUnit d) (BitVec.ofNat 32 st.code)
  rw [Chip.setDeckState_ne (by rwa [h.deck]), Chip.applyHold_not fun _ => .inl (by rwa [hp.deck, DeckAll.inState_lock])]
  exact hp

theorem drive (h : s.LeadsTo d c out k a) (g : DeckSeq → DeckSeq) : s.LeadsTo d c out (k.steer g) (a.drive d g) := h.modDeck (·.steer g)

/-- A completion of context c joins its replies; of the deck it can touch the lease alone (R125, R167). -/
theorem complete (h : s.LeadsTo d c out k a) (ho : (s.ctxs.get c).state = .open) (tag : W16) (rcrc : Bool) (st : Stat) (payload : List Byte) :
    ∃ t w, s.LeadsTo d c (out ++ [ctxReply 0x80 c tag rcrc st payload s.now]) (k.leased t w) (a.complete c tag rcrc st payload) := by
  have hnow : a.now = s.now := by rw [Chip.now, h.timebase, Chip.now]
  have hlease : ∃ t w, (a.restartLeases c).decks.get d = k.leased t w := by
    show ∃ t w, (a.restartLeases c).decks[d.val] = _
    have hk : a.decks[d.val] = k := h.deck
    simp only [Chip.restartLeases, Vector.getElem_map, Vector.getElem_zipIdx, hk]
    split
    · exact ⟨a.now, false, rfl⟩
    · exact ⟨k.lock.leaseAt, k.lock.warned, rfl⟩
  obtain ⟨t, w, hd⟩ := hlease
  refine ⟨t, w, ?_⟩
  rw [Chip.complete_open (h.state.trans ho), hnow]
  refine ⟨hd, h.timebase, ?_, ?_⟩
  · rw [Chip.modCtx_ctxs, vector_get_set_self]
    exact h.state
  · rw [Chip.modCtx_ctxs, vector_get_set_self]
    exact (congrArg (· ++ _) h.rpl).trans (List.append_assoc ..)

/-- The running operation of context c completes (R181). -/
theorem endOp (h : s.LeadsTo d c out k a) {o : DeckOp} (hop : k.seq.op = some o) (hc : o.ctx = c) (hs : o.silent = false)
    (ho : (s.ctxs.get c).state = .open) (hu : o.op ≠ .deckUnlock) (st : Stat) (payload : List Byte) :
    ∃ t w, s.LeadsTo d c (out ++ [ctxReply 0x80 c o.tag o.rcrc st payload s.now]) ((k.modSeq (fun q => { q with op := none })).leased t w)
      (a.endOp d st payload) := by
  subst hc
  unfold Chip.endOp
  rw [h.deck, hop]
  dsimp only
  rw [hs, if_neg Bool.false_ne_true, if_neg fun e => hu e.1]
  exact (h.modDeck (fun k => k.modSeq (fun q => { q with op := none }))).complete ho ..

/-- No DECK_STOP waits for rest. -/
theorem endStops (h : s.LeadsTo d c out k a) (hw : k.seq.stopWaiters = []) (st : Stat) : s.LeadsTo d c out k (a.endStops d st) := by
  have hk : k.modSeq (fun q => { q with stopWaiters := [] }) = k := by
    rw [← hw]
    rfl
  have hm := h.modDeck (fun k => k.modSeq (fun q => { q with stopWaiters := [] }))
  rw [hk] at hm
  unfold Chip.endStops
  rw [h.deck, hw]
  exact hm

theorem haltLoops (h : s.LeadsTo d c out k a) : s.LeadsTo d c out k.stopLoops (a.haltLoops d) := (h.modDeck DeckAll.stopLoops).declare _ none

/-- The deck rests with its loops stopped (R394). -/
theorem restIn (h : s.LeadsTo d c out k a) {st : DeckState} (hst : k.seq.state ≠ st) (hl : k.lock.state ≠ .free) (hw : k.seq.stopWaiters = []) :
    s.LeadsTo d c out (k.stopLoops.inState st) (a.restIn d st) :=
  (h.haltLoops.endStops hw Stat.done).setDeckState hst hl

/-- The declaration of a write or a read ends (R489). -/
theorem endDeclaration (h : s.LeadsTo d c out k a) :
    s.LeadsTo d c out { k with standing := [], tape.declared := none } (a.endDeclaration d) :=
  ((h.ladleOnly (a.releaseBlocks_ladleOnly ..)).modDeck (fun k => { k with standing := [], tape.declared := none })).declare _ none

end Chip.LeadsTo

/-- The operation `o` of deck d is over in chip a, and its completion stands last in its context's RPL queue (R125, R181). -/
abbrev State.Completed (s : State) (d : Deck) (o : DeckOp) (st : Stat) (payload : List Byte) (a : Chip) : Prop :=
  (a.decks.get d).seq.op = none ∧ a.timebase = s.chip.timebase ∧ (a.ctxs.get o.ctx).rpl = (s.chip.ctxs.get o.ctx).rpl ++ [s.endReply o st payload]

theorem Chip.LeadsTo.completed {s : State} {a : Chip} {d : Deck} {o : DeckOp} {st : Stat} {payload : List Byte} {k : DeckAll}
    (h : s.chip.LeadsTo d o.ctx [s.endReply o st payload] k a) (hop : k.seq.op = none) : s.Completed d o st payload a :=
  ⟨by rw [h.deck, hop], h.timebase, h.rpl⟩

end Sys2Proof.Machine
end

section
/-! SUPPORT. The steps of LOAD and HOME: LOAD_STEP_END and HOME_STEP_END (R176, R339, R340, R343, R434, R435, R449, R453, Tables 17-5 and 18-3). -/

namespace Sys2Proof.Machine

/-! ### Steps that enter a state, and steps that only set targets -/

section
variable {s t : State} {d : Deck} {i : Ctx} {c : Instr} {eff : Chip → Chip} (he : exec c s = s.onChip eff)
include he

/-- A step that, beside what makes s into t, enters `st`, as the deck `k` shows it but for modes asked for and slot targets. -/
theorem exec_enters (ht : s.pending = t.pending) {st : DeckState} {k k1 : DeckAll} (hc : eff s.chip = (t.enteredAs d i st k1).chip)
    (hk : k.Redriven k1) :
    ∃ axes loops, exec c s = .next ((t.entered d i st).withDeck d { k with io := { k.io with axes := axes }, loops := loops }) ∧
      (∀ a, (axes.get a).mode = (k.io.axes.get a).mode ∧ (axes.get a).trip = (k.io.axes.get a).trip) ∧ loops.running = k.loops.running := by
  obtain ⟨axes, loops, rfl, ha, hr⟩ := hk
  exact ⟨axes, loops, he.trans (State.onChip_to hc ht), ha, hr⟩

/-- A step that, beside that, makes the deck into `k`, but for slot targets. -/
theorem exec_retargets (ht : s.pending = t.pending) {k k1 : DeckAll} (hc : eff s.chip = (t.withDeck d k1).chip) (hk : k.Retargeted k1) :
    ∃ loops, loops.running = k.loops.running ∧ exec c s = .next (t.withDeck d { k with loops := loops }) := by
  obtain ⟨loops, hr, rfl⟩ := hk
  exact ⟨loops, hr, he.trans (State.onChip_to hc ht)⟩

/-- The state that a step reaches, by its chip. -/
theorem exec_reaches {a : Chip} (hc : eff s.chip = a) : ∃ u, exec c s = .next u ∧ u.chip = a := ⟨_, he, hc⟩

/-- A step that does nothing. -/
theorem exec_stays (hc : eff s.chip = s.chip) : exec c s = .next s := he.trans (State.onChip_to hc rfl)

end

/-! ### LOAD_STEP_END up to SCAN (Table 18-3) -/

theorem DeckAll.loading_of {k : DeckAll} {o : DeckOp} (ho : k.seq.op = some o) (hop : o.op = .load ∨ o.op = .unload) : k.loading = true := by
  simp [DeckAll.loading, ho, hop]

theorem loadStepEndEffect_idle {ch : Chip} {d : Deck} (h : (ch.decks.get d).seq.op = none) (f : ScanFound) : loadStepEndEffect d f ch = ch := by
  have hl : (ch.decks.get d).loading = false := by simp [DeckAll.loading, h]
  unfold loadStepEndEffect
  dsimp only
  split
  · rfl
  · exact if_pos (by simp [hl])

section
variable {s : State} {d : Deck} {i : Ctx} {p : Profile} {f : ScanFound} (hf : (s.chip.decks.get d).profile = some p)
  (hl : (s.chip.decks.get d).loading = true)
include hf hl

theorem loadStepEndEffect_scan (hst : (s.chip.decks.get d).seq.state = .scan) : loadStepEndEffect d f s.chip = s.chip.scanEnds d p f := by
  unfold loadStepEndEffect
  simp only [hf, hl, hst, not_true_eq_false, if_false]

theorem loadStepEndEffect_waits (hst : (s.chip.decks.get d).seq.state = .calibrate) (hw : (s.chip.decks.get d).seq.zeroed = false ∨
    (s.chip.decks.get d).seq.rhoSup = none ∨ (s.chip.decks.get d).seq.rhoTku = none) : loadStepEndEffect d f s.chip = s.chip := by
  unfold loadStepEndEffect
  simp only [hf, hl, hst, not_true_eq_false, if_false]
  refine if_neg fun ⟨h1, h2, h3⟩ => ?_
  rcases hw with e | e | e <;> simp_all

variable (hh : s.Hears d i) (hp : s.chip.domains.holdPend.getLsbD d.val = false)
include hh hp

omit hf hl in
/-- New targets, and then another state. -/
theorem State.drive_enters (g : DeckSeq → DeckSeq) {st : DeckState} (hne : (g (s.chip.decks.get d).seq).state ≠ st) :
    (s.chip.drive d g).setDeckState d st = (s.enteredAs d i st (((s.chip.decks.get d).steer g).inState st)).chip :=
  State.setDeckState_enters hh hp (by simp) (by simpa using hne)

theorem loadStepEndEffect_thread (hst : (s.chip.decks.get d).seq.state = .thread) :
    loadStepEndEffect d f s.chip = (s.enteredAs d i .tensionUp
      (((s.chip.decks.get d).steer fun q => { q with tension := p.tensionSet }).inState .tensionUp)).chip := by
  unfold loadStepEndEffect
  simp only [hf, hl, hst, not_true_eq_false, if_false]
  exact State.drive_enters hh hp _ (by simp [hst])

theorem loadStepEndEffect_calibrated (hst : (s.chip.decks.get d).seq.state = .calibrate) (hz : (s.chip.decks.get d).seq.zeroed = true)
    (hs : (s.chip.decks.get d).seq.rhoSup.isSome) (ht : (s.chip.decks.get d).seq.rhoTku.isSome) :
    loadStepEndEffect d f s.chip = (s.enteredAs d i .scan
      (((s.chip.decks.get d).steer fun q => { q with capSpeed := p.speedMin, reverse := false, stage := 0 }).inState .scan)).chip := by
  unfold loadStepEndEffect
  simp only [hf, hl, hst, hz, hs, ht, not_true_eq_false, if_false, and_self, if_true]
  exact State.drive_enters hh hp _ (by simp [hst])

theorem loadStepEndEffect_tensionUp (hst : (s.chip.decks.get d).seq.state = .tensionUp) :
    loadStepEndEffect d f s.chip = (s.enteredAs d i .homing
      (((s.chip.decks.get d).unhomed.inState .homing).homesFrom p (s.chip.decks.get d).io.posRaw)).chip := by
  have hb := State.beginHoming_withDeck (s := s) (k := s.chip.decks.get d) (f := p) hh hp rfl (by simp [hst])
  rw [State.withDeck_self] at hb
  rw [← hb]
  unfold loadStepEndEffect
  simp only [hf, hl, hst, not_true_eq_false, if_false]

end

/-- Homing begins away from an active POSLO#. -/
theorem DeckAll.homesFrom_active {k : DeckAll} (h : k.io.posLo.active = true) (p : Profile) (pos : Int) :
    (k.unhomed.inState .homing).homesFrom p pos = (k.unhomed.inState .homing).steer (fun q =>
      { q with posTarget := pos + travelLimit p + 2000000, posRamp := approachRamp p }) :=
  if_pos (by simpa [DeckAll.inState, DeckAll.unhomed] using h)

/-- It begins toward one that is not. -/
theorem DeckAll.homesFrom_inactive {k : DeckAll} (h : k.io.posLo.active = false) (p : Profile) (pos : Int) :
    (k.unhomed.inState .homing).homesFrom p pos = ((k.unhomed.inState .homing).withHome { k.unhomed.io.home with step := 2, fromPos := pos }).steer
      (fun q => { q with posTarget := pos - travelLimit p - 2000000, posRamp := approachRamp p }) := by
  refine (if_neg (by simpa [DeckAll.inState, DeckAll.unhomed] using h)).trans ?_
  rw [DeckAll.inState_home]
  rfl

/-! ### HOME_STEP_END (R434, Table 17-5) -/

theorem homeStepEndEffect_idle {ch : Chip} {d : Deck} (h : (ch.decks.get d).seq.op = none) (pos : Int) : homeStepEndEffect d pos ch = ch := by
  unfold homeStepEndEffect
  dsimp only
  split
  next e => rw [h] at e; cases e
  next => rfl

section
variable {s : State} {d : Deck} {p : Profile} {o : DeckOp} (hf : (s.chip.decks.get d).profile = some p)
  (ho : (s.chip.decks.get d).seq.op = some o) (hst : (s.chip.decks.get d).seq.state = .homing)
include hf ho hst

theorem homeStepEndEffect_limit {pos : Int} (h1 : (s.chip.decks.get d).io.home.step = 1)
    (hw : (pos - (s.chip.decks.get d).io.home.fromPos).natAbs ≤ travelLimit p) (hlo : (s.chip.decks.get d).io.posLo.active = false) :
    homeStepEndEffect d pos s.chip = (s.withDeck d (((s.chip.decks.get d).withHome { (s.chip.decks.get d).io.home with step := 2, fromPos := pos }).steer
      fun q => { q with posTarget := pos - travelLimit p - 2000000, posRamp := approachRamp p })).chip := by
  have hm : s.chip.approach d p pos = (s.withDeck d (((s.chip.decks.get d).withHome
      { (s.chip.decks.get d).io.home with step := 2, fromPos := pos }).steer
        fun q => { q with posTarget := pos - travelLimit p - 2000000, posRamp := approachRamp p })).chip := by
    rw [Chip.approach, Chip.modIo, Chip.drive_eq, Chip.modDeck_modDeck]
    rfl
  rw [← hm]
  unfold homeStepEndEffect
  simp [hf, ho, hst, h1, hlo, Nat.not_lt.mpr hw]

theorem homeStepEndEffect_released {pos : Int} (h4 : (s.chip.decks.get d).io.home.step = 4) (hlo : (s.chip.decks.get d).io.posLo.active = false) :
    homeStepEndEffect d pos s.chip = (s.withDeck d (((s.chip.decks.get d).withHome { (s.chip.decks.get d).io.home with step := 5 }).steer
      fun q => { q with posTarget := (s.chip.decks.get d).io.home.latch1 - 1000000, posRamp := reapproachRamp p })).chip := by
  have hm : s.chip.reapproach d p = (s.withDeck d (((s.chip.decks.get d).withHome { (s.chip.decks.get d).io.home with step := 5 }).steer
      fun q => { q with posTarget := (s.chip.decks.get d).io.home.latch1 - 1000000, posRamp := reapproachRamp p })).chip := by
    rw [Chip.reapproach, Chip.modIo, Chip.drive_eq, Chip.modDeck_modDeck]
    rfl
  rw [← hm]
  unfold homeStepEndEffect
  simp [hf, ho, hst, h4, hlo]

/-- The homing data of a positioner that has its home. -/
def Homing.found (h : Homing) : Homing := { h with step := 0, homed := true }

/-- Step 7 has the home, and goes on with HOME's end or CALIBRATE. -/
theorem homeStepEndEffect_homed {pos : Int} (h7 : (s.chip.decks.get d).io.home.step = 7) :
    let c1 := (s.withDeck d ((s.chip.decks.get d).withHome (s.chip.decks.get d).io.home.found)).chip
    homeStepEndEffect d pos s.chip =
      if o.op = .home then
        let c2 := c1.endOp d Stat.done (leBytes 8 (s.chip.decks.get d).io.home.latch2At.toNat)
        if (s.chip.decks.get d).seq.base = .ready then
          (c2.drive d (fun q => { q with posTarget := wrapTarget p (s.chip.decks.get d).tape.wrap.toNat 0, posRamp := approachRamp p })).setDeckState d .ready
        else c2.restIn d (s.chip.decks.get d).seq.base
      else c1.beginCalibrate d p := by
  unfold homeStepEndEffect
  simp [hf, ho, hst, h7]
  rfl

end

section
variable {s : State} {d : Deck} {i : Ctx} {p : Profile} {o : DeckOp} (hh : s.Hears d i) (hf : (s.chip.decks.get d).profile = some p)
  (ho : (s.chip.decks.get d).seq.op = some o) (hst : (s.chip.decks.get d).seq.state = .homing) (h7 : (s.chip.decks.get d).io.home.step = 7)
include hh hf ho hst h7

omit hh hf ho hst h7 in
/-- The target of wrap 0 (R443). -/
theorem wrapTarget_zero (p : Profile) : wrapTarget p 0 0 = 200000 := by simp [wrapTarget]

/-- The targets of CALIBRATE (Table 18-3). -/
def DeckSeq.calibrating (q : DeckSeq) (p : Profile) (marks : Int × Int × Int) : DeckSeq :=
  { q with capSpeed := p.speedMin, reverse := false, stage := 0, rhoSup := none, rhoTku := none, marks := marks, zeroed := false,
           posTarget := 200000, posRamp := approachRamp p }

/-- Homing that is not HOME's own leads to CALIBRATE. -/
theorem homeStepEndEffect_calibrates {pos : Int} (hp : s.chip.domains.holdPend.getLsbD d.val = false) (hop : o.op ≠ .home) :
    homeStepEndEffect d pos s.chip = (s.enteredAs d i .calibrate ((((s.chip.decks.get d).withHome (s.chip.decks.get d).io.home.found).steer
      (·.calibrating p (s.chip.decks.get d).io.counts)).inState .calibrate)).chip := by
  have hb : (s.withDeck d ((s.chip.decks.get d).withHome (s.chip.decks.get d).io.home.found)).chip.beginCalibrate d p
      = ((s.withDeck d (((s.chip.decks.get d).withHome (s.chip.decks.get d).io.home.found).steer
          (·.calibrating p (s.chip.decks.get d).io.counts))).chip).setDeckState d .calibrate := by
    rw [← State.drive_withDeck, Chip.beginCalibrate, State.withDeck_get, wrapTarget_zero]
    rfl
  rw [homeStepEndEffect_homed hf ho hst h7, if_neg hop, hb]
  exact State.setDeckState_enters hh hp (by simp [DeckAll.withHome]) (by simp [DeckAll.withHome, DeckSeq.calibrating, hst])

/-- HOME ends: the completion with the time of the second latch, and the state it began in. -/
theorem homeStepEndEffect_ends (pos : Int) (hop : o.op = .home) (hs : o.silent = false) (hopen : (s.chip.ctxs.get o.ctx).state = .open)
    (hw : (s.chip.decks.get d).seq.stopWaiters = []) (hbase : (s.chip.decks.get d).seq.base ≠ .homing) :
    ((homeStepEndEffect d pos s.chip).decks.get d).seq.state = (s.chip.decks.get d).seq.base ∧
      ((homeStepEndEffect d pos s.chip).decks.get d).io.home = (s.chip.decks.get d).io.home.found ∧
      ((s.chip.decks.get d).seq.base ≠ .ready → ((homeStepEndEffect d pos s.chip).decks.get d).loops.running = false) ∧
      s.Completed d o Stat.done (leBytes 8 (s.chip.decks.get d).io.home.latch2At.toNat) (homeStepEndEffect d pos s.chip) := by
  have hl := hh.taken
  obtain ⟨t, w, h2⟩ := ((Chip.LeadsTo.start s.chip d o.ctx).modDeck (·.withHome (s.chip.decks.get d).io.home.found)).endOp ho rfl hs hopen
    (by simp [hop]) Stat.done (leBytes 8 (s.chip.decks.get d).io.home.latch2At.toNat)
  rw [homeStepEndEffect_homed hf ho hst h7, if_pos hop, ← State.modDeck_eq s d (·.withHome (s.chip.decks.get d).io.home.found)]
  dsimp only
  by_cases hr : (s.chip.decks.get d).seq.base = .ready
  · rw [if_pos hr]
    have h3 := (h2.drive fun q => { q with posTarget := wrapTarget p (s.chip.decks.get d).tape.wrap.toNat 0, posRamp := approachRamp p }).setDeckState
      (st := .ready) (by simp [DeckAll.leased, DeckAll.withHome, hst]) (by simpa [DeckAll.leased, DeckAll.withHome] using hl)
    rw [h3.deck, DeckAll.inState_seq, DeckAll.inState_home, DeckAll.steer_io]
    exact ⟨hr.symm, rfl, fun e => absurd hr e, h3.completed (by rw [DeckAll.inState_seq, DeckAll.steer_seq]; rfl)⟩
  · rw [if_neg hr]
    have h3 := h2.restIn (st := (s.chip.decks.get d).seq.base) (by simpa [DeckAll.leased, DeckAll.withHome, hst] using hbase.symm)
      (by simpa [DeckAll.leased, DeckAll.withHome] using hl) (by simpa [DeckAll.leased, DeckAll.withHome] using hw)
    rw [h3.deck, DeckAll.inState_seq, DeckAll.inState_home, DeckAll.inState_running]
    exact ⟨rfl, rfl, fun _ => rfl, h3.completed (by rw [DeckAll.inState_seq]; rfl)⟩

end

/-! ### SCAN ends (R339, R340, R343) -/

/-- The label in force among those the scan found (R340). -/
def labelFound (f : ScanFound) : Option Label := Machine.inForce (labelOf f.labelA) (labelOf f.labelB)

/-- The label in force does not hold together (Table 13-10). -/
def scanBroken (p : Profile) (f : ScanFound) : Bool :=
  decide (mediaOf p f.signal (labelFound f) = .krf) && (match labelFound f with
    | some l => !l.structureOk
    | none => false)

theorem scanBroken_iff {p : Profile} {f : ScanFound} :
    scanBroken p f = true ↔ mediaOf p f.signal (labelFound f) = .krf ∧ ∃ l, labelFound f = some l ∧ l.structureOk = false := by
  unfold scanBroken
  cases labelFound f <;> simp

/-- The medium that SCAN reports: a label that does not hold together makes it unreadable. -/
def scanMedia (p : Profile) (f : ScanFound) : Media := if scanBroken p f then .unreadable else mediaOf p f.signal (labelFound f)

/-- A medium is a tape of this format only with a label. -/
theorem mediaOf_krf {p : Profile} {signal : Bool} {l : Option Label} (h : mediaOf p signal l = .krf) : ∃ x, l = some x := by
  cases l with
  | none => cases signal <;> cases h
  | some x => exact ⟨x, rfl⟩

theorem TapeInfo.enter_label (t : TapeInfo) (q : BitVec 2) (w : BitVec 6) : (t.enter q w).media = t.media ∧ (t.enter q w).label = t.label := by
  unfold TapeInfo.enter
  split <;> exact ⟨rfl, rfl⟩

theorem TapeInfo.toEod_label (t : TapeInfo) (q : BitVec 2) : (t.toEod q).media = t.media ∧ (t.toEod q).label = t.label := TapeInfo.enter_label ..

theorem TapeInfo.toBop_label (t : TapeInfo) (q : BitVec 2) : (t.toBop q).media = t.media ∧ (t.toBop q).label = t.label := TapeInfo.enter_label ..

/-- After a scan the tape is of the medium found, and one of this format has the label in force. -/
theorem TapeInfo.scanned_label (t : TapeInfo) (m : Media) (l : Option Label) (parts : List (List (Dataset × Bool))) (staged : Bool) :
    (t.scanned m l parts staged).media = some m ∧ (m = .krf → l.isSome → (t.scanned m l parts staged).label = l) := by
  unfold TapeInfo.scanned
  split
  next l =>
    dsimp only
    split
    · exact ⟨(TapeInfo.toEod_label ..).1, fun _ _ => (TapeInfo.toEod_label ..).2⟩
    · exact ⟨(TapeInfo.toBop_label ..).1, fun _ _ => (TapeInfo.toBop_label ..).2⟩
  next hx =>
    refine ⟨(TapeInfo.toBop_label ..).1, fun hm hl => ?_⟩
    obtain ⟨x, rfl⟩ := Option.isSome_iff_exists.mp hl
    exact absurd rfl (hx x hm)

/-- LOAD's reply does not say where the position is. -/
theorem TapeInfo.loadReply_object (t : TapeInfo) (x : W64) : ({ t with object := x } : TapeInfo).loadReply = t.loadReply := rfl

/-- The objects that wait have taken other numbers: the deck's staging, and the position after them (log entry 84). -/
def DeckAll.renumbered (k : DeckAll) (staged : List Staged) (poisoned : List Poisoned) (x : W64) : DeckAll :=
  { k with staged := staged, poisoned := poisoned, tape := { k.tape with object := x } }

namespace Chip.LeadsTo
variable {s a b : Chip} {d : Deck} {c : Ctx} {out : List Reply} {k : DeckAll}

/-- A change of a context's queue or ticket is neither of its state nor of its replies. -/
theorem modCtx (h : s.LeadsTo d c out k a) (i : Ctx) {f : Context → Context} (hs : (f (a.ctxs.get i)).state = (a.ctxs.get i).state)
    (hr : (f (a.ctxs.get i)).rpl = (a.ctxs.get i).rpl) : s.LeadsTo d c out k (a.modCtx i f) := by
  by_cases e : c = i
  · subst e
    exact ⟨h.deck, h.timebase, by rw [Chip.modCtx_ctxs, vector_get_set_self, hs, h.state],
      by rw [Chip.modCtx_ctxs, vector_get_set_self, hr, h.rpl]⟩
  · exact ⟨h.deck, h.timebase, by rw [Chip.modCtx_ctxs, vector_get_set_ne _ _ _ _ e, h.state],
      by rw [Chip.modCtx_ctxs, vector_get_set_ne _ _ _ _ e, h.rpl]⟩

/-- Held entries are none of it. -/
theorem withHeld (h : s.LeadsTo d c out k a) (x : List (Nat × HeldEntry)) : s.LeadsTo d c out k { a with held := x } :=
  ⟨h.deck, h.timebase, h.state, h.rpl⟩

theorem foldl {α : Type} {f : Chip → α → Chip} (hf : ∀ (a : Chip) (x : α), s.LeadsTo d c out k a → s.LeadsTo d c out k (f a x)) (xs : List α)
    (h : s.LeadsTo d c out k a) : s.LeadsTo d c out k (xs.foldl f a) := by
  induction xs generalizing a with
  | nil => exact h
  | cons x xs ih => exact ih (hf a x h)

theorem renumberTicket (h : s.LeadsTo d c out k a) (e : Deck) (x : W64) : s.LeadsTo d c out k (a.renumberTicket e x) := by
  unfold Chip.renumberTicket
  split
  · exact h.modCtx _ rfl rfl
  · exact h

theorem renumberStaged (h : s.LeadsTo d c out k a) (x : W64) :
    ∃ staged poisoned y, s.LeadsTo d c out (k.renumbered staged poisoned y) (a.renumberStaged d x) := by
  unfold Chip.renumberStaged
  split
  · exact ⟨k.staged, k.poisoned, k.tape.object, h⟩
  next n hn =>
    have hm := h.modDeck (fun k => k.renumbered (k.staged.map (·.moveOn (x - n)))
      (k.poisoned.map fun y => { y with object := y.object + (x - n) }) (x + BitVec.ofNat 64 (a.stagedObjects d)))
    refine ⟨k.staged.map (·.moveOn (x - n)), k.poisoned.map fun y => { y with object := y.object + (x - n) },
      x + BitVec.ofNat 64 (a.stagedObjects d), renumberTicket ?_ ..⟩
    split
    · exact hm
    · exact (hm.withHeld _).modCtx _ rfl rfl

end Chip.LeadsTo

/-- The deck as SCAN has found its tape. -/
def DeckAll.knows (k : DeckAll) (p : Profile) (f : ScanFound) (staged : Bool) : DeckAll :=
  ({ k with tape := k.tape.scanned (scanMedia p f) (labelFound f) f.parts staged } : DeckAll).afterLoad p

/-- The tape is known, and what is staged for it takes its new numbers. -/
def Chip.learnTape (ch : Chip) (d : Deck) (p : Profile) (f : ScanFound) : Chip :=
  let c0 := ch.modDeck d (·.knows p f (decide (0 < ch.stagedObjects d)))
  if scanMedia p f = .krf then c0.renumberStaged d (c0.decks.get d).tape.eodObject else c0

/-- The events of a scan: a blank tape, and the incomplete datasets. -/
def Chip.tellTape (ch : Chip) (d : Deck) (m : Media) (t : TapeInfo) : Chip :=
  ([0, 1, 2, 3] : List (Fin 4)).foldl (fun c q =>
    if t.incomplete.get q then c.postDeck d Ev.incompleteFound (servoUnit d) ((t.eodDs.get q).setWidth 32) else c)
    (if m = .blank then ch.postDeck d Ev.tapeBlank (servoUnit d) 0 else ch)

theorem Chip.scanEnds_eq (ch : Chip) (d : Deck) (p : Profile) (f : ScanFound) :
    ch.scanEnds d p f =
      let t := ((ch.modDeck d (·.knows p f (decide (0 < ch.stagedObjects d)))).decks.get d).tape
      let c := (((ch.learnTape d p f).tellTape d (scanMedia p f) t).modDeck d DeckAll.retarget).setDeckState d .ready
      if (c.decks.get d).seq.unloadAfter then (c.modOp d (fun o => { o with flushing := true })).flushStep d
      else if scanBroken p f then c.endOp d Stat.formatError []
      else c.endOp d Stat.done t.loadReply := rfl

theorem DeckAll.knows_frame (k : DeckAll) (p : Profile) (f : ScanFound) (staged : Bool) :
    (k.knows p f staged).seq.state = k.seq.state ∧ (k.knows p f staged).seq.op = k.seq.op ∧ (k.knows p f staged).seq.unloadAfter = k.seq.unloadAfter ∧
    (k.knows p f staged).lock = k.lock ∧ (k.knows p f staged).tape = k.tape.scanned (scanMedia p f) (labelFound f) f.parts staged :=
  ⟨rfl, rfl, rfl, rfl, rfl⟩

namespace Chip.LeadsTo
variable {s a : Chip} {d : Deck} {c : Ctx} {out : List Reply} {k : DeckAll}

theorem learnTape (h : s.LeadsTo d c out k a) (p : Profile) (f : ScanFound) : ∃ staged poisoned x,
    s.LeadsTo d c out ((k.knows p f (decide (0 < a.stagedObjects d))).renumbered staged poisoned x) (a.learnTape d p f) := by
  have h0 := h.modDeck (·.knows p f (decide (0 < a.stagedObjects d)))
  unfold Chip.learnTape
  dsimp only
  split
  · exact h0.renumberStaged _
  · exact ⟨_, _, _, h0⟩

theorem tellTape (h : s.LeadsTo d c out k a) (m : Media) (t : TapeInfo) : s.LeadsTo d c out k (a.tellTape d m t) := by
  refine foldl (fun b q hb => ?_) _ ?_
  · split
    · exact hb.postDeck ..
    · exact hb
  · split
    · exact h.postDeck ..
    · exact h

end Chip.LeadsTo

/-- SCAN of a LOAD ends: READY with the tape it has found, and LOAD's completion. -/
theorem State.scanEnds_completes {s : State} {d : Deck} {i : Ctx} {p : Profile} {f : ScanFound} {o : DeckOp} (hh : s.Hears d i)
    (ho : (s.chip.decks.get d).seq.op = some o) (hst : (s.chip.decks.get d).seq.state = .scan) (hu : (s.chip.decks.get d).seq.unloadAfter = false)
    (hs : o.silent = false) (hopen : (s.chip.ctxs.get o.ctx).state = .open) (hop : o.op ≠ .deckUnlock) :
    ((s.chip.scanEnds d p f).decks.get d).seq.state = .ready ∧
      ((s.chip.scanEnds d p f).decks.get d).tape.media = some (scanMedia p f) ∧
      (scanMedia p f = .krf → (labelFound f).isSome → ((s.chip.scanEnds d p f).decks.get d).tape.label = labelFound f) ∧
      (scanBroken p f = true → s.Completed d o Stat.formatError [] (s.chip.scanEnds d p f)) ∧
      (scanBroken p f = false → s.Completed d o Stat.done ((s.chip.scanEnds d p f).decks.get d).tape.loadReply (s.chip.scanEnds d p f)) := by
  have hl := hh.taken
  obtain ⟨staged, poisoned, x, h1⟩ := (Chip.LeadsTo.start s.chip d o.ctx).learnTape p f
  generalize hk0 : (s.chip.decks.get d).knows p f (decide (0 < s.chip.stagedObjects d)) = k0 at h1
  obtain ⟨e1, e2, e3, e4, e5⟩ := (s.chip.decks.get d).knows_frame p f (decide (0 < s.chip.stagedObjects d))
  rw [hk0] at e1 e2 e3 e4 e5
  obtain ⟨hm, hlab⟩ := (s.chip.decks.get d).tape.scanned_label (scanMedia p f) (labelFound f) f.parts (decide (0 < s.chip.stagedObjects d))
  rw [← e5] at hm hlab
  have h2 := ((h1.tellTape (scanMedia p f) k0.tape).modDeck DeckAll.retarget).setDeckState (st := .ready)
    (by simp [DeckAll.renumbered, e1, hst]) (by simpa [DeckAll.renumbered, e4] using hl)
  rw [Chip.scanEnds_eq]
  dsimp only
  rw [Chip.modDeck_decks, vector_get_set_self, hk0, h2.deck, DeckAll.inState_seq, DeckAll.retarget_seq,
    if_neg (by simp [DeckAll.renumbered, e3, hu])]
  have hop2 : ((k0.renumbered staged poisoned x).retarget.inState .ready).seq.op = some o := by
    simp [DeckAll.inState_seq, DeckAll.renumbered, e2, ho]
  have hst2 : ((k0.renumbered staged poisoned x).retarget.inState .ready).seq.state = .ready := by rw [DeckAll.inState_seq]
  have ht2 : ((k0.renumbered staged poisoned x).retarget.inState .ready).tape = { k0.tape with object := x } := by
    rw [DeckAll.inState_tape, DeckAll.retarget_tape]
    rfl
  generalize (k0.renumbered staged poisoned x).retarget.inState .ready = k2 at h2 hop2 hst2 ht2
  rw [← TapeInfo.loadReply_object k0.tape x, ← ht2]
  have hm2 : k2.tape.media = k0.tape.media ∧ k2.tape.label = k0.tape.label := by rw [ht2]; exact ⟨rfl, rfl⟩
  rw [← hm2.1] at hm
  rw [← hm2.2] at hlab
  cases hb : scanBroken p f with
  | true =>
    obtain ⟨t, w, h3⟩ := h2.endOp hop2 rfl hs hopen hop Stat.formatError []
    rw [if_pos rfl, h3.deck]
    exact ⟨hst2, hm, hlab, fun _ => h3.completed rfl, fun e => absurd e.symm Bool.false_ne_true⟩
  | false =>
    obtain ⟨t, w, h3⟩ := h2.endOp hop2 rfl hs hopen hop Stat.done k2.tape.loadReply
    rw [if_neg Bool.false_ne_true, h3.deck]
    exact ⟨hst2, hm, hlab, fun e => absurd e Bool.false_ne_true, fun _ => h3.completed rfl⟩

/-- Settles O53: each step enters its state with the targets of Table 18-3, the events and the completion beside it. -/
theorem loadAndHomeSteps : Obligations.LoadAndHomeSteps := by
  intro s d i p f hh hp k hf becomes aims
  have start : k.Redriven k := (DeckAll.Retargeted.refl k).redriven
  refine ⟨fun ho => ⟨exec_stays rfl (loadStepEndEffect_idle ho f), fun pos => exec_stays rfl (homeStepEndEffect_idle ho pos)⟩, ?_⟩
  intro o ho completes
  constructor
  · intro hop
    have hl : k.loading = true := DeckAll.loading_of ho (.inl hop)
    refine ⟨fun hst => ?_, fun hst => ?_, fun hst => ⟨fun hz hs ht => ?_, fun hw => ?_⟩, fun hst hu hs hopen => ?_⟩
    · exact exec_enters rfl rfl (loadStepEndEffect_thread hf hl hh hp hst) ((start.steer _).inState _)
    · have hc := loadStepEndEffect_tensionUp (f := f) hf hl hh hp hst
      have unhomed := (DeckAll.Retargeted.refl k.unhomed).redriven.inState .homing
      refine ⟨fun hlo => ?_, fun hlo => ?_⟩
      · rw [DeckAll.homesFrom_active hlo] at hc
        exact exec_enters rfl rfl hc (unhomed.steer _)
      · rw [DeckAll.homesFrom_inactive hlo] at hc
        exact exec_enters rfl rfl hc ((unhomed.withHome _).steer _)
    · exact exec_enters rfl rfl (loadStepEndEffect_calibrated hf hl hh hp hst hz hs ht) ((start.steer _).inState _)
    · exact exec_stays rfl (loadStepEndEffect_waits hf hl hst hw)
    · intro lab m broken
      obtain ⟨h1, h2, h3, h4, h5⟩ := State.scanEnds_completes (f := f) (p := p) hh ho hst hu hs hopen (by simp [hop])
      obtain ⟨u, he, hc⟩ := exec_reaches (s := s) (c := .loadStepEnd d f) rfl (loadStepEndEffect_scan hf hl hst)
      rw [← hc] at h1 h2 h3 h4 h5
      refine ⟨u, he, h1, fun hb => ?_, fun hb => ?_⟩
      · have hb' : scanBroken p f = true := scanBroken_iff.mpr hb
        rw [scanMedia, hb', if_pos rfl] at h2
        exact ⟨h2, h4 hb'⟩
      · have hb' : scanBroken p f = false := Bool.eq_false_iff.mpr (mt scanBroken_iff.mp hb)
        rw [scanMedia, hb', if_neg Bool.false_ne_true] at h2 h3
        exact ⟨h2, fun hm => h3 hm (Option.isSome_iff_exists.mpr (mediaOf_krf hm)), h5 hb'⟩
  · intro hst pos
    refine ⟨fun h1 hw hlo => ?_, fun h4 hlo => ?_, fun h7 => ?_⟩
    · exact exec_retargets rfl rfl (homeStepEndEffect_limit hf ho hst h1 hw hlo) ((DeckAll.Retargeted.refl _).steer _)
    · exact exec_retargets rfl rfl (homeStepEndEffect_released hf ho hst h4 hlo) ((DeckAll.Retargeted.refl _).steer _)
    · refine ⟨fun hop => ?_, fun hop hs hopen hsw hbase => ?_⟩
      · obtain ⟨axes, loops, he, ha, hr⟩ := exec_enters (c := .homeStepEnd d pos) rfl rfl (homeStepEndEffect_calibrates (pos := pos) hh hf ho hst h7 hp (by simp [hop]))
          (((DeckAll.Retargeted.refl _).redriven.steer _).inState _)
        exact ⟨loops, axes, hr, fun a => (ha a).1, he⟩
      · have hne : k.seq.base ≠ .homing := by rcases hbase with e | e | e <;> rw [e] <;> decide
        have h := homeStepEndEffect_ends hh hf ho hst h7 pos hop hs hopen hsw hne
        obtain ⟨u, he, hc⟩ := exec_reaches (s := s) (c := .homeStepEnd d pos) (eff := homeStepEndEffect d pos) rfl rfl
        rw [← hc] at h
        exact ⟨u, he, h⟩

end Sys2Proof.Machine
end

section
/-! SUPPORT. Rest, turns and UNLOAD: STOP_COMPLETE, WRAP_TURN and UNLOAD_STEP_END (R193, R216, R217, R316, R383, R387, R447, R452, R453, R458). -/

namespace Sys2Proof.Machine

/-! ### A deck that comes to rest (R452) -/

theorem Chip.endStops_none {ch : Chip} {d : Deck} (h : (ch.decks.get d).seq.stopWaiters = []) (st : Stat) : ch.endStops d st = ch := by
  have hk : (ch.decks.get d).modSeq (fun q => { q with stopWaiters := [] }) = ch.decks.get d := by
    rw [← h]
    rfl
  unfold Chip.endStops
  rw [h]
  exact (congrArg (fun k => ({ ch with decks := ch.decks.set d k } : Chip)) hk).trans (by rw [vector_set_get])

theorem Chip.structureWritten_idle {ch : Chip} {d : Deck} (h : (ch.decks.get d).seq.op = none) : ch.structureWritten d = ch := by
  unfold Chip.structureWritten
  simp only [h]

theorem Chip.flushStep_idle {ch : Chip} {d : Deck} (h : (ch.decks.get d).seq.op = none) : ch.flushStep d = ch := by
  unfold Chip.flushStep
  simp only [h]

/-- A deck that its holder keeps drains nothing. -/
theorem Chip.drainStep_held {ch : Chip} {d : Deck} {i : Ctx} (h : (ch.decks.get d).lock.state = .held i) : ch.drainStep d = ch := by
  unfold Chip.drainStep
  simp only [h]

theorem Chip.gateOff_none {ch : Chip} {d : Deck} (h : (ch.decks.get d).roller.stopAt = none) : ch.gateOff d = ch := by
  unfold Chip.gateOff
  rw [h]
  rfl

/-- The deck with its capstan at rest. -/
def DeckAll.rested (k : DeckAll) : DeckAll := k.steer fun q => { q with capSpeed := 0, stage := 0 }

/-- The deck comes to READY (R452). -/
def Chip.comesReady (ch : Chip) (d : Deck) : Chip :=
  ((ch.drive d (fun q => { q with capSpeed := 0, stage := 0 })).setDeckState d .ready).endStops d Stat.done

theorem State.comesReady_enters {s : State} {d : Deck} {i : Ctx} (hh : s.Hears d i) (hp : s.chip.domains.holdPend.getLsbD d.val = false)
    {k : DeckAll} (hl : k.lock = (s.chip.decks.get d).lock) (hst : k.seq.state ≠ .ready) (hw : k.seq.stopWaiters = []) :
    (s.withDeck d k).chip.comesReady d = (s.enteredAs d i .ready (k.rested.inState .ready)).chip := by
  have he : ((s.withDeck d k.rested).chip).setDeckState d .ready = (s.enteredAs d i .ready (k.rested.inState .ready)).chip :=
    State.setDeckState_enters hh hp (by simpa [DeckAll.rested] using hl) (by simpa [DeckAll.rested] using hst)
  rw [Chip.comesReady, State.drive_withDeck]
  refine (congrArg (fun c => Chip.endStops c d Stat.done) he).trans (Chip.endStops_none ?_ _)
  rw [State.enteredAs_get, DeckAll.inState_seq]
  simpa [DeckAll.rested] using hw

theorem Chip.LeadsTo.comesReady {s a : Chip} {d : Deck} {c : Ctx} {out : List Reply} {k : DeckAll} (h : s.LeadsTo d c out k a)
    (hst : k.seq.state ≠ .ready) (hl : k.lock.state ≠ .free) (hw : k.seq.stopWaiters = []) :
    s.LeadsTo d c out (k.rested.inState .ready) (a.comesReady d) := by
  have h1 := (h.drive fun q => { q with capSpeed := 0, stage := 0 }).setDeckState (st := .ready) (by simpa using hst) (by simpa using hl)
  exact h1.endStops (by rw [DeckAll.inState_seq]; simpa using hw) Stat.done

/-! ### STOP_COMPLETE (R452, Table 18-4) -/

theorem stopCompleteEffect_ready {ch : Chip} {d : Deck} (h : (ch.decks.get d).seq.state = .ready) : stopCompleteEffect d ch = ch := by
  unfold stopCompleteEffect
  simp only [h]

/-- The deck's writing and its matcher at rest (R387). -/
def DeckAll.quieted (k : DeckAll) : DeckAll :=
  { k with roller := { k.roller with gate := false, wl := 0 }, matcher := { k.matcher with restAt := none, stored := 0, underrun := false } }

theorem stopCompleteEffect_stopping {ch : Chip} {d : Deck} (h : (ch.decks.get d).seq.state = .stopping) (hg : (ch.decks.get d).roller.stopAt = none) :
    stopCompleteEffect d ch = (((if (ch.decks.get d).matcher.underrun then (ch.modDeck d DeckAll.quieted).backhitch d
      else ch.modDeck d DeckAll.quieted).comesReady d).structureWritten d |>.flushStep d).drainStep d := by
  unfold stopCompleteEffect
  simp only [h, Chip.gateOff_none hg]
  rfl

section
variable {s : State} {d : Deck} {i : Ctx} (hh : s.Hears d i)
include hh

/-- The tape backs up: BACKHITCH to the holder (R387). -/
theorem State.backhitch_told {p : Profile} {k : DeckAll} (hf : k.profile = some p) (hl : k.lock = (s.chip.decks.get d).lock) :
    (s.withDeck d k).chip.backhitch d = ((s.told d i Ev.backhitch (servoUnit d) (BitVec.ofNat 32 p.backhitch)).withDeck d k).chip := by
  unfold Chip.backhitch
  simp only [State.withDeck_get, hf]
  rw [State.postDeck_told (hh.withDeck hl) (by decide) (by decide), State.told_withDeck]

/-- A deck with nothing else to do after its stop. -/
theorem State.stops_enters {t : State} (ht : t.Hears d i) (htp : t.chip.domains.holdPend.getLsbD d.val = false)
    (htd : t.chip.decks = s.chip.decks) (hst : (s.chip.decks.get d).seq.state = .stopping) (ho : (s.chip.decks.get d).seq.op = none)
    (hw : (s.chip.decks.get d).seq.stopWaiters = []) :
    ((((t.withDeck d (s.chip.decks.get d).quieted).chip.comesReady d).structureWritten d).flushStep d).drainStep d
      = (t.enteredAs d i .ready ((s.chip.decks.get d).quieted.rested.inState .ready)).chip := by
  rw [State.comesReady_enters ht htp (k := (s.chip.decks.get d).quieted) (by rw [htd]; rfl) (by simp [DeckAll.quieted, hst]) hw]
  have hop : ((t.enteredAs d i .ready ((s.chip.decks.get d).quieted.rested.inState .ready)).chip.decks.get d).seq.op = none := by
    rw [State.enteredAs_get, DeckAll.inState_seq]
    simpa [DeckAll.rested, DeckAll.quieted] using ho
  have hlock : ((t.enteredAs d i .ready ((s.chip.decks.get d).quieted.rested.inState .ready)).chip.decks.get d).lock.state = .held i := by
    rw [State.enteredAs_get]
    simpa [DeckAll.rested, DeckAll.quieted] using hh.held
  rw [Chip.structureWritten_idle hop, Chip.flushStep_idle hop, Chip.drainStep_held hlock]

end

/-- The position at the beginning of partition 0 (R216). -/
def DeckAll.rewound (k : DeckAll) : DeckAll := { k with tape := k.tape.toBop 0 }

/-- A load given up: no tape and no home (R453). -/
def DeckAll.abandoned (k : DeckAll) : DeckAll :=
  { k with tape := { k.tape with media := none, label := none, marker := false }
           io := { k.io with home := { k.io.home with homed := false, offset := 0, step := 0 } } }

section
variable {s : State} {d : Deck} {i : Ctx} {o : DeckOp} (hh : s.Hears d i) (hst : (s.chip.decks.get d).seq.state = .streaming)
  (ho : (s.chip.decks.get d).seq.op = some o) (hm : o.moving = true)
include hh hst ho hm

/-- REWIND comes to rest at the beginning of partition 0, and completes (R216). -/
theorem stopCompleteEffect_rewinds (hop : o.op = .rewind) (hs : o.silent = false) (hopen : (s.chip.ctxs.get o.ctx).state = .open)
    (hw : (s.chip.decks.get d).seq.stopWaiters = []) :
    ((stopCompleteEffect d s.chip).decks.get d).seq.state = .ready ∧
      ((stopCompleteEffect d s.chip).decks.get d).tape = (s.chip.decks.get d).tape.toBop 0 ∧
      s.Completed d o Stat.done [] (stopCompleteEffect d s.chip) := by
  have he : stopCompleteEffect d s.chip
      = (((s.chip.setDeckState d .stopping).modDeck d DeckAll.rewound).endOp d Stat.done []).comesReady d := by
    unfold stopCompleteEffect
    simp only [hst, ho, hop, hm, and_self, if_true]
    rfl
  have hl := hh.taken
  have h1 := ((Chip.LeadsTo.start s.chip d o.ctx).setDeckState (st := .stopping) (by simp [hst]) hl).modDeck DeckAll.rewound
  obtain ⟨t, w, h2⟩ := h1.endOp (o := o) (by simpa [DeckAll.rewound, DeckAll.inState_seq] using ho) rfl hs hopen (by simp [hop]) Stat.done []
  generalize hk : ((((s.chip.decks.get d).inState .stopping).rewound.modSeq (fun q => { q with op := none })).leased t w) = k2 at h2
  have hseq : k2.seq = { (s.chip.decks.get d).seq with state := .stopping, op := none } := by
    have e := DeckAll.inState_seq (s.chip.decks.get d) .stopping
    rw [← hk]
    exact congrArg (fun q : DeckSeq => { q with op := none }) e
  have htape : k2.tape = (s.chip.decks.get d).tape.toBop 0 := by
    rw [← hk, ← DeckAll.inState_tape (s.chip.decks.get d) .stopping]
    rfl
  have hlock : k2.lock.state ≠ .free := by
    rw [← DeckAll.inState_lock (s.chip.decks.get d) .stopping] at hl
    rw [← hk]
    exact hl
  have h3 := h2.comesReady (by simp [hseq]) hlock (by rw [hseq]; exact hw)
  rw [he, h3.deck, DeckAll.inState_seq, DeckAll.inState_tape, DeckAll.rested, DeckAll.steer_tape, htape]
  exact ⟨rfl, rfl, h3.completed (by rw [DeckAll.inState_seq, DeckAll.rested, DeckAll.steer_seq, hseq])⟩

/-- An operation that waits for a read buffer backs up (R383). -/
theorem stopCompleteEffect_starved {p : Profile} (hf : (s.chip.decks.get d).profile = some p) (hop : o.op ≠ .rewind)
    (hstall : (s.chip.decks.get d).strainer.stalled = true) (hc : (s.chip.decks.get d).seq.capSpeed = 0) :
    stopCompleteEffect d s.chip = (s.told d i Ev.backhitch (servoUnit d) (BitVec.ofNat 32 p.backhitch)).chip := by
  have hb := State.backhitch_told hh hf rfl
  rw [State.withDeck_self] at hb
  unfold stopCompleteEffect
  simp only [hst, ho, hop, hm, hstall, hc, false_and, and_self, if_false, if_true, hb]
  exact congrArg State.chip (State.withDeck_self (s.told d i Ev.backhitch (servoUnit d) (BitVec.ofNat 32 p.backhitch)) d)

end

/-- A LOAD stopped before its tape was read leaves PRESENT, without a tape or a home (R453). -/
theorem stopCompleteEffect_abandons {s : State} {d : Deck} {i : Ctx} (hh : s.Hears d i)
    (hst : (s.chip.decks.get d).seq.state ∈ [.thread, .tensionUp, .calibrate, .scan]) (ho : (s.chip.decks.get d).seq.op = none)
    (hw : (s.chip.decks.get d).seq.stopWaiters = []) :
    ((stopCompleteEffect d s.chip).decks.get d).seq.state = .present ∧ ((stopCompleteEffect d s.chip).decks.get d).tape.media = none ∧
      ((stopCompleteEffect d s.chip).decks.get d).io.home.homed = false ∧ ((stopCompleteEffect d s.chip).decks.get d).loops.running = false := by
  have hl := hh.taken
  have ⟨he, hne⟩ : stopCompleteEffect d s.chip = s.chip.abandonLoad d .present ∧ (s.chip.decks.get d).seq.state ≠ .present := by
    unfold stopCompleteEffect
    simp only [List.mem_cons, List.not_mem_nil, or_false] at hst
    rcases hst with e | e | e | e <;> simp [e, ho]
  have h : s.chip.LeadsTo d i [] ((s.chip.decks.get d).abandoned.stopLoops.inState .present) (s.chip.abandonLoad d .present) :=
    ((Chip.LeadsTo.start s.chip d i).modDeck DeckAll.abandoned).restIn hne hl hw
  rw [he, h.deck, DeckAll.inState_seq, DeckAll.inState_tape, DeckAll.inState_home, DeckAll.inState_running]
  exact ⟨rfl, rfl, rfl, rfl⟩

/-! ### WRAP_TURN (R316, R447) -/

theorem wrapTurnEffect_still {ch : Chip} {d : Deck} (h : (ch.decks.get d).seq.state ≠ .streaming) : wrapTurnEffect d ch = ch := by
  unfold wrapTurnEffect
  dsimp only
  split
  · exact if_pos h
  · rfl

/-- An operation that has begun to move tape ends by its engine (R20, R21). -/
theorem Chip.LeadsTo.finish {s a : Chip} {d : Deck} {c : Ctx} {out : List Reply} {k : DeckAll} (h : s.LeadsTo d c out k a) {o : DeckOp}
    (hop : k.seq.op = some o) (hm : o.moving = true) (st : Stat) (payload : List Byte) : ∃ queue,
    s.LeadsTo d c out { k.endReading.noteEw.modSeq (fun q => { q with op := none }) with cookQ := queue } (a.finish d st payload) := by
  have h1 := ((h.modDeck DeckAll.endReading).ladleOnly (b := a.stopReading d) (Chip.releaseBlocks_ladleOnly ..)).modDeck
    (fun k => k.noteEw.modSeq (fun q => { q with op := none }))
  have h2 (w : CookWork) := h1.modDeck (fun k => { k with cookQ := k.cookQ ++ [w] })
  unfold Chip.finish Chip.engineEnds
  rw [h.deck, hop]
  dsimp only
  rw [if_pos hm, if_pos rfl]
  exact ⟨_, h2 _⟩

theorem TapeInfo.enter_wrap (t : TapeInfo) (q : BitVec 2) (w : BitVec 6) : (t.enter q w).wrap = w := by
  unfold TapeInfo.enter
  split <;> rfl

/-- The deck at the EOD that a long erase has written (R217, R342). -/
def DeckAll.erased (k : DeckAll) : DeckAll :=
  { k with roller := { k.roller with gate := false, wl := 0, tail := none }, tape := k.tape.toEod k.tape.partition }

/-- What WRAP_TURN makes of a deck: the head on wrap w with the gate off, and the next dataset at `next`. -/
def DeckAll.turned (k : DeckAll) (w : BitVec 6) (next : Option Int) : DeckAll :=
  { k with tape := { k.tape with wrap := w, beyondEw := false }
           roller := { k.roller with gate := false, wl := 0, tail := none, eraseFrom := none, nextP0 := next } }

/-- The targets of the next wrap: direction, positioner and speed (R443, R445, R447). -/
def DeckSeq.turned (q : DeckSeq) (p : Profile) (w : BitVec 6) (v : Nat) : DeckSeq :=
  { q with reverse := w.getLsbD 0, posTarget := 200000 + w.toNat * p.wrapPitch, posRamp := approachRamp p, offset := 0, capSpeed := v }

/-- An operation under way other than an erasure reads, or positions (R447). -/
def DeckAll.readsOn (k : DeckAll) : Bool :=
  k.seq.op.any (fun o => o.moving && !decide (o.op = .eraseFromHere ∨ o.op = .formatTape))

section
variable {s : State} {d : Deck} {i : Ctx} {p : Profile} {l : Label} (hf : (s.chip.decks.get d).profile = some p)
  (hl : (s.chip.decks.get d).tape.label = some l) (hst : (s.chip.decks.get d).seq.state = .streaming)
include hf hl hst

theorem wrapTurnEffect_last (hlast : l.lastWrap (s.chip.decks.get d).tape.partition.toNat (s.chip.decks.get d).tape.wrap.toNat = true)
    (he : (s.chip.decks.get d).longErase = false) : wrapTurnEffect d s.chip = s.chip := by
  unfold wrapTurnEffect
  simp [hf, hl, hst, hlast, he]

/-- On the last wrap a long erase is over (R217). -/
theorem wrapTurnEffect_erased (hlast : l.lastWrap (s.chip.decks.get d).tape.partition.toNat (s.chip.decks.get d).tape.wrap.toNat = true)
    (he : (s.chip.decks.get d).longErase = true) (hi : s.chip.writeIdle d = true) :
    ((wrapTurnEffect d s.chip).decks.get d).seq.op = none ∧ ((wrapTurnEffect d s.chip).decks.get d).roller.gate = false ∧
    ((wrapTurnEffect d s.chip).decks.get d).tape.wrap
      = (s.chip.decks.get d).tape.eodWrap.get (Fin.ofNat 4 (s.chip.decks.get d).tape.partition.toNat) := by
  have ⟨o, ho, hm⟩ : ∃ o, (s.chip.decks.get d).seq.op = some o ∧ o.moving = true := by
    unfold DeckAll.longErase at he
    split at he
    next o ho => exact ⟨o, ho, by simp_all⟩
    next => cases he
  have hc : wrapTurnEffect d s.chip = (s.chip.modDeck d DeckAll.erased).finish d Stat.done [] := by
    unfold wrapTurnEffect
    simp only [hf, hl, hst, hlast, he, hi, ne_eq, not_true_eq_false, if_false, if_true, and_self, Chip.modTape, Chip.modDeck_modDeck]
    rfl
  obtain ⟨queue, h⟩ := ((Chip.LeadsTo.start s.chip d o.ctx).modDeck DeckAll.erased).finish (o := o) ho hm Stat.done []
  obtain ⟨b, hb⟩ := ((s.chip.decks.get d).erased.endReading).noteEw_frame
  rw [hc, h.deck, hb]
  exact ⟨rfl, rfl, TapeInfo.enter_wrap ..⟩

/-- Before the last wrap the tape turns to the next one. -/
theorem wrapTurnEffect_turns (hh : s.Hears d i)
    (hlast : l.lastWrap (s.chip.decks.get d).tape.partition.toNat (s.chip.decks.get d).tape.wrap.toNat = false) {w : BitVec 6}
    (hw : (s.chip.decks.get d).tape.wrap + 1 = w) :
    let k := s.chip.decks.get d
    wrapTurnEffect d s.chip = ((s.told d i Ev.wrapTurn (servoUnit d) (w.setWidth 32)).withDeck d
      (((k.turned w (if k.readsOn then none else some (wrapStart p w))).aimed p w).steer (fun q =>
        { q with capSpeed := if k.readsOn then k.readSpeed else speedOf p k.matcher.target }))).chip := by
  intro k
  have hc : wrapTurnEffect d s.chip = ((((s.withDeck d (k.turned w (if k.readsOn then none else some (wrapStart p w)))).chip.aimAt d w).drive d
      (fun q => { q with capSpeed := if k.readsOn then k.readSpeed else speedOf p k.matcher.target })).postDeck d Ev.wrapTurn (servoUnit d)
        (w.setWidth 32)) := by
    unfold wrapTurnEffect
    simp only [hf, hl, hst, hlast, hw, ne_eq, not_true_eq_false, Bool.false_eq_true, if_false]
    rfl
  rw [hc, State.aimAt_withDeck (k := k.turned w _) hf, State.drive_withDeck,
    State.postDeck_told (hh.withDeck (by simp [DeckAll.aimed, DeckAll.turned, k])) (by decide) (by decide), State.told_withDeck]

end

theorem DeckAll.Retargeted.turned {k : DeckAll} (p : Profile) (w : BitVec 6) (next : Option Int) (v : Nat) :
    ({ k.turned w next with seq := k.seq.turned p w v } : DeckAll).Retargeted
      (((k.turned w next).aimed p w).steer (fun q => { q with capSpeed := v })) := by
  have h := ((DeckAll.Retargeted.refl (k.turned w next)).steer (fun q =>
    { q with reverse := w.getLsbD 0, posTarget := wrapTarget p w.toNat 0, posRamp := approachRamp p, offset := 0 })).steer
    (fun q => { q with capSpeed := v })
  have e : (200000 + w.toNat * p.wrapPitch : Int) = wrapTarget p w.toNat 0 := by simp [wrapTarget]
  rw [DeckSeq.turned, e]
  exact h

/-! ### UNLOAD_STEP_END (R458) -/

theorem unloadStepEndEffect_still {ch : Chip} {d : Deck} (h : (ch.decks.get d).seq.state ≠ .unloading) : unloadStepEndEffect d ch = ch := by
  unfold unloadStepEndEffect
  dsimp only
  split
  · rfl
  · exact if_pos (.inl h)

/-- The targets of the next stage of UNLOAD, up to the tension ramp (R458). -/
def DeckSeq.unloads (q : DeckSeq) (p : Profile) (hi : Nat) : DeckSeq :=
  match q.stage with
  | 1 => { q with stage := 2, reverse := true, capSpeed := hi }
  | 2 => { q with stage := 3, capSpeed := p.speedMin }
  | 3 => { q with stage := 4 }
  | 4 => { q with stage := 5, capSpeed := 0, tension := 0 }
  | _ => q

section
variable {s : State} {d : Deck} {i : Ctx} {p : Profile} {o : DeckOp} (hf : (s.chip.decks.get d).profile = some p)
  (hst : (s.chip.decks.get d).seq.state = .unloading) (ho : (s.chip.decks.get d).seq.op = some o)
include hf hst ho

theorem unloadStepEndEffect_goes (hop : o.op = .unload) (hs : (s.chip.decks.get d).seq.stage ∈ [1, 2, 3, 4]) :
    unloadStepEndEffect d s.chip = (s.withDeck d
      ((s.chip.decks.get d).steer fun q => q.unloads p (s.chip.decks.get d).readSpeed)).chip := by
  have hd : (s.withDeck d ((s.chip.decks.get d).steer fun q => q.unloads p (s.chip.decks.get d).readSpeed)).chip
      = s.chip.drive d (fun _ => (s.chip.decks.get d).seq.unloads p (s.chip.decks.get d).readSpeed) := rfl
  have hl := DeckAll.loading_of ho (.inr hop)
  unfold unloadStepEndEffect
  simp only [List.mem_cons, List.not_mem_nil, or_false] at hs
  rcases hs with e | e | e | e
  all_goals
    simp only [hf, hst, hl, e, ne_eq, not_true_eq_false, or_self, if_false]
    rw [hd, DeckSeq.unloads]
    simp only [e]
    rfl

/-- The fifth stage leaves PRESENT without a tape or a home, and UNLOAD completes (R458). -/
theorem unloadStepEndEffect_unloads (hh : s.Hears d i) (hop : o.op = .unload) (hs : (s.chip.decks.get d).seq.stage = 5) (hsil : o.silent = false)
    (hopen : (s.chip.ctxs.get o.ctx).state = .open) (hw : (s.chip.decks.get d).seq.stopWaiters = []) :
    ((unloadStepEndEffect d s.chip).decks.get d).seq.state = .present ∧ ((unloadStepEndEffect d s.chip).decks.get d).tape.media = none ∧
    ((unloadStepEndEffect d s.chip).decks.get d).io.home.homed = false ∧ ((unloadStepEndEffect d s.chip).decks.get d).loops.running = false ∧
    s.Completed d o Stat.done [] (unloadStepEndEffect d s.chip) := by
  have he : unloadStepEndEffect d s.chip
      = (((s.chip.endDeclaration d).modDeck d DeckAll.unloaded).restIn d .present).endOp d Stat.done [] := by
    unfold unloadStepEndEffect
    simp only [hf, hst, DeckAll.loading_of ho (.inr hop), hs, ne_eq, not_true_eq_false, or_self, if_false]
    rfl
  have hl := hh.taken
  have h1 := (((Chip.LeadsTo.start s.chip d o.ctx).endDeclaration).modDeck DeckAll.unloaded).restIn (st := .present)
    (by simp [DeckAll.unloaded, hst]) hl hw
  generalize hk : (DeckAll.stopLoops (DeckAll.unloaded _)) = k1 at h1
  obtain ⟨t, w, h2⟩ := h1.endOp (o := o) (by rw [DeckAll.inState_seq, ← hk]; exact ho) rfl hsil hopen (by simp [hop]) Stat.done []
  rw [he, h2.deck]
  refine ⟨?_, ?_, ?_, ?_, h2.completed rfl⟩
  · exact congrArg DeckSeq.state (DeckAll.inState_seq k1 .present)
  · exact (congrArg TapeInfo.media (DeckAll.inState_tape k1 .present)).trans (by rw [← hk]; rfl)
  · exact (congrArg Homing.homed (DeckAll.inState_home k1 .present)).trans (by rw [← hk]; rfl)
  · exact (DeckAll.inState_running k1 .present).trans (by rw [← hk]; rfl)

end

/-! ### The instructions -/

/-- A holder that has room for two events hears the deck after the first. -/
theorem State.Hears.told {s : State} {d : Deck} {i : Ctx} (h : s.Hears d i) (hn : s.chip.events.length < 63) (code : Byte) (unit : Nat)
    (arg : W32) : (s.told d i code unit arg).Hears d i := by
  obtain ⟨hv, hl, ho, -⟩ := h
  exact ⟨hv, hl, ho, by simpa [State.told] using Nat.succ_lt_succ hn⟩

/-- A deck with nothing else to do comes to rest in READY, told what t has been told more than s (R452). -/
theorem exec_stopComplete_rests {s t : State} {d : Deck} {i : Ctx} (hh : s.Hears d i) (ht : t.Hears d i)
    (htp : t.chip.domains.holdPend.getLsbD d.val = false) (htd : t.chip.decks = s.chip.decks) (hpend : s.pending = t.pending)
    (hst : (s.chip.decks.get d).seq.state = .stopping) (ho : (s.chip.decks.get d).seq.op = none)
    (hw : (s.chip.decks.get d).seq.stopWaiters = []) (hg : (s.chip.decks.get d).roller.stopAt = none)
    (hc : (if (s.chip.decks.get d).matcher.underrun then (s.chip.modDeck d DeckAll.quieted).backhitch d else s.chip.modDeck d DeckAll.quieted)
      = (t.withDeck d (s.chip.decks.get d).quieted).chip) :
    let k := s.chip.decks.get d
    ∃ axes loops, exec (.stopComplete d) s = .next ((t.entered d i .ready).withDeck d { k.quieted with
        seq := { k.seq with state := .ready, capSpeed := 0, stage := 0 }, io := { k.io with axes := axes }, loops := loops }) ∧
      loops.running = k.loops.running ∧ ∀ a, (axes.get a).mode = (k.io.axes.get a).mode := by
  intro k
  have hr := ((DeckAll.Retargeted.refl k.quieted).redriven.steer (fun q => { q with capSpeed := 0, stage := 0 })).inState .ready
  have he : stopCompleteEffect d s.chip = (t.enteredAs d i .ready (k.quieted.rested.inState .ready)).chip := by
    rw [stopCompleteEffect_stopping hst hg, hc]
    exact State.stops_enters hh ht htp htd hst ho hw
  obtain ⟨axes, loops, h, ha, hl⟩ := exec_enters (c := .stopComplete d) rfl hpend he hr
  exact ⟨axes, loops, h, hl, fun a => (ha a).1⟩

/-- Settles O54: rest, turns and UNLOAD, by what each effect makes of the deck. -/
theorem stopsTurnsAndUnload : Obligations.StopsTurnsAndUnload := by
  unfold Obligations.StopsTurnsAndUnload
  intro s d i p hh hp k hf completes back rests
  refine ⟨fun hst => ⟨?_, ?_, ?_⟩, fun hst ho hw hg => ⟨fun hu => ?_, fun hu hlen => ?_⟩,
    fun o hst ho hm => ⟨fun hop hs hopen hw => ?_, fun hop hstall hc => ?_⟩, fun hst ho hw => ?_, fun l hst hl => ?_, fun o hst ho hop => ?_⟩
  · exact exec_stays rfl (stopCompleteEffect_ready hst)
  · exact exec_stays rfl (wrapTurnEffect_still (fun e => nomatch hst.symm.trans e))
  · exact exec_stays rfl (unloadStepEndEffect_still (fun e => nomatch hst.symm.trans e))
  · exact exec_stopComplete_rests hh hh hp rfl rfl hst ho hw hg (if_neg (Bool.eq_false_iff.mp hu))
  · exact exec_stopComplete_rests hh (hh.told hlen ..) hp rfl rfl hst ho hw hg ((if_pos hu).trans (State.backhitch_told hh hf rfl))
  · have h := stopCompleteEffect_rewinds hh hst ho hm hop hs hopen hw
    obtain ⟨u, he, hc⟩ := exec_reaches (s := s) (c := .stopComplete d) rfl rfl
    rw [← hc] at h
    exact ⟨u, he, h⟩
  · exact State.onChip_to (stopCompleteEffect_starved hh hst ho hm hf hop hstall hc) rfl
  · have h := stopCompleteEffect_abandons hh hst ho hw
    obtain ⟨u, he, hc⟩ := exec_reaches (s := s) (c := .stopComplete d) rfl rfl
    rw [← hc] at h
    exact ⟨u, he, h⟩
  · intro last w turns
    have goes : last = false → turns (if k.readsOn then k.readSpeed else speedOf p k.matcher.target)
        (if k.readsOn then none else some (wrapStart p w)) := fun hlast =>
      exec_retargets (c := .wrapTurn d) (s := s) (t := s.told d i Ev.wrapTurn (servoUnit d) (w.setWidth 32)) rfl rfl
        (wrapTurnEffect_turns hf hl hst hh hlast rfl) (DeckAll.Retargeted.turned (k := k) p w _ _)
    refine ⟨fun hlast he => ?_, fun hlast he hi => ?_, fun hlast ho => ?_, fun o hlast ho hm h1 h2 => ?_⟩
    · exact exec_stays rfl (wrapTurnEffect_last hf hl hst hlast he)
    · have h := wrapTurnEffect_erased hf hl hst hlast he hi
      obtain ⟨u, he, hc⟩ := exec_reaches (s := s) (c := .wrapTurn d) rfl rfl
      rw [← hc] at h
      exact ⟨u, he, h⟩
    · have hr : k.readsOn = false := by simp [DeckAll.readsOn, ho]
      simpa [hr] using goes hlast
    · have hr : k.readsOn = true := by simp [DeckAll.readsOn, ho, hm, h1, h2]
      simpa [hr] using goes hlast
  · intro goes
    have stage {n : Nat} {q : DeckSeq} (hn : n ∈ [1, 2, 3, 4]) (hs : k.seq.stage = n) (hq : k.seq.unloads p k.readSpeed = q) : goes q :=
      hq ▸ exec_retargets rfl rfl (unloadStepEndEffect_goes hf hst ho hop (hs ▸ hn)) ((DeckAll.Retargeted.refl k).steer _)
    refine ⟨fun hs => stage (by decide) hs ?_, fun hs => stage (by decide) hs ?_, fun hs => stage (by decide) hs ?_,
      fun hs => stage (by decide) hs ?_, fun hs hsil hopen hw => ?_⟩
    iterate 4 simp only [DeckSeq.unloads, hs]
    · have h := unloadStepEndEffect_unloads hf hst ho hh hop hs hsil hopen hw
      obtain ⟨u, he, hc⟩ := exec_reaches (s := s) (c := .unloadStepEnd d) rfl rfl
      rw [← hc] at h
      exact ⟨u, he, h⟩

end Sys2Proof.Machine
end
